-- ==== Sys2Proof/Syntax.lean ====
section
/-! DEFINITION. The commands the block takes: one constructor per row of the opcode table.

Every row of the table is an operation or an event that is whole and indivisible (95_what_each_step_holds.md). Its operands
are what the outside world or the physics supplies; everything else is computed from the state.
`c` is a physical cell ID (R20). `ph` lists the physical faults that fall together with the command. -/

namespace Sys2Proof

/-- What the host returns for a read: its bytes, or `none` for a PCIe error (R146). -/
abbrev HostData := Option Bytes

/-- A physical fault that falls together with a command. The first group changes what is stored before the command acts;
the second strikes what the command itself transfers or computes. -/
inductive Phys where
  /-- Code bits (mask over 72) of a stash word invert: cell ID, physical line, word (R381). -/
  | stashFlip (cell line word mask : Nat)
  /-- The check word of a physical stash block changes by an XOR (R367). -/
  | stashCheckFlip (cell block delta : Nat)
  /-- Code bits (mask over 72) of a pair of check-array words invert: cell ID, physical block / 2 (R381, R383). -/
  | stashCheckBits (cell pair mask : Nat)
  /-- Bytes (mask over 36) of a device code word go wrong: stack, stack-local address (R408). -/
  | memFlip (stack addr mask : Nat)
  /-- The check word of a device block changes by an XOR: stack, stack-local block (R409). -/
  | memCheckFlip (stack block delta : Nat)
  /-- Bytes (mask over 36) of the code word that holds a device block's check word go wrong: stack, block (R408, R409). -/
  | memCheckBits (stack block mask : Nat)
  /-- Code bits (mask over 72) of a 64-bit word of a cached block invert (R411, R414). -/
  | cacheFlip (stack block word mask : Nat)
  /-- Code bits (mask over 39) of an accumulator element invert (R213). -/
  | accFlip (cell tile elem mask : Nat)
  /-- Code bits (mask over 72) of a weight (`ab` false) or activation buffer word invert (R213). -/
  | bufFlip (cell : Nat) (ab : Bool) (word mask : Nat)
  /-- Code bits (mask over 39) of a cairn copy invert; copy 32 is the master (R491). -/
  | cairnFlip (cairn copy mask : Nat)
  /-- The network corrects words in flight in a region's router or crossbars (R363). -/
  | netCorrected (region words : Nat)
  /-- A transfer over a half of a cell's plumb arrives with wrong bits in one group (data bits [127:0], check bits [135:128]), and
  so may its replay (R370 to R372). -/
  | plumb (cell : Nat) (west : Bool) (group : Nat) (write : Bool) (wrong replay : Nat)
  /-- A moved line fails its CRC at the destination (R349, R417). -/
  | lineCrc (line : Nat)
  /-- A block or region sum line of a reduction fails its CRC where a region's router adds it (R356). -/
  | sumCrc (region line : Nat)
  /-- A line finds that a region's router or riser cannot deliver it: a port (R342). -/
  | router (region port : Nat)
  /-- A region's router or riser holds an uncorrectable error in its state: a port (R342). -/
  | routerState (region port : Nat)
  /-- A duplicated adder of a router (`unit` a region index) or of a crossbar (a block index) disagrees on a destination
  line, perhaps again on the repeat (R357). -/
  | adder (router : Bool) (unit line : Nat) (again : Bool)
  /-- A multiplier of the array puts out other bits in an array cycle; perhaps again on the replay (R249, R250). -/
  | array (cycle column bits : Nat) (again : Bool)
  /-- The two copies of the side lane, scale stage or accumulator add disagree (R249). -/
  | duplicate (cycle row grp : Nat) (again : Bool)
  /-- A proof tile returns a wrong result word, perhaps again on the repeat (R330 to R333). -/
  | proof (word : Nat) (again : Bool)
  /-- The datapath copies of a plot unit disagree (R449). -/
  | plotUnit (unit : Nat)
  /-- The transmit path of the PCIe interface refuses a write (R146). -/
  | txRefused
  deriving DecidableEq, Repr

/-- A ledger agent's report for a slot: region index, measured draw and wanted current in mA (R567), and how much of a fall the end of
a job's work made, in mA by job (R602, R604). -/
structure Report where
  region : Nat
  draw : Nat
  want : Nat
  ends : List (Nat × Nat) := []
  deriving DecidableEq, Repr

/-- A finding of a test: a unit, a part of it and the failed elements (bonds of a plumb half). -/
structure Finding where
  unit : Nat
  part : Nat
  items : List Nat
  deriving DecidableEq, Repr

/-- The settings of a lane's receiver: its CTLE code and its DFE taps (R533, R534). -/
structure LaneRx where
  ctle : Nat := 0
  dfe : List Int := []
  deriving DecidableEq, Repr

/-- What TRAIN_LINKS finds at a port with a partner (R532, R533): the lanes that entered service, the partner's serial number and port, and
whether a lane had to be trained in full. -/
structure LinkFinding where
  port : Nat
  lanes : List Nat
  serial : Nat
  partnerPort : Nat
  full : Bool
  /-- The transmitter taps at which training ended, key 4 × lane + tap, and the receiver settings by lane. -/
  taps : List (Nat × Int) := []
  rx : List (Nat × LaneRx) := []
  deriving DecidableEq, Repr

/-- What a host access to a doorbell page is: a write of bytes, or a read (R110, R113). -/
structure DoorbellAccess where
  write : Bool
  bytes : Bytes
  deriving DecidableEq, Repr

/-- What a PCIe link comes up with beside its width: its rate in GT/s, and whether the host enables ECRC (R99, R100). -/
structure LinkSetup where
  rate : Nat
  ecrc : Bool
  deriving DecidableEq, Repr

/-- The length of a TLP's access and the four words of its header (R102, R726). -/
structure TlpInfo where
  len : Nat
  header : List Nat
  deriving DecidableEq, Repr

/-- A read TLP of BAR0 or BAR4 (R723, R726). -/
structure ReadReq where
  bar : Nat
  addr : Nat
  len : Nat
  deriving DecidableEq, Repr

/-- The sync field of an ACK or a NAK, and the sequence number it names (R520 to R522). -/
structure SeqFlit where
  sync : Nat
  seq : Nat
  deriving DecidableEq, Repr

/-- The sync field and the control body of a flit (R521, R523). -/
structure BodyFlit where
  sync : Nat
  body : Bytes
  deriving DecidableEq, Repr

/-- A numbered flit as it arrives on a port: number, sync field, the 1,920 bits of its body and its CRC, and the code words in it that
could not be corrected (R516 to R519). -/
structure RawFlit where
  port : Nat
  seq : Nat
  sync : Nat
  body : Nat
  crc : Nat
  words : Nat
  deriving DecidableEq, Repr

/-- The commands. -/
inductive Instr where
  /-- SHEET_END (R66). -/
  | sheetEnd (c : Nat)
  /-- SHEET_END_DONE (R66). -/
  | sheetEndDone (c : Nat)
  /-- SHEET_FORECAST (R81). -/
  | sheetForecast (c : Nat)
  /-- SHEET_NOP (R181). -/
  | sheetNop (c : Nat)
  /-- SC_EXT (R182). -/
  | scExt (c : Nat)
  /-- SC_LDEXT (R183). -/
  | scLdext (c : Nat) (ph : List Phys)
  /-- SC_EXTSUB (R184). -/
  | scExtsub (c : Nat)
  /-- SC_EXTMIN (R184). -/
  | scExtmin (c : Nat)
  /-- SC_PSET (R185). -/
  | scPset (c : Nat) (ph : List Phys)
  /-- SC_PLOG (R186). -/
  | scPlog (c : Nat)
  /-- MM_LDW (R227). -/
  | mmLdw (c : Nat) (ph : List Phys)
  /-- MM_LDA (R228). -/
  | mmLda (c : Nat) (ph : List Phys)
  /-- MM_SWEEP (R229). -/
  | mmSweep (c : Nat) (ph : List Phys)
  /-- MM_DRAIN (R231). -/
  | mmDrain (c : Nat) (ph : List Phys)
  /-- MM_CLR (R232). -/
  | mmClr (c : Nat)
  /-- VX_ADD (R304). -/
  | vxAdd (c : Nat) (ph : List Phys)
  /-- VX_MUL (R304). -/
  | vxMul (c : Nat) (ph : List Phys)
  /-- VX_FMA (R304). -/
  | vxFma (c : Nat) (ph : List Phys)
  /-- VX_MAX (R304). -/
  | vxMax (c : Nat) (ph : List Phys)
  /-- VX_SFU (R306). -/
  | vxSfu (c : Nat) (ph : List Phys)
  /-- VX_SORT (R313). -/
  | vxSort (c : Nat) (ph : List Phys)
  /-- VX_TOPK (R314). -/
  | vxTopk (c : Nat) (ph : List Phys)
  /-- VX_HASH (R317). -/
  | vxHash (c : Nat) (ph : List Phys)
  /-- VX_BMAP (R318). -/
  | vxBmap (c : Nat) (ph : List Phys)
  /-- VX_CVT (R285). -/
  | vxCvt (c : Nat) (ph : List Phys)
  /-- VX_RED (R308). -/
  | vxRed (c : Nat) (ph : List Phys)
  /-- VX_PROOF (R330). -/
  | vxProof (c : Nat) (ph : List Phys)
  /-- MV_LOAD (R416). -/
  | mvLoad (c : Nat) (ph : List Phys)
  /-- MV_STORE (R416). -/
  | mvStore (c : Nat) (ph : List Phys)
  /-- MV_STORE_COMPLETE (R418). -/
  | mvStoreComplete (c : Nat)
  /-- MV_PUT (R346). -/
  | mvPut (c : Nat) (ph : List Phys)
  /-- MV_PUT_COMPLETE (R350). -/
  | mvPutComplete (c : Nat)
  /-- MV_GATHER (R325). -/
  | mvGather (c : Nat) (ph : List Phys)
  /-- MV_SCATTER (R325). -/
  | mvScatter (c : Nat) (ph : List Phys)
  /-- RD_SUM (R351). -/
  | rdSum (c : Nat) (ph : List Phys)
  /-- RD_SUM_TOTAL_WRITTEN (R356). -/
  | rdSumTotalWritten (c : Nat) (off : Nat) (tag : Nat) (ph : List Phys)
  /-- RD_RING (R542). -/
  | rdRing (c : Nat) (ph : List Phys)
  /-- CA_SIGNAL (R492). -/
  | caSignal (c : Nat)
  /-- CA_SIGNAL_SEND (R493). -/
  | caSignalSend (c : Nat)
  /-- CAIRN_SIGNAL_ARRIVAL (R496). -/
  | cairnSignalArrival (cairn : Nat) (copy : Nat) (ph : List Phys)
  /-- CA_WAIT (R492). -/
  | caWait (c : Nat) (ph : List Phys)
  /-- CA_READ (R492). -/
  | caRead (c : Nat) (ph : List Phys)
  /-- AT_SCORE (R470). -/
  | atScore (c : Nat) (ph : List Phys)
  /-- AT_PV (R473). -/
  | atPv (c : Nat) (ph : List Phys)
  /-- AT_SOFTMAX (R472). -/
  | atSoftmax (c : Nat) (ph : List Phys)
  /-- AT_MERGE (R474). -/
  | atMerge (c : Nat) (ph : List Phys)
  /-- AT_TREE (R478). -/
  | atTree (c : Nat) (ph : List Phys)
  /-- AT_ROLLBACK (R480). -/
  | atRollback (c : Nat) (ph : List Phys)
  /-- PL_ISSUE (R441). -/
  | plIssue (c : Nat) (ph : List Phys)
  /-- PL_FENCE (R442). -/
  | plFence (c : Nat)
  /-- PLOT_FENCE (R442). -/
  | plotFence (stack : Nat) (job : Nat)
  /-- STREAM_SEGMENT_FETCH (R165). -/
  | streamSegmentFetch (c : Nat) (ph : List Phys)
  /-- BOND_TEST_END (R373). -/
  | bondTestEnd (c : Nat) (west : Bool) (failed : List Nat)
  /-- CAIRN_TIMEOUT (R506). -/
  | cairnTimeout (c : Nat)
  /-- DEADLOCK_SAMPLE (R507). -/
  | deadlockSample
  /-- TICK (R69). -/
  | tick (ph : List Phys)
  /-- CONTEXT_CLEAR_DONE (R89). -/
  | contextClearDone (job : Nat)
  /-- CLEAR_TIMEOUT (R89). -/
  | clearTimeout (job : Nat)
  /-- PREEMPT_SAVE_DONE (R88). -/
  | preemptSaveDone (job : Nat) (ph : List Phys)
  /-- RESTORE_DONE (R88). -/
  | restoreDone (job : Nat) (ph : List Phys)
  /-- SHEET_BUDGET_EXPIRY (R75). -/
  | sheetBudgetExpiry
  /-- SHEET_STALL (R77). -/
  | sheetStall
  /-- TICK_WAIT_LIMIT (R79). -/
  | tickWaitLimit
  /-- REGION_WAKE_DONE (R571). -/
  | regionWakeDone (region : Nat)
  /-- PROOF_AUTO (R332). -/
  | proofAuto (c : Nat) (ph : List Phys)
  /-- DOORBELL (R110). -/
  | doorbell (page : Nat) (off : Nat) (access : DoorbellAccess)
  /-- DESCRIPTOR_FETCH (R107). -/
  | descriptorFetch (ans : HostData)
  /-- DESCRIPTOR_BEGIN (R116). -/
  | descriptorBegin (ring : Nat) (src : HostData) (ph : List Phys)
  /-- NOP (R142). -/
  | nop (ring : Nat) (ph : List Phys)
  /-- JOB_START (R127). -/
  | jobStart (ring : Nat) (param : HostData) (image : HostData) (ph : List Phys)
  /-- JOB_PREPARE_DONE (R210). -/
  | jobPrepareDone (job : Nat) (ph : List Phys)
  /-- COPY (R131). -/
  | copy (ring : Nat) (ph : List Phys)
  /-- COPY_PIECE_DONE (R134). -/
  | copyPieceDone (engine : Nat) (src : HostData) (ph : List Phys)
  /-- PLOT (R135). -/
  | plot (ring : Nat) (ph : List Phys)
  /-- TABLE (R139). -/
  | table (ring : Nat) (src : HostData) (ph : List Phys)
  /-- FENCE_RING (R141). -/
  | fenceRing (ring : Nat) (ph : List Phys)
  /-- FENCE_JOB (R141). -/
  | fenceJob (ring : Nat) (ph : List Phys)
  /-- FENCE_PLOT (R141). -/
  | fencePlot (ring : Nat) (ph : List Phys)
  /-- WAIT_TIMEOUT (R119). -/
  | waitTimeout (ring : Nat)
  /-- MSIX_MOD_TIMEOUT (R148). -/
  | msixModTimeout (vector : Nat)
  /-- HIF_JOB_ABORT (R153). -/
  | hifJobAbort (value : Nat)
  /-- RING_RESET (R156). -/
  | ringReset (ring : Nat)
  /-- RING_RESET_DONE (R156). -/
  | ringResetDone (ring : Nat)
  /-- PCIE_LINK_UP (R99). -/
  | pcieLinkUp (width : Nat) (setup : LinkSetup)
  /-- ECRC_MISMATCH (R102). -/
  | ecrcMismatch (w0 : Nat) (w1 : Nat) (w2 : Nat) (w3 : Nat)
  /-- UNSUPPORTED_REQUEST (R726). -/
  | unsupportedRequest (write : Bool) (addr : Nat) (tlp : TlpInfo)
  /-- PCIE_HOT_RESET (R652). -/
  | pcieHotReset
  /-- SVY_FENCE_REQ (R56). -/
  | svyFenceReq (value : Nat)
  /-- SURVEY_COMMIT (R45). -/
  | surveyCommit (fails : Nat)
  /-- SHT_PERIOD_WRITE (R64). -/
  | shtPeriodWrite (value : Nat)
  /-- SHT_OVERRUN_LIMIT_WRITE (R95). -/
  | shtOverrunLimitWrite (value : Nat)
  /-- GROUP_FORMATION (R536). -/
  | groupFormation (value : Nat)
  /-- GROUP_FORM_TIMEOUT (R759). -/
  | groupFormTimeout
  /-- FORM (R536). -/
  | form (port : Nat) (flit : BodyFlit)
  /-- ACK (R522). -/
  | ack (port : Nat) (flit : SeqFlit) (credits : Nat)
  /-- NAK (R520). -/
  | nak (port : Nat) (flit : SeqFlit)
  /-- CONTROL_NOP (R523). -/
  | controlNop (port : Nat) (sync : Nat)
  /-- TWIN_CHECK (R540). -/
  | twinCheck (port : Nat) (sync : Nat) (body : Bytes)
  /-- RING_DONE (R545). -/
  | ringDone (port : Nat) (sync : Nat) (body : Bytes)
  /-- EQ (R534). -/
  | eq (port : Nat) (sync : Nat) (body : Bytes)
  /-- HEAD_FLIT (R524). -/
  | headFlit (port : Nat) (sync : Nat) (body : Bytes)
  /-- DATA_FLIT (R544). -/
  | dataFlit (port : Nat) (sync : Nat) (body : Bytes) (ph : List Phys)
  /-- IDLE_FLIT (R527). -/
  | idleFlit (port : Nat) (sync : Nat)
  /-- LINK_PORT_DOWN (R537). -/
  | linkPortDown (port : Nat) (cause : Nat)
  /-- LINK_RETRAIN (R534). -/
  | linkRetrain (port : Nat) (lane : Nat)
  /-- PORT_RETRAIN (R550). -/
  | portRetrain (port : Nat)
  /-- LEDGER_SLOT (R567). -/
  | ledgerSlot (reports : List Report) (agentFault : Option Nat)
  /-- VCORE_ALERT_ASSERT (R556). -/
  | vcoreAlertAssert
  /-- VCORE_ALERT_RELEASE (R556). -/
  | vcoreAlertRelease
  /-- VCORE_ALERT_LONG (R556). -/
  | vcoreAlertLong
  /-- AVS_ACK (R555). -/
  | avsAck (rail : Nat)
  /-- AVS_WRITE_TIMEOUT (R555). -/
  | avsWriteTimeout (rail : Nat) (status : Nat)
  /-- AVS_RETRY (R555). -/
  | avsRetry
  /-- MARGIN_SAMPLE (R564). -/
  | marginSample (codes : List (Nat × Nat)) (datum : Nat)
  /-- GUARD_UPDATE (R562). -/
  | guardUpdate
  /-- VIA_MEASURE (R575). -/
  | viaMeasure (ratios : List (Nat × Nat))
  /-- TRIM_CELL_FAULT (R574). -/
  | trimCellFault (block : Nat) (trim : Nat)
  /-- BUDGET_SHARE (R581). -/
  | budgetShare (memory : Nat) (io : Nat) (vstore : Nat)
  /-- SENSOR_SAMPLE (R587). -/
  | sensorSample (readings : List (Nat × Int))
  /-- STAIRCASE_STEP (R611). -/
  | staircaseStep
  /-- THERMAL_CODE_UPDATE (R594). -/
  | thermalCodeUpdate
  /-- COLUMN_GOVERNOR (R598). -/
  | columnGovernor
  /-- FLOW_IN_PULSE (R751). -/
  | flowInPulse (after : Nat)
  /-- FLOW_UPDATE (R606). -/
  | flowUpdate (tin : Int) (tout : Int) (watts : Nat)
  /-- WEAR_COUNT (R615). -/
  | wearCount
  /-- RESUME (R614). -/
  | resume
  /-- REFRESH (R420). -/
  | refresh (stack : Nat) (bank : Nat) (busy : Bool)
  /-- STACK_TEMP_READOUT (R420). -/
  | stackTempReadout (stack : Nat) (temp : Int)
  /-- PATROL_READ (R422). -/
  | patrolRead (stack : Nat) (ph : List Phys)
  /-- STACK_TRAINING_LOST (R425). -/
  | stackTrainingLost (stack : Nat)
  /-- STACK_FENCED (R425). -/
  | stackFenced (stack : Nat)
  /-- PLOT_SEQUENCE_START (R444). -/
  | plotSequenceStart (stack : Nat)
  /-- PLOT_STROKE_END (R445). -/
  | plotStrokeEnd (stack : Nat) (ph : List Phys)
  /-- PLOT_SEQUENCE_COMPLETE (R447). -/
  | plotSequenceComplete (stack : Nat)
  /-- SCRUB_READ (R391). -/
  | scrubRead (c : Nat) (ph : List Phys)
  /-- STS_FLIP_ARM (R396). -/
  | stsFlipArm (c : Nat)
  /-- REGION_CTRL_FAULT (R633). -/
  | regionCtrlFault (region : Nat)
  /-- BLOCK_ERR_FAULT (R633). -/
  | blockErrFault (block : Nat)
  /-- REGION_ERR_FAULT (R633). -/
  | regionErrFault (region : Nat)
  /-- ERR_HANDLER_FAULT (R630). -/
  | errHandlerFault (kind : Nat)
  /-- ERROR_RECORD_ACCEPTED (R628). -/
  | errorRecordAccepted (level : Nat) (unit : Nat)
  /-- ERR_RING_WRITE (R640). -/
  | errRingWrite (refused : Bool)
  /-- LIMITER_SLOT_EXPIRY (R642). -/
  | limiterSlotExpiry
  /-- ERROR_HISTORY_APPEND (R672). -/
  | errorHistoryAppend (fails : Nat)
  /-- WEAR_SNAPSHOT (R672). -/
  | wearSnapshot (fails : Nat)
  /-- TRACE_RING_WRITE (R719). -/
  | traceRingWrite (region : Nat) (refused : Bool)
  /-- DRAIN (R718). -/
  | drain (region : Nat)
  /-- MON_SEL_WRITE (R713). -/
  | monSelWrite (addr : Nat) (value : Nat) (sb : Bool)
  /-- MON_SNAP_LO_READ (R714). -/
  | monSnapLoRead (addr : Nat) (sb : Bool)
  /-- IBI_HOLDOFF_EXPIRY (R699). -/
  | ibiHoldoffExpiry (kind : Nat)
  /-- POWER_ON (R649). -/
  | powerOn
  /-- RESET_N (R648). -/
  | resetN
  /-- RAIL_LOST (R651). -/
  | railLost (input : Nat)
  /-- D0_RELEASE (R650). -/
  | d0Release (fuseBad : Option Nat)
  /-- DOMAIN_RELEASE (R654). -/
  | domainRelease (locked : Bool)
  /-- RESET_CLOCK_TIMEOUT (R655). -/
  | resetClockTimeout
  /-- CLOCK_LOST (R656). -/
  | clockLost (domain : Nat)
  /-- DATUM_BLOCK_RESET (R659). -/
  | datumBlockReset (mask : Nat)
  /-- MSC_RESET (R659). -/
  | mscReset (mask : Nat)
  /-- LNK_RESET (R659). -/
  | lnkReset (mask : Nat)
  /-- COPY_ENGINE_RESET (R659). -/
  | copyEngineReset (mask : Nat)
  /-- LINK_ENGINE_RESET (R659). -/
  | linkEngineReset (mask : Nat)
  /-- REGION_RESET (R660). -/
  | regionReset (region : Nat)
  /-- BLOCK_RESET (R660). -/
  | blockReset (region : Nat) (block : Nat)
  /-- CELL_RESET (R660). -/
  | cellReset (c : Nat)
  /-- SW_RESET_RELEASE (R657). -/
  | swResetRelease (clkOk : Bool)
  /-- CLOCKS (R665). -/
  | clocks (sb : Bool)
  /-- LOAD_FW (R682). -/
  | loadFw (sb : Bool)
  /-- TRAIN_MEM (R665). -/
  | trainMem (sb : Bool) (trained : List Nat) (ids : List Nat) (unrepaired : List (Nat × Nat))
  /-- TEST_STACK (R665). -/
  | testStack (sb : Bool) (findings : List Finding) (vias : List (Nat × Nat)) (logicFault : Bool)
  /-- RELEASE_CORE (R665). -/
  | releaseCore (sb : Bool)
  /-- TRAIN_LINKS (R665). -/
  | trainLinks (sb : Bool) (links : List LinkFinding)
  /-- PUBLISH_SURVEY (R42). -/
  | publishSurvey (sb : Bool) (fails : Nat) (trainFails : Nat)
  /-- LOCK (R732). -/
  | lock (sb : Bool)
  /-- READY (R665). -/
  | ready (sb : Bool)
  /-- BRG_STEP_COMPLETE (R666). -/
  | brgStepComplete
  /-- STAGING_WRITE (R680). -/
  | stagingWrite (off : Nat) (data : Bytes)
  /-- SEC_STAGE_WRITE (R680). -/
  | secStageWrite (value : Nat)
  /-- COMMIT (R683). -/
  | commit
  /-- SEC_REVOKE (R684). -/
  | secRevoke (value : Nat)
  /-- FUSE_OPERATION_DONE (R685). -/
  | fuseOperationDone
  /-- SIGNATURE_DONE (R687). -/
  | signatureDone
  /-- GET_VERSION (R691). -/
  | getVersion (doe : Bool) (req : Bytes)
  /-- GET_CAPABILITIES (R691). -/
  | getCapabilities (doe : Bool) (req : Bytes)
  /-- NEGOTIATE_ALGORITHMS (R691). -/
  | negotiateAlgorithms (doe : Bool) (req : Bytes)
  /-- GET_DIGESTS (R691). -/
  | getDigests (doe : Bool) (req : Bytes)
  /-- GET_CERTIFICATE (R691). -/
  | getCertificate (doe : Bool) (req : Bytes)
  /-- CHALLENGE (R691). -/
  | challenge (doe : Bool) (req : Bytes)
  /-- GET_MEASUREMENTS (R691). -/
  | getMeasurements (doe : Bool) (req : Bytes)
  /-- CHUNK_SEND (R691). -/
  | chunkSend (doe : Bool) (req : Bytes)
  /-- CHUNK_GET (R691). -/
  | chunkGet (doe : Bool) (req : Bytes)
  /-- RESPOND_IF_READY (R692). -/
  | respondIfReady (doe : Bool) (req : Bytes)
  /-- GET_STATUS (R704). -/
  | getStatus
  /-- CLAIM_BRG (R663). -/
  | claimBrg
  /-- RELEASE_BRG (R704). -/
  | releaseBrg
  /-- WRITE_STEP (R704). -/
  | writeStep (value : Nat)
  /-- STAGE_DATA (R704). -/
  | stageData (off : Nat) (data : Bytes)
  /-- STAGE_SET (R704). -/
  | stageSet (value : Nat)
  /-- READ_REG (R704). -/
  | readReg (off : Nat) (count : Nat)
  /-- WRITE_REG (R705). -/
  | writeReg (off : Nat) (value : Nat)
  /-- READ_ALARMS (R704). -/
  | readAlarms
  /-- CLEAR_ALARMS (R710). -/
  | clearAlarms (mask : Nat)
  /-- READ_RECORDS (R704). -/
  | readRecords (count : Nat)
  /-- READ_PACE (R711). -/
  | readPace (first : Nat) (count : Nat)
  /-- SET_ENDPOINT_ID (R700). -/
  | setEndpointId (req : Bytes)
  /-- GET_ENDPOINT_ID (R700). -/
  | getEndpointId (req : Bytes)
  /-- GET_ENDPOINT_UUID (R700). -/
  | getEndpointUuid (req : Bytes)
  /-- GET_MCTP_VERSION_SUPPORT (R700). -/
  | getMctpVersionSupport (req : Bytes)
  /-- GET_MESSAGE_TYPE_SUPPORT (R700). -/
  | getMessageTypeSupport (req : Bytes)
  /-- GET_VENDOR_DEFINED_MSG_SUPPORT (R700). -/
  | getVendorDefinedMsgSupport (req : Bytes)
  /-- GETTID (R701). -/
  | gettid (req : Bytes)
  /-- SETTID (R701). -/
  | settid (req : Bytes)
  /-- GETPLDMVERSION (R701). -/
  | getpldmversion (req : Bytes)
  /-- GETPLDMTYPES (R701). -/
  | getpldmtypes (req : Bytes)
  /-- GETPLDMCOMMANDS (R701). -/
  | getpldmcommands (req : Bytes)
  /-- GETPDRREPOSITORYINFO (R701). -/
  | getpdrrepositoryinfo (req : Bytes)
  /-- GETPDR (R702). -/
  | getpdr (req : Bytes)
  /-- GETSENSORREADING (R702). -/
  | getsensorreading (req : Bytes)
  /-- GETSTATESENSORREADINGS (R702). -/
  | getstatesensorreadings (req : Bytes)
  /-- SETEVENTRECEIVER (R701). -/
  | seteventreceiver (req : Bytes)
  /-- POLLFORPLATFORMEVENTMESSAGE (R701). -/
  | pollforplatformeventmessage (req : Bytes)
  /-- ENTDAA (R697). -/
  | entdaa (addr : Nat)
  /-- SETDASA (R697). -/
  | setdasa (stat : Nat) (addr : Nat)
  /-- RSTDAA (R698). -/
  | rstdaa
  /-- ENEC (R699). -/
  | enec (events : Nat)
  /-- DISEC (R697). -/
  | disec (events : Nat)
  /-- GETPID (R697). -/
  | getpid
  /-- GETBCR (R697). -/
  | getbcr
  /-- GETDCR (R697). -/
  | getdcr
  /-- GETMWL (R697). -/
  | getmwl
  /-- GETMRL (R697). -/
  | getmrl
  /-- SETMWL (R697). -/
  | setmwl (value : Nat)
  /-- SETMRL (R697). -/
  | setmrl (value : Nat)
  /-- GETSTATUS (R697). -/
  | getstatus
  /-- REGISTER_WRITE (R725, R728): 4 or 8 bytes at a 4-byte-aligned BAR0 offset, with their byte enables. -/
  | registerWrite (addr : Nat) (value : Nat) (enables : Nat)
  /-- MV_LOAD_COMPLETE (R418). -/
  | mvLoadComplete (c : Nat)
  /-- STACK_RETRAIN_DONE (R425). -/
  | stackRetrainDone (stack : Nat)
  /-- LINK_TRAINING_DONE (R534). -/
  | linkTrainingDone (port : Nat) (lanes : Nat) (fast : Bool)
  /-- FLIT_DISCARD (R520). -/
  | flitDiscard (flit : RawFlit)
  /-- GATED_READ (R150, R723, R725, R726): a read TLP of BAR0, or of the BAR4 window. -/
  | gatedRead (req : ReadReq)
  /-- D3HOT_TRANSITION (R403). -/
  | d3hotTransition (enter : Bool)
  /-- POWER_OFF (R746). -/
  | powerOff
  deriving DecidableEq, Repr

end Sys2Proof
end

