-- ==== Sys2Proof/Config.lean ====
section
/-! DEFINITION. What one fitted part fixes, and the free values: results the spec leaves open (constants without a body). -/

namespace Sys2Proof.Config

/-- A grade of the EB7 (R2, R735): GRADE, PART, highest pace code, package limit and relief share in W, minimum of good M cells. -/
structure Grade where
  code : Nat
  part : Nat
  paceMax : Nat
  pkgWatts : Nat
  reliefWatts : Nat
  minGoodM : Nat
  deriving DecidableEq, Repr

/-- EB7-4630. -/
def grade4630 : Grade := ⟨0x30, 4630, 56, 2000, 1650, 3008⟩
/-- EB7-4620. -/
def grade4620 : Grade := ⟨0x20, 4620, 48, 1600, 1300, 2944⟩
/-- EB7-4610. -/
def grade4610 : Grade := ⟨0x10, 4610, 40, 1200, 950, 2816⟩

/-- The grade of a GRADE code of the fuses (R735); any other code counts as the EB7-4630. -/
def gradeOf (code : Nat) : Grade := if code == 0x10 then grade4610 else if code == 0x20 then grade4620 else grade4630

/-- A fresh unspecified word: the n-th value the spec leaves open (free value; log entry 2). -/
opaque freeWord : Nat → Word

/-- Which of the results within the error of R306 an e^x, log2, sigmoid or erf gives (function code, input bits): a function of
the input alone (R307), otherwise free (log entry 3). -/
opaque sfu : Nat → Nat → Word

/-- Modelled relief power in W from the pace code and the draw (R582, R601 do not give the function; log entry 4). -/
opaque modelledWatts : Nat → Nat → Nat

/-- Measurement 1: the digest of the boot ROM and its version (R689 gives no value; log entry 5). -/
opaque romDigest : Nat

end Sys2Proof.Config
end

