-- ==== Sys2Proof/Machine/State.lean ====
section
/-! DEFINITION. The state of the EB7 as plain data, and the state right after reset. -/

namespace Sys2Proof.Machine

open Sys2Proof

/-- A sparse map: keys strictly rising, no entry equal to the map's default value. -/
abbrev Sparse (α : Type) := List (Nat × α)

/-- Bytes by offset, in the canonical form of `Sparse`; an unlisted byte reads 0 (R410; log entry 6). -/
abbrev Ram := List Host.Cell

/-- Fault reasons. The spec stops the block on no command (R727: "Neither access raises an error."): nothing raises one. -/
inductive Fault where
  /-- Raised by nobody: the type must have an inhabitant. Safe. -/
  | neverRaised
  deriving DecidableEq, Repr

/-- Refusals. -/
inductive Refusal where
  /-- Raised by an arm of `exec` whose command has no meaning yet. Safe. -/
  | notModelled (mnemonic : String)
  deriving DecidableEq, Repr

/-! ### Time, and what leaves the part -/

/-- Time since power-on: SI picoseconds, core cycles, and the part of a core cycle, in 1/40,000 (R14; log entry 7). -/
structure Clock where
  ps : Nat := 0
  cycles : Nat := 0
  frac : Nat := 0
  deriving DecidableEq, Repr

/-- A command to a memory stack (R403, R404). One to plot units has a sub-opcode and goes to one pseudo-channel (`pc`) and so to its 64
units; a mask names them, unit u at bit u / 64, and `inter` the context. `arg` is a stroke's word budget. -/
inductive StackCmd where
  | refPb (bank : Nat)
  /-- MRR: the temperature readout (R420). -/
  | readTemp
  /-- Power-down and self-refresh begin or end (D3hot). -/
  | selfRefresh (enter : Bool)
  | plot (sub pc mask : Nat) (inter : Bool) (arg : Nat) (words : Bytes)
  deriving DecidableEq, Repr

/-- A command on the AVSBus (R553): no other is ever sent. -/
inductive AvsCmd where
  /-- Voltage write with commit, in mV. -/
  | writeVoltage (mv : Nat)
  | readVoltage
  | readCurrent
  | readTemperature
  | readStatus
  deriving DecidableEq, Repr

/-- A packet of an MCTP message (R700): start and end of the message, sequence number, at most 64 bytes. Endpoint IDs and tag are
those of the request, which no row carries. -/
structure MctpPacket where
  som : Bool
  eom : Bool
  seq : Nat
  data : Bytes
  deriving DecidableEq, Repr

/-- What the part sends out, in the order it is sent. -/
inductive Out where
  /-- A memory write TLP to the host; Relaxed Ordering is set on the data writes of COPY alone (R100, R103). -/
  | hostWrite (addr : Nat) (data : Bytes) (relaxed : Bool := false)
  /-- An MSI-X message of a vector, without Relaxed Ordering (R103, R148). -/
  | msix (vector : Nat)
  /-- An AER report with its header log (R100, R102, R726). -/
  | aer (code : Nat) (header : List Nat)
  /-- An in-band interrupt on I3C (R699). -/
  | ibi (kind : Nat)
  /-- The answer of a direct CCC, or a message on the DOE mailbox (R690, R697). -/
  | reply (data : Bytes)
  /-- A message of the MCTP endpoint, over the I3C binding or else the SMBus/I2C binding, in its packets (R698, R700). -/
  | mctp (i3c : Bool) (packets : List MctpPacket)
  /-- A flit or control message on a traverse port (R518 to R546). -/
  | link (port : Nat) (kind : Nat) (fields : List Nat)
  /-- An AVSBus command on a rail, 0 VCORE, 1 VSTORE (R553). -/
  | avs (rail : Nat) (cmd : AvsCmd)
  /-- A command to a memory stack (R403, R404). -/
  | stack (n : Nat) (cmd : StackCmd)
  /-- A read completion of BAR0: address, and the bytes as one number, the first lowest (R149). -/
  | readValue (addr : Nat) (value : Nat)
  /-- A read completion of the BAR4 window: offset and bytes (R723). -/
  | windowValue (off : Nat) (data : Bytes)
  /-- A read completion of a doorbell page: page, offset, 64-bit value (R105, R113). -/
  | doorbellValue (page : Nat) (off : Nat) (value : Nat)
  deriving DecidableEq, Repr

/-! ### The floor plan (R27 to R40) -/

/-- What a cell has lost: fence reason (R32), plumb halves retired, the bonds of each half that spares replace (R373), accumulator
banks and granules gone (as bit masks). The all-zero value is a good cell. -/
structure CellPlan where
  reason : Nat := 0
  eastGone : Bool := false
  westGone : Bool := false
  eastSpares : List Nat := []
  westSpares : List Nat := []
  banksGone : Nat := 0
  granGone : Nat := 0
  deriving DecidableEq, Repr

/-- What a block has lost: fence reason and failed trim regulator cells (R37, R574). -/
structure BlockPlan where
  reason : Nat := 0
  trimFailed : Nat := 0
  deriving DecidableEq, Repr

/-- What a region has lost: fence reason, the half-current cap, suspect sensors (R36). -/
structure RegionPlan where
  reason : Nat := 0
  capped : Bool := false
  sensSuspect : Nat := 0
  storeSuspect : Nat := 0
  deriving DecidableEq, Repr

/-- What a memory stack has lost: fenced, spare pairs used, fenced plot units, marked bank pairs (R423 to R425). -/
structure StackPlan where
  fenced : Bool := false
  sparesUsed : Nat := 0
  badUnits : List Nat := []
  marked : List Nat := []
  deriving DecidableEq, Repr

/-- The floor plan in hardware. It survives every reset and power-off (R26, R49). -/
structure Plan where
  cells : Sparse CellPlan := []
  blocks : Sparse BlockPlan := []
  regions : Sparse RegionPlan := []
  stk : Sparse StackPlan := []
  deriving DecidableEq, Repr

/-- A survey record, before it is laid out in bytes (R33 to R41). -/
structure Snap where
  plan : Plan := {}
  memMib : List Nat := []
  plotUnits : List Nat := []
  lanes : List Nat := []
  generation : Nat := 0
  tick : Nat := 0
  fromTest : Bool := false
  grade : Nat := 0x30
  deriving DecidableEq, Repr

/-- The SVY block (R45 to R56): the record in the window, the one being built, and the held fence request
(unit, level). -/
structure Svy where
  window : Option Snap := none
  changed : Bool := false
  fromTest : Bool := false
  belowGrade : Bool := false
  building : Option Snap := none
  committed : Bool := false
  waiting : Bool := false
  request : Option (Nat × Nat) := none
  deriving DecidableEq, Repr

/-! ### Errors (R620 to R647) -/

/-- An error record (R623). `ends` marks a record that ends its job (R631); `desc` names the descriptor (ring, count) whose failed
access it reports, and whose DETAIL takes its SEQ (R133, R761). -/
structure ErrRec where
  seq : Nat := 0
  code : Nat := 0
  sev : Nat := 0
  nested : Bool := false
  alarm : Bool := false
  level : Nat := 0
  sbOnly : Bool := false
  instr : Bool := false
  unit : Nat := 0
  job : Nat := 0
  cycle : Nat := 0
  tick : Nat := 0
  det : List Nat := []
  ends : Bool := false
  also : List Nat := []
  desc : Option (Nat × Nat) := none
  deriving DecidableEq, Repr

/-- An open handling window of a unit (R626): level, unit, first code, the core cycle at which it ends. -/
structure Handling where
  level : Nat
  unit : Nat
  code : Nat
  till : Nat
  deriving DecidableEq, Repr

/-- A log limiter slot (R642): the level and unit of its controller, the code, and the cycle it expires. -/
structure Slot where
  level : Nat
  unit : Nat
  code : Nat
  till : Nat
  deriving DecidableEq, Repr

/-- An alarm bit (R708, R642): its count since cleared and the source (code, unit, job) of its last record. -/
structure Alarm where
  set : Bool := false
  count : Nat := 0
  srcCode : Nat := 0
  srcUnit : Nat := 0
  srcJob : Nat := 0
  deriving DecidableEq, Repr

/-- The ERR block, the error queues and the staging FIFOs. -/
structure Err where
  fatal : Bool := false
  handlerFault : Bool := false
  base : Nat := 0
  enable : Bool := false
  sizeLog2 : Nat := 4
  vector : Nat := 0
  pi : Nat := 0
  ci : Nat := 0
  nextSeq : Nat := 1
  staging : List ErrRec := []
  chipQ : List ErrRec := []
  regionQ : Sparse (List ErrRec) := []
  blockQ : Sparse (List ErrRec) := []
  cellHeld : Sparse (List ErrRec) := []
  chipWait : List ErrRec := []
  overRegion : Sparse Nat := []
  overBlock : Sparse Nat := []
  handling : List Handling := []
  slots : List Slot := []
  /-- ERR_DROP_RATE, NOLIM, QUEUE, STAGE, HOST, SB, TRACE, COALESCED, keys 0 to 7. -/
  drops : Sparse Nat := []
  lastDrops : Sparse Nat := []
  lastSummary : Option Nat := none
  sbFifo : List ErrRec := []
  alarms : Sparse Alarm := []
  deriving DecidableEq, Repr

/-! ### Sheets (R61 to R98) -/

/-- The SHT block and the tick agreement. -/
structure Sht where
  opened : Bool := false
  openCycle : Nat := 0
  openPs : Nat := 0
  lastDone : Option Nat := none
  overrun : Bool := false
  /-- The core cycle in which the device signalled done to its group (R70); the tick wait began then. -/
  doneSent : Option Nat := none
  tick : Nat := 0
  period : Nat := 0x10000
  nextPeriod : Option Nat := none
  limit : Nat := 4
  stall : Bool := false
  writeRej : Bool := false
  groupActive : Bool := false
  forecastMissing : Bool := false
  overCount : Nat := 0
  overCycles : Nat := 0
  member : Nat := 0
  enable : Bool := false
  mask : Nat := 0
  deriving DecidableEq, Repr

/-! ### Host interface (R99 to R156) -/

/-- A submission ring and its completion ring (R106, R154). STATE: 0 disabled, 1 running, 2 stopped, 3 resetting. -/
structure Ring where
  base : Nat := 0
  cqBase : Nat := 0
  enable : Bool := false
  interactive : Bool := false
  priv : Bool := false
  sizeLog2 : Nat := 4
  vector : Nat := 0
  state : Nat := 0
  sqCi : Nat := 0
  cqPi : Nat := 0
  sqPi : Nat := 0
  cqCi : Nat := 0
  /-- A completion write failed: completions are discarded until the ring's RESET (R146). -/
  cqFailed : Bool := false
  deriving DecidableEq, Repr

/-- The life of a fetched descriptor. -/
inductive DescPhase where
  /-- Fetched; its type's row has not looked at it yet. -/
  | fetched
  /-- Its checks passed; it waits to begin (R116). -/
  | waiting
  /-- It has begun. -/
  | begun
  /-- Its work is over; the completion record is held back (R500, R631, R140). -/
  | finished (status : Nat) (lo : Nat) (seq : Nat)
  /-- It failed with a status; its completion waits until the record of the failure has its SEQ (R133, R625, R761). -/
  | naming (status : Nat)
  deriving DecidableEq, Repr

/-- A descriptor taken from a ring (R118): the ring, its count, its 64 bytes, the core cycles it has waited on its
cairn, and how far its pieces went. -/
structure Desc where
  ring : Nat
  count : Nat
  raw : Bytes
  phase : DescPhase := .fetched
  waitFrom : Option Nat := none
  waited : Nat := 0
  nextOff : Nat := 0
  open_ : Nat := 0
  fail : Nat := 0
  failSeq : Nat := 0
  ended : Bool := false
  /-- The descriptors a FENCE of SCOPE 1 waits for (R141). -/
  waits : List (Nat × Nat) := []
  deriving DecidableEq, Repr

/-- A copy engine at work (R134): the piece's descriptor (ring, count), offset and length. -/
structure Piece where
  ring : Nat
  count : Nat
  off : Nat
  len : Nat
  deriving DecidableEq, Repr

/-- A moderation register HIF_MOD_v with the completions pending on the vector (R148). -/
structure Mod where
  count : Nat := 1
  time : Nat := 0
  pending : Nat := 0
  oldest : Nat := 0
  deriving DecidableEq, Repr

/-- An MSI-X table entry and its pending bit; the vector-control mask bit is 1 at reset (PCIe; log entry 8). -/
structure Msix where
  addr : Nat := 0
  data : Nat := 0
  masked : Bool := true
  pend : Bool := false
  deriving DecidableEq, Repr

/-- The HIF block, the rings, the fetched descriptors and the copy engines. -/
structure Hif where
  linkUp : Bool := false
  width : Nat := 0
  rate : Nat := 0
  degraded : Bool := false
  dbPartial : Bool := false
  dbInvalid : Bool := false
  gatedRead : Bool := false
  hostErr : Bool := false
  /-- The transmit path refuses the next write TLP, and only that one (R146). -/
  txRefused : Bool := false
  /-- The host has enabled ECRC checking (R100). -/
  ecrc : Bool := false
  fetchEn : Bool := false
  bulkEngines : Nat := 0xC
  rings : Sparse Ring := []
  mods : Sparse Mod := []
  msix : Sparse Msix := []
  lastInter : Nat := 63
  lastBulk : Nat := 63
  descs : List Desc := []
  engines : Sparse (Option Piece) := []
  d3hot : Bool := false
  deriving DecidableEq, Repr

/-! ### Jobs and images (R122 to R130, R200 to R210) -/

/-- A bounds window (R125). -/
structure Window where
  base : Nat
  limit : Nat
  read : Bool
  write : Bool
  plot : Bool
  deriving DecidableEq, Repr

/-- A job parameter block (R124). -/
structure Params where
  deadlockMode : Nat := 0
  glideOff : Bool := false
  group : Bool := false
  twin : Bool := false
  waitTimeout : Nat := 0
  saveAddr : Nat := 0
  saveLen : Nat := 0
  cairnBase : Nat := 0
  cairnCount : Nat := 0
  windows : List Window := []
  deriving DecidableEq, Repr

/-- A segment entry (R202). -/
structure Seg where
  base : Nat
  len : Nat
  initOff : Nat
  initLen : Nat
  code : Bool
  writable : Bool
  deriving DecidableEq, Repr

/-- A virtual region entry (R203). -/
structure VRegion where
  vregion : Nat
  pregion : Nat
  pair : Nat
  paired : Bool
  deriving DecidableEq, Repr

/-- A virtual cell entry (R204). -/
structure VCell where
  vcell : Nat
  pcell : Nat
  accTiles : Nat
  plumbBound : Bool
  stashGran : Nat
  sheetFirst : Nat
  sheetEntries : Nat
  seed : Nat
  deriving DecidableEq, Repr

/-- A table declaration (R208). -/
structure TableDecl where
  kind : Nat
  id : Nat
  maxLen : Nat
  deriving DecidableEq, Repr

/-- A sheet table entry (R205). -/
structure SheetEnt where
  stream : Nat
  count : Nat
  bias : Nat
  step : Nat
  deriving DecidableEq, Repr

/-- A stream segment entry (R206). -/
structure StreamEnt where
  seg : Nat
  len : Nat
  offset : Nat
  live : Nat
  deriving DecidableEq, Repr

/-- A live-range entry (R207). -/
structure LiveEnt where
  startKib : Nat
  lenKib : Nat
  last : Bool
  deriving DecidableEq, Repr

/-- A program image, read into its tables (R201 to R208). -/
structure Image where
  major : Nat := 1
  minor : Nat := 0
  period : Nat := 0
  sheetCount : Nat := 0
  lead : Nat := 0
  forecast : List Nat := []
  saveMin : Nat := 0
  segs : List Seg := []
  regions : List VRegion := []
  cells : List VCell := []
  tables : List TableDecl := []
  sheets : List SheetEnt := []
  streams : List StreamEnt := []
  lives : List LiveEnt := []
  /-- The whole image, from which the initial contents are copied. -/
  raw : Bytes := []
  deriving DecidableEq, Repr

/-- Where a job stands. -/
inductive JobPhase where
  /-- Accepted; waits for bulk jobs to yield (R86, R128). -/
  | claiming
  /-- R210 is under way. -/
  | preparing
  /-- Prepared; sheet 1 opens at the next tick after any clearing (R210, R89). -/
  | ready
  /-- Its sheets run. -/
  | running
  /-- Switched out; its live ranges are being saved (R88). -/
  | saving
  /-- Switched out (R90). -/
  | preempted
  /-- Its state is being restored (R88). -/
  | restoring
  /-- Restored; its next sheet opens at the next tick (R90). -/
  | restored
  deriving DecidableEq, Repr

/-- Why a job ends: the completion status (R130) and the lowest SEQ of the records that end it (R631). -/
structure Ending where
  status : Nat
  seq : Nat := 0
  deriving DecidableEq, Repr

/-- What a preempted job keeps on the device: the granule map and banks of a cell (R90, R365). -/
structure Kept where
  cell : Nat
  gran : List Nat
  banks : List Nat
  deriving DecidableEq, Repr

/-- A deferred signal (R500): the absolute cairn, the amount, and its source word (R624). -/
structure Deferred where
  cairn : Nat
  amount : Nat
  source : Nat
  deriving DecidableEq, Repr

/-- An active job (R122). -/
structure Job where
  id : Nat
  interactive : Bool
  ring : Nat
  count : Nat
  params : Params
  image : Image
  phase : JobPhase
  sheet : Nat := 0
  /-- Forecast words kept, (sheet, word); a missing word is an assumed high (R81, R82). -/
  forecasts : Sparse Nat := []
  ending : Option Ending := none
  claimedAt : Nat := 0
  kept : List Kept := []
  liveAt : List (Nat × Nat) := []
  deferred : List Deferred := []
  stuck : Bool := false
  /-- Of a pre-empted job: the header, cairns, block state and generators of its save area, as they stood at the yield tick (R87,
  R126). -/
  head : Bytes := []
  /-- The job's sheet check value of the sheet (R539), and the twin's values not yet compared. -/
  twinSum : Nat := 0
  twinMine : List (Nat × Nat) := []
  twinTheirs : List (Nat × Nat) := []
  started : Nat := 0
  deriving DecidableEq, Repr

/-- A clearing in progress (R87): of the cells and cairns a job held, since a core cycle. `save` marks one whose written bits wait
for the save of R88; `noLimit` one that the limit of R89 does not bound (R613); `cleared` one whose cairns, blocks and accumulators
are clear, and whose written bits wait for a save (R387). -/
structure Clear where
  job : Nat
  cells : List Nat
  cairnBase : Nat
  cairnCount : Nat
  since : Nat
  save : Bool := false
  noLimit : Bool := false
  cleared : Bool := false
  deriving DecidableEq, Repr

/-! ### Cells -/

/-- An operation a cell has issued that is not complete (R66, R493), or a cairn signal waiting to be sent. -/
inductive Flight where
  | load (bytes : Nat)
  | store (bytes : Nat)
  | put (dest bytes : Nat)
  | sum (dest off tag : Nat)
  | ring (number : Nat)
  /-- A PL.FENCE with the sequence serials it still waits for (R442). -/
  | fence (stack : Nat) (upto : Nat)
  | signal (cairn amount : Nat) (group : Bool) (index : Nat)
  deriving DecidableEq, Repr

/-- A CA.WAIT under way: absolute cairn, value, issue cycle (R494, R506). -/
structure Wait where
  cairn : Nat
  value : Nat
  since : Nat
  deriving DecidableEq, Repr

/-- The sequencer of a cell (R162 to R167) and the job it serves (0: none). -/
structure Seq where
  job : Nat := 0
  vindex : Nat := 0
  stream : List Nat := []
  index : Nat := 0
  live : Nat := 0xFFFFFFFF
  fetched : Bool := false
  next : Option (List Nat × Nat) := none
  done : Bool := true
  yields : Bool := false
  ended : Bool := false
  halted : Bool := false
  issued : Bool := false
  flight : List Flight := []
  wait : Option Wait := none
  gran : List Nat := []
  banks : List Nat := []
  /-- The core cycle at which the cell became done, and its core cycles asleep in CA.WAIT of the sheet (R715). -/
  doneAt : Nat := 0
  slept : Nat := 0
  deriving DecidableEq, Repr

/-- A stash (R364 to R396), by physical offset: bytes, written lines, wrong check words (held XOR right), wrong code
bits per word (key line * 8 + word) and per pair of check-array words (key block / 2), corrected words of the lap, marked granules, scrubber and injection. -/
structure Stash where
  data : Ram := []
  written : Sparse Bool := []
  checks : Sparse Nat := []
  bad : Sparse Nat := []
  badChecks : Sparse Nat := []
  corrWords : List Nat := []
  marked : Nat := 0
  scrubLog2 : Nat := 0xC
  scrubPos : Nat := 0
  scrubAt : Nat := 0
  lapCorrected : Nat := 0
  corrected : Nat := 0
  flipA : Nat := 0
  flipEnA : Bool := false
  flipB : Nat := 0
  flipEnB : Bool := false
  flipLine : Nat := 0
  flipWord : Nat := 0
  flipArmed : Bool := false
  flipFired : Bool := false
  deriving DecidableEq, Repr

/-- A plumb (R368 to R376): last failed transfer of each half, tests running and waiting, counts. -/
structure Plumb where
  eastFail : Option Nat := none
  westFail : Option Nat := none
  eastTest : Option Nat := none
  westTest : Option Nat := none
  eastWait : Bool := false
  westWait : Bool := false
  replays : Nat := 0
  bondTests : Nat := 0
  deriving DecidableEq, Repr

/-- The matrix core of an M cell (R212, R255, R256). Buffers are bytes; accumulator elements are keyed by
physical tile * 256 + element. -/
structure Matrix where
  wb : Ram := []
  ab : Ram := []
  acc : Sparse Word := []
  wbBad : Sparse Nat := []
  abBad : Sparse Nat := []
  accBad : Sparse Nat := []
  corrTimes : List (Nat × Nat) := []
  mismatches : Nat := 0
  tilesSince : Nat := 0x400
  replayed : Bool := false
  skipped : Nat := 0
  accCorrected : Nat := 0
  lastBank : Nat := 0
  uncorr : Bool := false
  tol0 : Nat := 0x2B5AD6B5
  tol1 : Nat := 0x000056B5
  fetchTiles : Nat := 0
  storeRows : Nat := 0
  deriving DecidableEq, Repr

/-- Format, generator and proof state of a cell (R295, R336). -/
structure Misc where
  nanCvt : Nat := 0
  intSat : Nat := 0
  rng : Nat := 0
  prfLast : Nat := 0
  prfPass : Bool := false
  /-- The region's `liveTicks` at the last passed proof: SHEETS_SINCE is counted from it (R332). -/
  prfBase : Nat := 0
  prfRetried : Bool := false
  prfNext : Nat := 0
  prfCount : Nat := 0
  /-- Instructions issued, modulo 2^15, for the trace's SAMPLE (R718). -/
  issues : Nat := 0
  deriving DecidableEq, Repr

/-- A cell's volatile state. -/
structure CellSt where
  seq : Seq := {}
  stash : Stash := {}
  plumb : Plumb := {}
  mm : Matrix := {}
  misc : Misc := {}
  deriving DecidableEq, Repr

/-- A block's predicates P1 to P15 (bit n for Pn; P0 always reads 1) and extents (R171, R174). -/
structure BlockSt where
  preds : Nat := 0
  extents : Sparse Word := []
  deriving DecidableEq, Repr

/-! ### Regions and columns -/

/-- Power state of a region (R560 to R575, R598 to R604): gate; wake under way (steps granted, when it began in ps and core
cycles, on demand or by forecast); ledger grant, measured draw, wanted current and ballast in mA; issue clips in eighths;
glide; guard in 2.5 mV steps above −25 mV, and the runs of periods of R562 and R563; droop stretch; via measurements. -/
structure RegionPw where
  gated : Bool := false
  wake : Option Nat := none
  wakeAt : Nat := 0
  wakeCycle : Nat := 0
  wakeDemand : Bool := false
  grant : Nat := 0
  draw : Nat := 0
  want : Nat := 0
  ballast : Nat := 0
  clip : Nat := 8
  /-- The region for whose wake this one is clipped (R572). -/
  wakeClip : Option Nat := none
  /-- The part of the ballast that glides (R602): since when in ps, and how much, oldest first. -/
  gliding : List (Nat × Nat) := []
  guard : Nat := 20
  high : Nat := 0
  low : Nat := 0
  margin : Nat := 63
  stretchFrom : Option Nat := none
  lastCode : Nat := 63
  via : List (List Nat) := []
  viaRatio : Nat := 0x100
  frac : Nat := 8
  /-- Ticks while the region is not gated (R332). -/
  liveTicks : Nat := 0
  deriving DecidableEq, Repr

/-- Network, store and error registers of a region controller, its trace buffer and its resets. -/
structure RegionSt where
  netCorrected : Nat := 0
  netFault : Bool := false
  bulkShare : Nat := 8
  redSat : Nat := 0
  fallback : Bool := false
  scrubMax : Nat := 0xC
  stsRej : Bool := false
  stsUncorr : Bool := false
  laps : Nat := 0
  trcCtrl : Nat := 0
  trcFrozen : Bool := false
  /-- A capture is being sent to the host trace ring (R718). -/
  draining : Bool := false
  trcDropped : Nat := 0
  trcSeq : Nat := 0
  trace : List Bytes := []
  pw : RegionPw := {}
  deriving DecidableEq, Repr

/-- A column: store-die power, estimates over the limit in a row, estimate governing, governor samples (R591 to R599). -/
structure ColumnSt where
  lines : Nat := 0
  estRun : Nat := 0
  estGoverns : Bool := false
  tEst : Int := 0
  samples : List (Nat × Nat) := []
  raised : Nat := 0
  deriving DecidableEq, Repr

/-! ### Device memory (R401 to R452) -/

/-- A stack-cache frame: stack-local block, dirty, its 4,096 bytes, check word (held XOR right), wrong bits of its
64-bit words (R411, R414). -/
structure Frame where
  block : Nat
  dirty : Bool
  data : Ram
  check : Nat := 0
  bad : Sparse Nat := []
  deriving DecidableEq, Repr

/-- Who queued a plot sequence: a PLOT descriptor, or a PL.ISSUE with its cairn. -/
inductive PlotFrom where
  | desc (ring count : Nat)
  | cell (cell : Nat) (signal : Option Nat) (sheet index : Nat)
  deriving DecidableEq, Repr

/-- An exact value: NaN, an infinity, or (−1)^neg × mag × 2^exp. A zero keeps its sign. -/
inductive Val where
  | nan
  | inf (neg : Bool)
  | fin (neg : Bool) (mag : Nat) (exp : Int)
  deriving DecidableEq, Repr

/-- A plot unit's state in the context of one class (R426): its position (command, block of the command's columns, words of the block
read or written), the words of the block as it has read them, the mask as its rows, ascending, what it has found, the top-k list, the sum and the count behind it, and the lines of
its result. `writes` are the bytes of an UPDATE still to be written for the block. -/
structure UnitCtx where
  unit : Nat
  cmd : Nat := 0
  step : Nat := 0
  word : Nat := 0
  buf : Ram := []
  mask : List Nat
  excluded : List Nat := []
  corrected : Nat := 0
  uncorr : List Nat := []
  badBlocks : List Nat := []
  top : List (Nat × Nat) := []
  sum : Option Val := none
  writes : List (Nat × Bytes) := []
  lines : List (Nat × Bytes) := []
  overflow : Bool := false
  deriving DecidableEq, Repr

/-- A decoded plot sequence (R431, R432) and how far it has run. -/
structure PlotSeq where
  serial : Nat
  job : Nat
  src : PlotFrom
  lines : Bytes
  nCmd : Nat
  unitBase : Nat
  unitCount : Nat
  rCode : Nat
  rowBase : Nat
  tag : Nat
  result : Nat
  started : Bool := false
  group : Nat := 0
  strokes : Nat := 0
  uncorr : Nat := 0
  failed : List Nat := []
  checkFail : Bool := false
  cancel : Bool := false
  deriving DecidableEq, Repr

/-- A memory stack and its controller. Bytes are keyed by stack-local address, wrong bytes of a code word by word
index (`checkWord` for the code words of check words), wrong check words by block index. -/
structure StackSt where
  trained : Bool := false
  lost : Option Nat := none
  uncorr : Bool := false
  cacheUncorr : Bool := false
  markedCount : Nat := 0
  corrected : Nat := 0
  uncorrected : Nat := 0
  lapCode : Nat := 4
  laps : Nat := 0
  patrolPos : Nat := 0
  lapWords : List Nat := []
  pairWords : List (Nat × Nat) := []
  postponed : Sparse Nat := []
  postponeMax : Nat := 0
  doubled : Bool := false
  temp : Int := 0
  data : Ram := []
  bad : Sparse Nat := []
  checks : Sparse Nat := []
  frames : List Frame := []
  bulkQ : List PlotSeq := []
  interQ : List PlotSeq := []
  interRun : Nat := 0
  /-- The contexts of the units of the running group, one a class (R426). -/
  bulkCtx : List UnitCtx := []
  interCtx : List UnitCtx := []
  serial : Nat := 0
  /-- The status words that PSTAT last returned, by unit (R404). -/
  unitStatus : Sparse Word := []
  /-- Completed sequences that no PLOT_FENCE has covered yet (R442). -/
  doneSeqs : List PlotSeq := []
  deriving DecidableEq, Repr

/-- A table of a job in the table store (R139, R460): committed image, shadow, and KV sequence state. -/
structure TableSt where
  job : Nat
  kind : Nat
  id : Nat
  image : Option Bytes := none
  shadow : Option (Bytes × Nat × Nat) := none
  superseded : List (Nat × Nat) := []
  lens : Sparse Nat := []
  deriving DecidableEq, Repr

/-! ### Cairns and the network -/

/-- The SYN block: master and region copies (key cairn + 4096 * copy, copy 32 the master), wrong bits, registers,
additions on their way (cairn, copy, amount, source word) (R489 to R514). -/
structure Syn where
  copies : Sparse Nat := []
  bad : Sparse Nat := []
  inFlight : List (Nat × Nat × Nat × Nat) := []
  groupQ : List (Nat × Nat × Nat) := []
  latched : Bool := false
  timeout : Bool := false
  wrap : Bool := false
  corrected : Nat := 0
  dlJob : Nat := 0
  dlWaiters : Nat := 0
  dlGroup : Bool := false
  dlWaiter : List Nat := []
  deriving DecidableEq, Repr

/-- A member's contribution to a reduction group (R351 to R358): the cell, its data, the instruction that sent it, its header, and the
bits of X and the destination descriptor. -/
structure Contribution where
  cell : Nat
  data : Bytes
  sheet : Nat
  index : Nat
  vcell : Nat
  header : Bytes := []
  bits : Nat := 0
  deriving DecidableEq, Repr

/-- A reduction group in progress (R352), with the header and bits of its first contribution: the crossbars (block indices) and routers
(region indices) at which it is in progress (R359), and the blocks and regions whose sums have left their unit. -/
structure RedGroup where
  dest : Nat
  off : Nat
  tag : Nat
  job : Nat
  header : Bytes
  opcodeBits : Nat
  parts : List Contribution
  xbars : List Nat := []
  routers : List Nat := []
  blocksOut : List Nat := []
  regionsOut : List Nat := []
  deriving DecidableEq, Repr

/-! ### Links (R515 to R550) -/

/-- A traverse port (R515 to R550): what LNK_CTRL, LNK_STATUS, LNK_ERR and LNK_PARTNER show, sequence numbers, the sent
flits kept for replay (number; type, event bits, body), the data bodies that wait for credits, the first half of a split
event, transmitter taps, the bytes of the block being received. -/
structure Port where
  role : Nat := 0
  lanes : Nat := 0
  fast : Bool := false
  up : Bool := false
  writeRej : Bool := false
  lost : Bool := false
  retries : Nat := 0
  fecUncorr : Nat := 0
  partnerMember : Nat := 0
  partnerPort : Nat := 0
  partnerSerial : Nat := 0
  txSeq : Nat := 0
  rxSeq : Nat := 0
  nakked : Bool := false
  rxSinceAck : Nat := 0
  credits : Nat := 0
  replay : List (Nat × List Nat) := []
  replays : Nat := 0
  replaySeq : Nat := 0
  outQ : List (Nat × Nat) := []
  /-- The last FORM record, and when it came, in ps. -/
  form : Option (List Nat) := none
  formAt : Nat := 0
  partial_ : Option Nat := none
  taps : Sparse Int := []
  /-- Receiver settings by lane (R533, R534). -/
  rx : Sparse LaneRx := []
  blockBuf : Bytes := []
  /-- Group signals to forward: group index, hops, cairn index, amount (R531). -/
  fwd : List (Nat × Nat × Nat × Nat) := []
  /-- The state fields that the port sent last (R522). -/
  lastSync : Nat := 0
  training : Bool := false
  deriving DecidableEq, Repr

/-- An outgoing RD.RING transfer (R542 to R546). -/
structure RingOut where
  number : Nat
  job : Nat
  cell : Nat
  dir : Nat
  deriving DecidableEq, Repr

/-- An incoming RD.RING transfer (R524, R544): the role and the ports it arrives on, its head, blocks done in all and per
port, and its status. -/
structure RingIn where
  role : Nat
  ports : List Nat
  job : Nat
  op : Nat
  number : Nat
  dstOff : Nat
  dstSeg : Nat
  len : Nat
  signal : Option (Nat × Nat)
  done : Nat := 0
  perPort : Sparse Nat := []
  status : Nat := 0
  deriving DecidableEq, Repr

/-- The group: LNK_GROUP, formation, the agreement of the sheet (R525 to R530, R536, R759). `nbr` holds the latest state
field of each neighbour, by member number (R527). -/
structure Grp where
  topology : Nat := 0
  ringSize : Nat := 2
  forming : Option Nat := none
  round : Nat := 0
  largest : Nat := 0
  formed : Bool := false
  formFail : Bool := false
  diam : Nat := 0
  adopt : Option Nat := none
  nbr : Sparse (Option Nat) := []
  level : Nat := 14
  noYield : Nat := 0
  abort : Nat := 0
  /-- Aborts raised after the member became done: they count for the next sheet (R529). -/
  ownAbort : Nat := 0
  /-- The code that the member advertised as it became done, with the term that set it. -/
  own : Nat × Nat := (63, 0)
  pace : Nat := 63
  heldNoYield : Nat := 0
  heldAbort : Nat := 0
  heldPace : Nat := 63
  neighbourLost : Bool := false
  nextNumber : Nat := 0
  rings : List RingOut := []
  ringsIn : List RingIn := []
  deriving DecidableEq, Repr

/-! ### Power, heat (R551 to R619) -/

/-- The power controller (R553 to R586): the voltage table; AVSBus rail 0 (setpoint in force, write on its way since when,
attempts) and rail 1; limits; the alert; the excursions above I_SUST of the last 10 ms, in ps; the terms of pace (R577), the pace
in force, the advertised code, the codes agreed and not yet applied; I_SUST in A and the relief allocation in W. -/
structure Pwr where
  vtable : Bytes := []
  vtableOk : Bool := false
  avsOk : Bool := false
  avsFault : Bool := false
  limitRej : Bool := false
  pkgW : Nat := 2000
  cap : Nat := 56
  rate : Nat := 0x190
  pendPkgW : Option Nat := none
  pendCap : Option Nat := none
  /-- The accepted pace ceiling, and the modelled relief power in W of the way of `cap` to it (R601). -/
  capGoal : Nat := 56
  capW : Nat := 0
  setpoint : Nat := 700
  command : Option Nat := none
  attempts : Nat := 0
  lastMove : Nat := 0
  /-- What of the 48 A of a rise the ledger has granted, in mA (R558). -/
  slew : Nat := 0
  vstore : Nat := 700
  vstoreCmd : Option Nat := none
  vstoreTries : Nat := 0
  lastTry : Nat := 0
  alertFrom : Option Nat := none
  alertLong : Bool := false
  frozen : Bool := false
  excursions : List (Nat × Nat) := []
  /-- Since when the grants stand above I_SUST, in ps (R557). -/
  aboveFrom : Option Nat := none
  margin : Nat := 56
  marginOk : Nat := 0
  budget : Nat := 56
  /-- The modelled power of the budget code on its way, in W (R601). -/
  budgetW : Nat := 0
  thermal : Nat := 56
  pace : Nat := 0
  /-- The code that the second core PLL is locked to (R579). -/
  otherPll : Nat := 0
  advertised : Nat := 0
  limitTerm : Nat := 0
  agreed : List (Nat × Nat) := []
  sustained : Nat := 2070
  relief : Nat := 0
  deriving DecidableEq, Repr

/-- Readings and caps of budget sharing (R581 to R583, R607, R608): measured memory, I/O and VSTORE power in W, the flow and
inlet caps in millionths of the relief share, unglided falls (R604), the last glide release in ms, by how many percent the datum die lengthens the clock period (R566). -/
structure Share where
  memory : Nat := 0
  io : Nat := 0
  vstoreW : Nat := 0
  flowCap : Nat := 1000000
  inletCap : Nat := 1000000
  unglidedFalls : Nat := 0
  glideMs : Nat := 0
  datumPct : Nat := 0
  deriving DecidableEq, Repr

/-- The thermal controller (R587 to R619): last readings by sensor number (region r: 4r + n; store column c: 128 + 2c + n; datum
die: 160 + n) in quarter degrees, since when a pair disagrees (by its first sensor), the emergency stop, the coolant (inlet and
outlet in quarter degrees, flow in µL/min), the conditions held for a time and since when, and the wear counts. -/
structure Thm where
  reading : Sparse Int := []
  /-- L0_SUSPECT: bit n when datum-die sensor n is suspect (R619). -/
  l0Suspect : Nat := 0
  differFrom : Sparse Nat := []
  stopped : Bool := false
  stopCause : Nat := 0
  /-- Every cause of the stop that holds, bit n for STOP_CAUSE n (R611, R614). -/
  stopMask : Nat := 0
  stopSeen : Bool := false
  tinOk : Bool := false
  toutOk : Bool := false
  implaus : Bool := false
  kFactor : Nat := 0x4B0
  tinMax : Nat := 0x2D
  wMax : Nat := 0xB4
  tin : Int := 0
  tout : Int := 0
  lastPulse : Option Nat := none
  interval : Nat := 0
  flow : Nat := 0
  flows : List (Nat × Nat) := []
  lowMark : Option Nat := none
  badFrom : Option Nat := none
  goodFrom : Option Nat := none
  flowOkFrom : Option Nat := none
  coolFrom : Option Nat := none
  staircase : Option Nat := none
  stopAt : Nat := 0
  stopWatts : Nat := 0
  lastThrottle : Option Nat := none
  wear : Sparse Nat := []
  tinBad : Bool := false
  toutBad : Bool := false
  /-- The flow reading is not believed: F counts as 1.2 L/min for the cap (R609). -/
  flowDoubt : Bool := false
  /-- A column forecast high for four sheets is at 92 °C or more: the thermal code does not rise (R597). -/
  holdCode : Bool := false
  deriving DecidableEq, Repr

/-! ### Reset, bring-up, persistent records (R648 to R676) -/

/-- A unit under software reset (R657): class (0 datum block, 1 MSC, 2 LNK, 3 copy engine, 4 link engine, 5 region,
6 block, 7 cell), number, and when it began in ps. -/
structure UnitReset where
  cls : Nat
  num : Nat
  since : Nat
  /-- Its release waits for CLK_OK (R655). -/
  held : Bool := false
  /-- The wait passed 1 ms: it stays in reset (R655). -/
  dead : Bool := false
  deriving DecidableEq, Repr

/-- A compatibility reset that waits (R662): the unit's class and number, the error's code, whether the error was chip-fatal. -/
structure CompatWait where
  cls : Nat
  num : Nat
  code : Nat
  fatal : Bool
  deriving DecidableEq, Repr

/-- The RST block and the bring-up steps. `d0` is D0's release; `since` is when VAUX and RESET_N allowed it. -/
structure Rst where
  released : Nat := 0
  d0Since : Option Nat := none
  requested : Nat := 0
  requestAt : Nat := 0
  lastRelease : Nat := 0
  heldFrom : Option Nat := none
  clockTimeout : Bool := false
  lastCause : Nat := 0
  swRej : Bool := false
  railLost : Bool := false
  compat : Bool := false
  /-- Since when, in ps, the reference clock runs, and each PLL has been locked: 0 core, 1 memory PHY, 2 traverse SerDes (R653). -/
  refSince : Nat := 0
  lockSince : Sparse (Option Nat) := []
  units : List UnitReset := []
  compatWait : List CompatWait := []
  done : Nat := 0
  /-- The step under way and since when in ps; whether its work has been done, and the failure cause found (0: none). -/
  step : Option (Nat × Nat) := none
  worked : Bool := false
  stepFail : Nat := 0
  failed : Bool := false
  cause : Nat := 0
  orderRej : Bool := false
  ownerRej : Bool := false
  ready : Bool := false
  memFast : Bool := false
  /-- The identities that the stacks reported at TRAIN_MEM (R667), and what TRAIN_LINKS is to train (R532). -/
  stackIds : List Nat := []
  linkFind : List LinkFinding := []
  owner : Bool := false
  locked : Bool := false
  deriving DecidableEq, Repr

/-- Levels of the input pins: VAUX good, the other power-good inputs (bit n: 0 VMEMC, 1 VMEMQ, 2 VPHY, 3 VCORE,
4 VSTORE), RESET_N, the reference clock, the address straps (R741, R748). -/
structure Pins where
  vaux : Bool := false
  pg : Nat := 0
  resetN : Bool := true
  refclk : Bool := false
  straps : Nat := 0
  deriving DecidableEq, Repr

/-- What the training record holds for a port (R533): the partner's serial number and port, and of each lane the transmitter taps and the
receiver settings. -/
structure SavedLink where
  serial : Nat := 0
  port : Nat := 0
  taps : Sparse Int := []
  rx : Sparse LaneRx := []
  deriving DecidableEq, Repr

/-- A record slot of the NOR (R669, R670), erased throughout unless it says otherwise: the header's fields, the DATA bytes, the CRC word
and the commit byte. Beside the bytes, what they say: a floor plan; in a training slot also the part's serial number, the stacks'
identities and the ports (R533, R667). The spec gives no layout of the test and training records' DATA (log entry 38). -/
structure NorSlot where
  kind : Nat := 0xFF
  format : Nat := 0xFF
  length : Nat := 0xFFFFFFFF
  wcount : Nat := 0xFFFFFFFF
  raw : Bytes := []
  crc : Nat := 0xFFFFFFFF
  commit : Nat := 0xFF
  data : Option Snap := none
  serial : Nat := 0
  stackIds : List Nat := []
  links : List SavedLink := []
  deriving DecidableEq, Repr

/-- The test record of a part in order: KIND 1, FORMAT 1, WCOUNT 0, no DATA bytes modelled (log entry 38). -/
def NorSlot.test : NorSlot := { kind := 1, format := 1, length := 0, wcount := 0, crc := 0xD7F26A15, commit := 0x5A }

/-- The certificate chain of the test record (R688): the hash of the root certificate, the certificate of the product CA, and the
device certificate in the three parts between which the serial number and the identity key stand. -/
structure CertChain where
  rootHash : Bytes := List.replicate 48 0
  product : Bytes := []
  head : Bytes := []
  mid : Bytes := []
  tail : Bytes := []
  deriving DecidableEq, Repr

/-- What outlives every reset (R649, R669): the fuses (R677), the records of the NOR, wear counts. -/
structure Persist where
  keyDigests : List Nat := [1, 0, 0, 0]
  /-- The device secret, 32 bytes, for the key sequencer alone (R677). -/
  secret : Bytes := List.replicate 32 0
  revoked : Nat := 0
  rollback : Nat := 0
  serial : Nat := 0
  vendor : Nat := 0
  fuseBad : Option Nat := none
  grade : Nat := 0x30
  /-- The header, CRC and commit byte of the test record (R669); its contents are the three fields that follow. -/
  test : NorSlot := NorSlot.test
  /-- The floor plan of the test record (R42, R669). -/
  testPlan : Plan := {}
  voltageTable : Bytes := List.replicate 1824 80
  vstoreMv : Nat := 700
  chain : CertChain := {}
  trainA : NorSlot := {}
  trainB : NorSlot := {}
  surveyA : NorSlot := {}
  surveyB : NorSlot := {}
  history : List Bytes := []
  /-- Sectors of the history erased so far. -/
  histBase : Nat := 0
  historyQ : List ErrRec := []
  lastSnap : Nat := 0
  deriving DecidableEq, Repr

/-! ### Security and side-band (R677 to R711) -/

/-- The identity key, held in the key sequencer (R686): SK.seed, SK.prf, PK.seed and PK.root. -/
structure IdentityKey where
  skSeed : Bytes
  skPrf : Bytes
  pkSeed : Bytes
  pkRoot : Bytes
  deriving DecidableEq, Repr

/-- The private key of FIPS 205. -/
def IdentityKey.priv (k : IdentityKey) : Bytes := k.skSeed ++ k.skPrf ++ k.pkSeed ++ k.pkRoot

/-- An SPDM connection (R690 to R692): version negotiated, capabilities and algorithms done, the response being signed, the
message its signature covers and whether ResponseNotReady stands for it, the response kept ready, the three transcripts
(negotiation, certificates, measurements), the chunks gathered and still to be sent, the head of the CHUNK_SEND_ACK that the
next response goes in, the requester's DataTransferSize. -/
structure Spdm where
  version : Nat := 0
  caps : Bool := false
  algs : Bool := false
  signing : Option Bytes := none
  toSign : Bytes := []
  deferred : Bool := false
  ready : Option Bytes := none
  vca : Bytes := []
  certs : Bytes := []
  meas : Bytes := []
  ackHead : Bytes := []
  chunkIn : Bytes := []
  chunkInSeq : Nat := 0
  chunkOut : Option Bytes := none
  chunkSeq : Nat := 0
  token : Nat := 0
  transfer : Nat := 0
  deriving DecidableEq, Repr

/-- The SEC block (R695), the staging window (R680, R681) and the running image. -/
structure Sec where
  fwRunning : Bool := false
  stageRej : Bool := false
  rollbackRej : Bool := false
  revokeRej : Bool := false
  fuseFault : Bool := false
  fuseOp : Option (Nat × Nat) := none
  length : Nat := 0
  staged : Bool := false
  source : Bool := false
  window : Ram := []
  windowShut : Bool := false
  keyIndex : Nat := 0
  svn : Nat := 0
  version : Nat := 0
  digest : Nat := 0
  meas5 : Option Nat := none
  identity : Option IdentityKey := none
  signQ : List Nat := []
  mctp : Spdm := {}
  doe : Spdm := {}
  deriving DecidableEq, Repr

/-- A pace-history entry (R711). -/
structure PaceEnt where
  tick : Nat
  old : Nat
  new : Nat
  limit : Nat
  emerg : Bool
  index : Nat
  deriving DecidableEq, Repr

/-- The side-band port: I3C address and lengths, interrupts, MCTP, PLDM, the pace history (R696 to R711). -/
structure SideBand where
  dynAddr : Option Nat := none
  mwl : Nat := 256
  mrl : Nat := 256
  ibiEnable : Bool := false
  ibiLast : Sparse Nat := []
  ibiPend : Nat := 0
  eid : Nat := 0
  tid : Nat := 0
  evReceiver : Option (Nat × Nat) := none
  pace : List PaceEnt := []
  paceIndex : Nat := 0
  emergencies : Nat := 0
  alerts : Nat := 0
  /-- The last refresh of each sensor read over PLDM: its time and the reading (R702). -/
  readings : Sparse (Nat × Int) := []
  deriving DecidableEq, Repr

/-! ### Monitoring (R712 to R721) -/

/-- An event counter (R712 to R714). -/
structure Counter where
  sel : Nat := 0
  pend : Option Nat := none
  count : Nat := 0
  snap : Nat := 0
  hiHost : Nat := 0
  hiSb : Nat := 0
  deriving DecidableEq, Repr

/-- The MON block and the host trace ring; counters are keyed by the BAR0 offset of their MON_SEL. -/
structure Mon where
  selRej : Bool := false
  alarmVector : Nat := 0
  traceVector : Nat := 0
  trcBase : Nat := 0
  trcEnable : Bool := false
  trcSize : Nat := 4
  trcPi : Nat := 0
  trcCi : Nat := 0
  pend : Sparse Bool := []
  counters : Sparse Counter := []
  deriving DecidableEq, Repr

/-! ### The whole part -/

/-- The EB7. `pending` is the queue of commands; `freeCtr` counts the free values taken (log entry 2); `out` holds what
the part has sent. -/
structure State where
  pending : List Instr := []
  freeCtr : Nat := 0
  out : List Out := []
  clk : Clock := {}
  pins : Pins := {}
  rst : Rst := {}
  keep : Persist := {}
  sec : Sec := {}
  sb : SideBand := {}
  plan : Plan := {}
  svy : Svy := {}
  err : Err := {}
  mon : Mon := {}
  sht : Sht := {}
  hif : Hif := {}
  jobs : List Job := []
  clearing : List Clear := []
  tables : List TableSt := []
  cells : Sparse CellSt := []
  blocks : Sparse BlockSt := []
  regions : Sparse RegionSt := []
  columns : Sparse ColumnSt := []
  stk : Sparse StackSt := []
  /-- The plain stacks the plain range is interleaved over since the last TRAIN_MEM (R405, R407). -/
  plain : List Nat := [0, 1, 2, 3, 4, 5, 6, 7]
  syn : Syn := {}
  reds : List RedGroup := []
  ports : Sparse Port := []
  grp : Grp := {}
  pwr : Pwr := {}
  share : Share := {}
  thm : Thm := {}
  scratch : Word := 0
  /-- When each periodic event last took place, in ps (log entry 14). -/
  timers : Sparse Nat := []
  deriving DecidableEq, Repr

/-- The part right after reset: D0 released after power-on (R649, R650), every input good, D1 to D7 in reset,
RST_STATUS.RELEASED 0x01, every register at its reset value. -/
def State.reset : State :=
  { pins := { vaux := true, pg := 31, resetN := true, refclk := true, straps := 0 },
    rst := { released := 1 } }

end Sys2Proof.Machine
end

