-- ==== Sys2Proof/Machine/Ops.lean ====
section
/-! DEFINITION. Named operations over sparse maps, bytes, check codes, time, and the parts of the state. -/

namespace Sys2Proof.Machine

open Sys2Proof

/-! ### Sparse maps -/

section SparseMap
variable {α : Type}

/-- The value at a key: the default where none is listed. -/
def sget (d : α) : Sparse α → Nat → α
  | [], _ => d
  | (k, v) :: m, i => if i == k then v else sget d m i

/-- Removes a key. -/
def sdel : Sparse α → Nat → Sparse α
  | [], _ => []
  | (k, v) :: m, i => if i == k then sdel m i else (k, v) :: sdel m i

/-- Lists a value at a key. -/
def sput : Sparse α → Nat → α → Sparse α
  | [], i, w => [(i, w)]
  | (k, v) :: m, i, w =>
    if i < k then (i, w) :: (k, v) :: m else if i == k then (i, w) :: m else (k, v) :: sput m i w

/-- Sets the value at a key, keeping the canonical form. -/
def sset [DecidableEq α] (d : α) (m : Sparse α) (i : Nat) (v : α) : Sparse α :=
  if v = d then sdel m i else sput m i v

/-- Changes the value at a key. -/
def supd [DecidableEq α] (d : α) (m : Sparse α) (i : Nat) (f : α → α) : Sparse α :=
  sset d m i (f (sget d m i))

/-- Changes every listed value, keeping the canonical form. -/
def smap [DecidableEq α] (d : α) (f : α → α) (m : Sparse α) : Sparse α :=
  (m.map fun e => (e.1, f e.2)).filter fun e => decide (e.2 ≠ d)

/-- Every key is at least `lo`, keys rise strictly, no entry holds the default. -/
def swfFrom [DecidableEq α] (d : α) : Nat → Sparse α → Bool
  | _, [] => true
  | lo, (k, v) :: m => decide (lo ≤ k) && decide (v ≠ d) && swfFrom d (k + 1) m

/-- The canonical form of a sparse map. -/
def swf [DecidableEq α] (d : α) (m : Sparse α) : Bool := swfFrom d 0 m

/-- Keeps the entries whose key passes, in order. -/
def skeep (p : Nat → Bool) : Sparse α → Sparse α
  | [] => []
  | (k, v) :: m => if p k then (k, v) :: skeep p m else skeep p m

end SparseMap

/-! ### Bytes in a sparse store -/

/-- One byte; an unlisted byte reads 0. -/
def Ram.get (m : Ram) (a : Nat) : Byte := sget (0 : Byte) m a

/-- Writes one byte. -/
def Ram.set (m : Ram) (a : Nat) (b : Byte) : Ram := sset (0 : Byte) m a b

/-- The canonical form of a byte store. -/
def Ram.wf (m : Ram) : Bool := swf (0 : Byte) m

/-- `n` bytes from an offset. -/
def Ram.read (m : Ram) : Nat → Nat → Bytes
  | _, 0 => []
  | a, n + 1 => m.get a :: Ram.read m (a + 1) n

/-- Writes bytes from an offset. -/
def Ram.write (m : Ram) : Nat → Bytes → Ram
  | _, [] => m
  | a, b :: bs => Ram.write (m.set a b) (a + 1) bs

/-- Zeroes the bytes `lo` to `hi - 1`. -/
def Ram.clear (m : Ram) (lo hi : Nat) : Ram := skeep (fun k => decide (k < lo) || decide (hi ≤ k)) m

/-- `n` bytes of a byte string from an offset, zeros beyond its end. -/
def slice (bs : Bytes) (off n : Nat) : Bytes :=
  let t := (bs.drop off).take n
  t ++ List.replicate (n - t.length) 0

/-- The little-endian number in `n` bytes of a byte string. -/
def num (bs : Bytes) (off n : Nat) : Nat := leNat (slice bs off n)

/-- Cuts a byte string into pieces of `n` bytes; `fuel` bounds the pieces. -/
def chunks (n : Nat) : Nat → Bytes → List Bytes
  | 0, _ => []
  | f + 1, bs => if bs.isEmpty then [] else bs.take n :: chunks n f (bs.drop n)

/-- The numbers `a` to `a + n - 1`. -/
def upto (a n : Nat) : List Nat := (List.range n).map (a + ·)

/-- Set bits of a number below bit `w`. -/
def popcount : Nat → Nat → Nat
  | 0, _ => 0
  | w + 1, v => b2n (bit v w) + popcount w v

/-! ### Check codes -/

/-- One reflected step of CRC-32C over 8 bits (R317, R634). -/
def crcBits (poly : Nat) : Nat → Nat → Nat
  | 0, v => v
  | n + 1, v => crcBits poly n (if v % 2 == 1 then (v / 2) ^^^ poly else v / 2)

/-- CRC-32C, running value; the case split has the kernel evaluate it byte by byte. -/
def crcGo : Nat → Bytes → Nat
  | c, [] => c
  | 0, b :: bs => crcGo (crcBits 0x82F63B78 8 b.toNat) bs
  | c + 1, b :: bs => crcGo (crcBits 0x82F63B78 8 ((c + 1) ^^^ b.toNat)) bs

/-- CRC-32C of a byte string (R317). -/
def crc32c (bs : Bytes) : Nat := crcGo 0xFFFFFFFF bs ^^^ 0xFFFFFFFF

/-- Eight steps of the unreflected CRC-64 of R519. -/
def crc64Bits : Nat → Nat → Nat
  | 0, v => v
  | n + 1, v =>
    crc64Bits n (if bit v 63 then (v * 2 % 2 ^ 64) ^^^ 0x42F0E1EBA9EA3693 else v * 2 % 2 ^ 64)

/-- CRC-64, running value. -/
def crc64Go : Nat → Bytes → Nat
  | c, [] => c
  | c, b :: bs => crc64Go (crc64Bits 8 (c ^^^ (b.toNat * 2 ^ 56))) bs

/-- CRC-64 of a byte string (R519). -/
def crc64 (bs : Bytes) : Nat := crc64Go (2 ^ 64 - 1) bs ^^^ (2 ^ 64 - 1)

/-! ### Units and their names (R20 to R23, R34) -/

/-- Region index of a cell ID (R22). -/
def regionOf (c : Nat) : Nat := c / 256
/-- Block field of a cell ID. -/
def blockOf (c : Nat) : Nat := c / 16 % 16
/-- Cell code of a cell ID. -/
def codeOf (c : Nat) : Nat := c % 16
/-- Block index of a cell ID (R34). -/
def blockIndex (c : Nat) : Nat := regionOf c * 12 + blockOf c
/-- The ID of a block's cell 0, from the block index. -/
def blockId (b : Nat) : Nat := b / 12 * 256 + b % 12 * 16
/-- The 12 cells of a block index. -/
def blockCells (b : Nat) : List Nat := upto (blockId b) 12
/-- The cells of a region, in cell-index order. -/
def regionCells (r : Nat) : List Nat := (upto (r * 12) 12).flatMap blockCells
/-- The ID names a cell (R21). -/
def validCell (c : Nat) : Bool := decide (c < 8192) && decide (blockOf c < 12) && decide (codeOf c < 12)
/-- Column of a region index (R23). -/
def columnOf (r : Nat) : Nat := r % 16

/-- Cell kinds. -/
inductive Kind where
  | M | V | S
  deriving DecidableEq, Repr

/-- The kind that a cell code names (R20). -/
def kindOf (c : Nat) : Kind := if codeOf c < 8 then .M else if codeOf c < 11 then .V else .S

/-- Designed stash granules of a kind (R364). -/
def granules : Kind → Nat
  | .M => 24 | .V => 16 | .S => 8

/-! ### Parts of the state -/

/-- The index of the code word that holds a stack block's check word, beside those of addressable words (R409; log entry 10). -/
def checkWord (block : Nat) : Nat := 2 ^ 40 + block
/-- The stack-local block of a code word (R406, R409). -/
def blockOfWord (w : Nat) : Nat := if w < 2 ^ 40 then w / 128 else w - 2 ^ 40
/-- The stack-local address that names a code word in a record: a check word, which has none, is named by its block. -/
def addrOfWord (w : Nat) : Nat := if w < 2 ^ 40 then w * 32 else (w - 2 ^ 40) * 4096

/-- The physical cells of a job (R57, R204). -/
def jobCells (j : Job) : List Nat := j.image.cells.map (·.pcell)

namespace State

/-- A cell. -/
def cell (s : State) (c : Nat) : CellSt := sget {} s.cells c
/-- Changes a cell. -/
def updCell (s : State) (c : Nat) (f : CellSt → CellSt) : State := { s with cells := supd {} s.cells c f }
/-- Changes a cell's sequencer. -/
def updSeq (s : State) (c : Nat) (f : Seq → Seq) : State := s.updCell c fun x => { x with seq := f x.seq }
/-- Changes a cell's stash. -/
def updStash (s : State) (c : Nat) (f : Stash → Stash) : State := s.updCell c fun x => { x with stash := f x.stash }
/-- Changes a cell's plumb. -/
def updPlumb (s : State) (c : Nat) (f : Plumb → Plumb) : State := s.updCell c fun x => { x with plumb := f x.plumb }
/-- Changes a cell's matrix core. -/
def updMm (s : State) (c : Nat) (f : Matrix → Matrix) : State := s.updCell c fun x => { x with mm := f x.mm }
/-- Changes a cell's format and proof state. -/
def updMisc (s : State) (c : Nat) (f : Misc → Misc) : State := s.updCell c fun x => { x with misc := f x.misc }
/-- A block, by block index. -/
def block (s : State) (b : Nat) : BlockSt := sget {} s.blocks b
/-- Changes a block. -/
def updBlock (s : State) (b : Nat) (f : BlockSt → BlockSt) : State := { s with blocks := supd {} s.blocks b f }
/-- A region, by region index. -/
def region (s : State) (r : Nat) : RegionSt := sget {} s.regions r
/-- Changes a region. -/
def updRegion (s : State) (r : Nat) (f : RegionSt → RegionSt) : State := { s with regions := supd {} s.regions r f }
/-- Changes a region's power state. -/
def updPw (s : State) (r : Nat) (f : RegionPw → RegionPw) : State := s.updRegion r fun x => { x with pw := f x.pw }
/-- A column. -/
def column (s : State) (c : Nat) : ColumnSt := sget {} s.columns c
/-- Changes a column. -/
def updColumn (s : State) (c : Nat) (f : ColumnSt → ColumnSt) : State := { s with columns := supd {} s.columns c f }
/-- A memory stack. -/
def stack (s : State) (n : Nat) : StackSt := sget {} s.stk n
/-- Changes a memory stack. -/
def updStack (s : State) (n : Nat) (f : StackSt → StackSt) : State := { s with stk := supd {} s.stk n f }
/-- A traverse port. -/
def port (s : State) (n : Nat) : Port := sget {} s.ports n
/-- Changes a traverse port. -/
def updPort (s : State) (n : Nat) (f : Port → Port) : State := { s with ports := supd {} s.ports n f }
/-- A ring. -/
def ring (s : State) (n : Nat) : Ring := sget {} s.hif.rings n
/-- Changes a ring. -/
def updRing (s : State) (n : Nat) (f : Ring → Ring) : State :=
  { s with hif := { s.hif with rings := supd {} s.hif.rings n f } }
/-- What a cell has lost. -/
def cellPlan (s : State) (c : Nat) : CellPlan := sget {} s.plan.cells c
/-- Changes what a cell has lost. -/
def updCellPlan (s : State) (c : Nat) (f : CellPlan → CellPlan) : State :=
  { s with plan := { s.plan with cells := supd {} s.plan.cells c f } }
/-- What a block has lost. -/
def blockPlan (s : State) (b : Nat) : BlockPlan := sget {} s.plan.blocks b
/-- Changes what a block has lost. -/
def updBlockPlan (s : State) (b : Nat) (f : BlockPlan → BlockPlan) : State :=
  { s with plan := { s.plan with blocks := supd {} s.plan.blocks b f } }
/-- What a region has lost. -/
def regionPlan (s : State) (r : Nat) : RegionPlan := sget {} s.plan.regions r
/-- Changes what a region has lost. -/
def updRegionPlan (s : State) (r : Nat) (f : RegionPlan → RegionPlan) : State :=
  { s with plan := { s.plan with regions := supd {} s.plan.regions r f } }
/-- What a stack has lost. -/
def stackPlan (s : State) (n : Nat) : StackPlan := sget {} s.plan.stk n
/-- Changes what a stack has lost. -/
def updStackPlan (s : State) (n : Nat) (f : StackPlan → StackPlan) : State :=
  { s with plan := { s.plan with stk := supd {} s.plan.stk n f } }
/-- The active job of an ID. -/
def job? (s : State) (j : Nat) : Option Job := s.jobs.find? fun x => x.id == j
/-- Changes the active job of an ID. -/
def updJob (s : State) (j : Nat) (f : Job → Job) : State :=
  { s with jobs := s.jobs.map fun x => if x.id == j then f x else x }
/-- Sends something out of the part. -/
def emit (s : State) (o : Out) : State := { s with out := s.out ++ [o] }
/-- Takes a fresh free word and counts it (log entry 2). -/
def fresh (s : State) : Word × State := (Config.freeWord s.freeCtr, { s with freeCtr := s.freeCtr + 1 })

/-! ### Time (R14, R576) -/

/-- Core cycles elapse with SI time: the clock runs at 400 MHz + 25 MHz × pace, 1/40,000 cycle per ps and 16 + pace. A period that
the datum die lengthens counts as one cycle (R62, R566). -/
def advancePs (s : State) (dt : Nat) : State :=
  let p := 100 + s.share.datumPct
  let acc := s.clk.frac * p + dt * (16 + s.pwr.pace) * 100
  { s with clk := { ps := s.clk.ps + dt, cycles := s.clk.cycles + acc / (40000 * p), frac := acc % (40000 * p) / p } }

/-- Time passes until `t` ps, if that is still to come. -/
def untilPs (s : State) (t : Nat) : State := s.advancePs (t - s.clk.ps)

/-- Time passes until core cycle `n`, if that is still to come: the least time that holds that many cycles. -/
def untilCycle (s : State) (n : Nat) : State :=
  if n ≤ s.clk.cycles then s
  else s.advancePs (cdiv (((n - s.clk.cycles) * 40000 - s.clk.frac) * (100 + s.share.datumPct)) ((16 + s.pwr.pace) * 100))

/-- A periodic event: it takes place a period after the last of its kind, or now if that has passed. -/
def periodic (s : State) (key period : Nat) : State :=
  let s := s.untilPs (sget 0 s.timers key + period)
  { s with timers := sset 0 s.timers key s.clk.ps }

/-- Core cycles since the opening tick. -/
def sinceTick (s : State) : Nat := s.clk.cycles - s.sht.openCycle

/-! ### Fences (R26, R27, R32, R639) -/

/-- Fence reason of a region. -/
def regionReason (s : State) (r : Nat) : Nat := (s.regionPlan r).reason
/-- Fence reason of a block: its own, or 0x9 inside a fenced region. -/
def blockReason (s : State) (b : Nat) : Nat :=
  let own := (s.blockPlan b).reason
  if own != 0 then own else if s.regionReason (b / 12) != 0 then 9 else 0
/-- Fence reason of a cell: its own, or 0x9 inside a fenced block or region. -/
def cellReason (s : State) (c : Nat) : Nat :=
  let own := (s.cellPlan c).reason
  if own != 0 then own else if s.blockReason (blockIndex c) != 0 then 9 else 0
/-- The grade that the fuses hold (R2, R735). -/
def grade (s : State) : Config.Grade := Config.gradeOf s.keep.grade
/-- A good cell. -/
def goodCell (s : State) (c : Nat) : Bool := validCell c && s.cellReason c == 0
/-- Good cells of a kind in a block. -/
def goodInBlock (s : State) (k : Kind) (b : Nat) : Nat :=
  if s.blockReason b != 0 then 0
  else ((blockCells b).filter fun c => decide (kindOf c = k) && (s.cellPlan c).reason == 0).length
/-- Good cells of a kind in the device (R35). -/
def goodCells (s : State) (k : Kind) : Nat := ((List.range 384).map (s.goodInBlock k)).foldl (· + ·) 0
/-- Good granules of a cell, ascending (R365). -/
def goodGranules (s : State) (c : Nat) : List Nat :=
  (List.range (granules (kindOf c))).filter fun g => !bit (s.cellPlan c).granGone g
/-- Good accumulator banks of a cell, ascending (R189). -/
def goodBanks (s : State) (c : Nat) : List Nat :=
  if kindOf c = .M then (List.range 4).filter fun b => !bit (s.cellPlan c).banksGone b else []

/-- A job holds the cell, running or not. -/
def heldBy (s : State) (c : Nat) : List Nat :=
  (s.jobs.filter fun j => j.phase ≠ .claiming && (jobCells j).contains c).map (·.id)

/-- At least one job holds cells (R93). -/
def jobActive (s : State) : Bool := s.jobs.any fun j => decide (j.phase ≠ .claiming)

/-- A reset domain is released (R653). -/
def up (s : State) (n : Nat) : Bool := bit s.rst.released n

/-- A unit is under software reset: class and number as in `UnitReset` (R657). -/
def inReset (s : State) (cls num : Nat) : Bool := s.rst.units.any fun u => u.cls == cls && u.num == num

/-- Every cell counts as done: a cell that no job holds and a fenced one do at every moment (R66, R67; after a chip-fatal error, R622). -/
def allDone (s : State) : Bool := s.err.fatal || s.cells.all fun x => x.2.seq.done || x.2.seq.job == 0 || s.cellReason x.1 != 0

/-- Remembers the core cycle at which the last cell became done (R69). -/
def noteDone (s : State) : State :=
  if s.allDone then
    if s.sht.lastDone.isSome then s else { s with sht := { s.sht with lastDone := some s.clk.cycles } }
  else { s with sht := { s.sht with lastDone := none } }

end State

/-- Saturating 16-bit addition. -/
def sat16 (a b : Nat) : Nat := min 0xFFFF (a + b)
/-- Saturating 32-bit addition. -/
def sat32 (a b : Nat) : Nat := min 0xFFFFFFFF (a + b)
/-- Saturating 48-bit addition. -/
def sat48 (a b : Nat) : Nat := min 0xFFFFFFFFFFFF (a + b)
/-- Distance of two free-running 32-bit counts (R106). -/
def dist32 (a b : Nat) : Nat := (a + 2 ^ 32 - b) % 2 ^ 32
/-- A free-running 32-bit count. -/
def inc32 (a : Nat) : Nat := (a + 1) % 2 ^ 32

/-! ### Event counters (R712, R715) -/

/-- BAR0 offset of a region window (R724). -/
def regionBase (r : Nat) : Nat := 0x1000000 + r * 0x80000
/-- BAR0 offset of a block window. -/
def blockBase (b : Nat) : Nat := regionBase (b / 12) + 0x10000 + b % 12 * 0x4000
/-- BAR0 offset of a cell window. -/
def cellBase (c : Nat) : Nat := blockBase (blockIndex c) + codeOf c * 0x400

/-- The level of a counter from its BAR0 offset: 0 cell, 1 block, 2 region, 3 chip; none where no counter lies (R716). -/
def counterLevel (a : Nat) : Option Nat :=
  if 0x91000 ≤ a && a < 0x91400 && a % 16 == 0 then some 3
  else if a < 0x1000000 || 0x2000000 ≤ a then none
  else
    let o := a % 0x80000
    if o < 0x10000 then (if 0x900 ≤ o && o < 0xA00 && o % 16 == 0 then some 2 else none)
    else if 0x40000 ≤ o then none
    else
      let w := (o - 0x10000) % 0x4000
      if 0x3300 ≤ w && w < 0x3340 && w % 16 == 0 then some 1
      else if w < 0x3000 && 0x380 ≤ w % 0x400 && w % 0x400 < 0x3C0 && w % 16 == 0 then some 0 else none

/-- The counter at `a` counts a unit's events: the unit's windows are the cell's, block's and region's bases. -/
def counterCovers (a : Nat) (cell block region : Option Nat) : Bool :=
  match counterLevel a with
  | some 3 => true
  | some 2 => region.any fun r => regionBase r ≤ a && a < regionBase r + 0x10000
  | some 1 => block.any fun b => blockBase b ≤ a && a < blockBase b + 0x4000
  | some _ => cell.any fun c => cellBase c ≤ a && a < cellBase c + 0x400
  | none => false

/-- `n` events of a code at a unit (R712): every counter that selects it and covers the unit counts them. -/
def State.count (s : State) (code : Nat) (cell block region : Option Nat) (n : Nat) : State :=
  { s with mon := { s.mon with counters := s.mon.counters.map fun x =>
      if x.2.sel == code && code != 0 && counterCovers x.1 cell block region
      then (x.1, { x.2 with count := sat48 x.2.count n }) else x } }

/-- `n` events at a cell. -/
def State.countCell (s : State) (code c n : Nat) : State :=
  s.count code (some c) (some (blockIndex c)) (some (regionOf c)) n
/-- `n` events at a region. -/
def State.countRegion (s : State) (code r n : Nat) : State := s.count code none none (some r) n
/-- `n` events of the chip. -/
def State.countChip (s : State) (code n : Nat) : State := s.count code none none none n

/-! ### Reachability (R722, R724, R731) -/

/-- The contour die of a region is released (R653). -/
def regionUp (s : State) (r : Nat) : Bool := decide (r < 32) && s.up (if r < 16 then 5 else 6)

/-- What an address of BAR0 reaches. -/
inductive Reach where
  /-- Reads as zero; a write is ignored. -/
  | dead
  /-- Reads as zero, setting GATED_READ; a write is applied. -/
  | gated
  /-- Reads and writes are normal. -/
  | open_
  deriving DecidableEq, Repr

/-- A datum-die block by its number in R722 (address / 64 KiB): released and not in software reset. -/
def datumReach (s : State) (k : Nat) : Bool :=
  match k with
  | 0 => s.up 0 | 1 => s.up 0 | 2 => s.up 0
  | 3 => s.up 0 && !s.inReset 0 8
  | 4 => s.up 0 && !s.inReset 0 7
  | 5 => s.up 2 && !s.inReset 0 0
  | 6 => s.up 2 && !s.inReset 0 1
  | 7 => s.up 0 && !s.inReset 0 2
  | 8 => s.up 0 && !s.inReset 0 3
  | 9 => s.up 0 && !s.inReset 0 4
  | 10 => s.up 2 && !s.inReset 0 5
  | 11 => s.up 2 && !s.inReset 0 6
  | _ => false

/-- A block or cell window of region `r`: offset `o` in the region window, 0x1_0000 or more. -/
def windowReach (s : State) (r o : Nat) : Reach :=
  let b := (o - 0x10000) / 0x4000
  let w := (o - 0x10000) % 0x4000
  let code := w / 0x400
  let c := blockId (r * 12 + b) + code
  if 12 ≤ b || s.inReset 5 r || s.inReset 6 (r * 12 + b) then .dead
  else if code < 12 && (s.cellReason c != 0 || s.inReset 7 c) then .dead
  else if s.blockReason (r * 12 + b) != 0 then .dead
  else if (s.region r).pw.gated then .gated else .open_

/-- What an address reaches (R731). A region's reset covers its error controller and trace buffer, of its own registers. -/
def reach (s : State) (addr : Nat) : Reach :=
  if addr < 0xC0000 then (if datumReach s (addr / 0x10000) then .open_ else .dead)
  else if 0x100000 ≤ addr && addr < 0x1C0000 then
    (if s.up 2 && !s.inReset 1 ((addr - 0x100000) / 0x10000) then .open_ else .dead)
  else if 0x200000 ≤ addr && addr < 0x280000 then
    (if s.up 7 && !s.inReset 2 ((addr - 0x200000) / 0x10000) then .open_ else .dead)
  else if 0x1000000 ≤ addr && addr < 0x2000000 then
    let r := (addr - 0x1000000) / 0x80000
    let o := addr % 0x80000
    if !regionUp s r then .dead
    else if o < 0x10000 then (if s.inReset 5 r && (o / 0x100 == 7 || o / 0x100 == 0xA) then .dead else .open_)
    else windowReach s r o
  else .dead

end Sys2Proof.Machine
end

