-- ==== Sys2Proof/Machine/Record.lean ====
section
/-! DEFINITION. The bytes of the survey record (R33 to R41). -/

namespace Sys2Proof.Machine

open Sys2Proof

/-! ### Layout (R33 to R41) -/

/-- A state with nothing but a floor plan: the plan of a record is read through the operations on states. -/
def planState (p : Plan) : State := { plan := p }

/-- Sum over a list. -/
def total {α : Type} (l : List α) (f : α → Nat) : Nat := l.foldl (fun n x => n + f x) 0

/-- Good cells among a list. -/
def goodOf (t : State) (cs : List Nat) : List Nat := cs.filter t.goodCell

/-- Usable stash of good cells in KiB. -/
def stashKib (t : State) (good : List Nat) : Nat := total good fun c => 16 * (t.goodGranules c).length

/-- Good cells at half width. -/
def halfPlumbs (t : State) (good : List Nat) : Nat :=
  total good fun c => b2n ((t.cellPlan c).eastGone || (t.cellPlan c).westGone)

/-- Good cells of a kind. -/
def ofKind (good : List Nat) (k : Kind) : Nat := (good.filter fun c => decide (kindOf c = k)).length

/-- A mask of the positions of a list whose entry passes. -/
def maskOf (l : List Bool) : Nat := l.zipIdx.foldl (fun m e => m + b2n e.1 * 2 ^ e.2) 0

/-- A region entry (R36). -/
def regionEntry (t : State) (r : Nat) : Bytes :=
  let p := t.regionPlan r
  let good := goodOf t (regionCells r)
  let st := if p.reason != 0 then 2 else if p.capped then 1 else 0
  leBytes 4 (st + p.reason * 16 + maskOf ((upto (r * 12) 12).map fun b => t.blockReason b == 0) * 2 ^ 8 +
    p.sensSuspect * 2 ^ 20 + p.storeSuspect * 2 ^ 24) ++
  leBytes 2 (ofKind good .M) ++ leBytes 1 (ofKind good .V) ++ leBytes 1 (ofKind good .S) ++
  leBytes 4 (stashKib t good) ++ leBytes 2 (halfPlumbs t good) ++ leBytes 2 0

/-- A block entry (R37). -/
def blockEntry (t : State) (b : Nat) : Bytes :=
  let p := t.blockPlan b
  let reason := t.blockReason b
  let failed := popcount 8 p.trimFailed
  let st := if reason != 0 then 2 else if failed != 0 then 1 else 0
  leBytes 4 (st + reason * 16 + maskOf ((blockCells b).map t.goodCell) * 2 ^ 8 + failed * 2 ^ 20)

/-- A cell entry (R38). Of a fenced cell the spec does not say what the plumb, bank and granule fields read: the model gives what
is left of them (DESIGN CHOICE, log entry 38). -/
def cellEntry (t : State) (c : Nat) : Bytes :=
  let p := t.cellPlan c
  let reason := t.cellReason c
  let st := if reason != 0 then 2 else if p.eastGone || p.westGone then 1 else 0
  leBytes 4 (st + b2n (!p.eastGone) * 4 + b2n (!p.westGone) * 8 + reason * 16 + maskOf ((List.range 4).map fun k =>
      (t.goodBanks c).contains k) * 2 ^ 8 + (16 - p.eastSpares.length) * 2 ^ 12 + (16 - p.westSpares.length) * 2 ^ 17 + (t.goodGranules c).length * 2 ^ 22)

/-- The header (R35). -/
def headerBytes (x : Snap) (t : State) : Bytes :=
  let good := goodOf t ((List.range 384).flatMap blockCells)
  let m := ofKind good .M
  let g := Config.gradeOf x.grade
  leBytes 2 1 ++ leBytes 2 64 ++ leBytes 4 x.generation ++ leBytes 8 x.tick ++ leBytes 4 20808 ++
  leBytes 2 m ++ leBytes 2 (ofKind good .V) ++ leBytes 2 (ofKind good .S) ++
  leBytes 2 (total (List.range 384) fun b => b2n (t.blockReason b == 0)) ++
  leBytes 1 (total (List.range 32) fun r => b2n (t.regionReason r == 0)) ++
  leBytes 1 (b2n (m < g.minGoodM) + 2 * b2n x.fromTest) ++ leBytes 1 g.code ++ leBytes 1 0 ++
  leBytes 4 (stashKib t good) ++ leBytes 2 (halfPlumbs t good) ++ leBytes 2 0 ++ leBytes 4 (total x.memMib id) ++
  leBytes 2 (total x.plotUnits id) ++ leBytes 2 0 ++ leBytes 2 0x40 ++ leBytes 2 0x240 ++ leBytes 2 0x840 ++ leBytes 2 0x5040 ++
  leBytes 2 0x5100 ++ leBytes 2 0x5140 ++ leBytes 4 0

/-- The survey record of 20,808 bytes (R33). -/
def snapBytes (x : Snap) : Bytes :=
  let t := planState x.plan
  let b := headerBytes x t ++ (List.range 32).flatMap (regionEntry t) ++ (List.range 384).flatMap (blockEntry t) ++
    ((List.range 384).flatMap blockCells).flatMap (cellEntry t) ++
    (List.range 12).flatMap (fun n => leBytes 4 (n + 16 * b2n (8 ≤ n)) ++ leBytes 4 (x.memMib.getD n 0) ++
      leBytes 2 (x.plotUnits.getD n 0) ++ leBytes 6 0) ++
    (List.range 8).flatMap fun p => leBytes 4 (p + x.lanes.getD p 0 * 2 ^ 8) ++ leBytes 4 0
  b ++ leBytes 4 (crc32c b) ++ leBytes 4 0

end Sys2Proof.Machine
end

