-- ==== Sys2Proof/Machine/Errors.lean ====
section
/-! DEFINITION. Raising an error (R620 to R647), fences (R26 to R32, R639), survey rebuilds (R45 to R48), interrupts. -/

namespace Sys2Proof.Machine

open Sys2Proof

/-! ### MSI-X (R148) -/

/-- Sends a vector, or sets its pending bit while it is masked. The host is taken to have enabled MSI-X (log entry 8); a vector due
while the link is down is lost with its pending count (DESIGN CHOICE; log entry 40). -/
def sendVector (s : State) (v : Nat) : State :=
  let e : Msix := sget {} s.hif.msix v
  let s := { s with hif := { s.hif with mods := supd {} s.hif.mods v fun m => { m with pending := 0, oldest := 0 } } }
  if !s.hif.linkUp then s
  else if e.masked then
    { s with hif := { s.hif with msix := supd {} s.hif.msix v fun x => { x with pend := true } } }
  else s.emit (.msix v)

/-- One more event pending on a vector's moderation register: it is sent when COUNT is reached (R148). -/
def moderate (s : State) (v : Nat) : State :=
  let m : Mod := sget {} s.hif.mods v
  let n := m.pending + 1
  if max 1 m.count ≤ n then sendVector s v
  else { s with hif := { s.hif with mods := supd {} s.hif.mods v fun x =>
      { x with pending := n, oldest := if m.pending == 0 then s.clk.ps else m.oldest } } }

/-! ### IBIs (R699) -/

/-- An event of an IBI kind (1: 0xE1, 2: 0xE2, 0: an MCTP message waits): sent, or held for the kind's 1 ms hold-off. -/
def raiseIbi (s : State) (kind : Nat) : State :=
  if !s.sb.ibiEnable || s.sb.dynAddr.isNone then s
  else
    let last : Nat := sget 0 s.sb.ibiLast kind
    if last ≠ 0 && s.clk.ps < last + 1000000000 then
      { s with sb := { s.sb with ibiPend := s.sb.ibiPend ||| 2 ^ kind } }
    else ({ s with sb := { s.sb with ibiLast := sset 0 s.sb.ibiLast kind (max 1 s.clk.ps) } }).emit (.ibi kind)

/-! ### Alarms (R641, R708, R709) -/

/-- The fence records that set bit r of their region (R708). -/
def fenceCodes : List Nat := [0x0202, 0x0402, 0x0609, 0x6002, 0x2001]

/-- The alarm codes besides F records (R641). -/
def alarmCodes : List Nat :=
  fenceCodes ++ [0x3003, 0x6003, 0x6101, 0x6102, 0x6103, 0x6105, 0x6106, 0x5006, 0x6004, 0x4009, 0x4013]

/-- Codes carried on the side-band only (R640). -/
def sbOnlyCodes : List Nat := [0x6005, 0x6006, 0x6007, 0x6103]

/-- The alarm bits of a record (R708): its own bit, then that of an F record's range. -/
def alarmBits (code sev unit : Nat) (det : List Nat) : List Nat :=
  let d0 := det.getD 0 0
  let d1 := det.getD 1 0
  let own : List Nat :=
    if fenceCodes.contains code then [regionOf unit]
    else if code == 0x6003 then [32 + d0]
    else if code == 0x6101 then
      (if d0 == 1 || d0 == 3 then [64 + d1] else if d0 == 2 then [112 + d1] else [128 + d1])
    else if code == 0x6102 then [96 + d0]
    else if code == 0x4009 then [136 + d0]
    else if code == 0x4013 then [148 + (d0 - 8)]
    else if code == 0x3003 then [152] else if code == 0x6103 then [153] else if code == 0x6105 then [154]
    else if code == 0x6106 then [155] else if code == 0x6004 then [156] else if code == 0x5006 then [157]
    else if code == 0x3001 then [169] else []
  own ++ (if sev == 3 then [160 + code / 4096] else [])

/-- An occurrence at one alarm bit: count, source, host pending bit with its vector, and the 0xE1 IBI (R709, R699). -/
def alarmOne (code unit job : Nat) (s : State) (b : Nat) : State :=
  let a : Alarm := sget {} s.err.alarms b
  let al := sset {} s.err.alarms b ⟨true, sat16 a.count 1, code, unit, job⟩
  let s := { s with err := { s.err with alarms := al } }
  let s := if a.set then s else raiseIbi s 1
  if b == 153 then s
  else if sget false s.mon.pend b then s
  else sendVector { s with mon := { s.mon with pend := sset false s.mon.pend b true } } s.mon.alarmVector

/-! ### Queues (R626 to R629, R643) -/

/-- A counter of the ERR_DROP group gains `n`. -/
def dropped (s : State) (k n : Nat) : State :=
  { s with err := { s.err with drops := supd 0 s.err.drops k fun v => sat32 v n } }

/-- Removes the first record that passes. -/
def dropFirst (p : ErrRec → Bool) : List ErrRec → List ErrRec
  | [] => []
  | r :: rs => if p r then rs else r :: dropFirst p rs

/-- What a full queue does with a record: overwrite the oldest C entry, discard a C record, or
hold it back (`none`) (R628). The flag says a C record was lost. -/
def pushFull (cap : Nat) (q : List ErrRec) (r : ErrRec) : Option (List ErrRec × Bool) :=
  if q.length < cap then some (q ++ [r], false)
  else if r.sev == 0 then
    if q.any (·.sev == 0) then some (dropFirst (·.sev == 0) q ++ [r], true) else some (q, true)
  else none

/-- The 64 bytes of a record (R623); `phase` is the lap marker of the host ring. -/
def recBytes (r : ErrRec) (phase : Bool) : Bytes :=
  leBytes 4 r.seq ++
  leBytes 4 (r.code + r.sev * 2 ^ 16 + b2n r.nested * 2 ^ 18 + b2n r.alarm * 2 ^ 19 + r.level * 2 ^ 20 + b2n r.sbOnly * 2 ^ 22 +
    b2n r.instr * 2 ^ 23 + b2n phase * 2 ^ 31) ++
  leBytes 2 r.unit ++ leBytes 2 r.job ++ leBytes 4 r.cycle ++ leBytes 8 r.tick ++
  (List.range 10).flatMap fun k => leBytes 4 (r.det.getD k 0)

/-- A record enters the side-band FIFO, over the oldest of a full one; an empty one then holds a record (R643, R699). -/
def pushSideBand (s : State) (r : ErrRec) : State :=
  let q := s.err.sbFifo
  let s := { s with err := { s.err with sbFifo := (q ++ [r]).drop (q.length - 63) } }
  let s := if 64 ≤ q.length then dropped s 5 1 else s
  if q.isEmpty then raiseIbi s 2 else s

/-- The record has a side-band copy (R640). -/
def hasSideBand (r : ErrRec) : Bool := r.sev != 0 || r.alarm || r.sbOnly || r.code == 0x3002

/-- A C record of the staging FIFO that an arriving one may overwrite (R643, R644). -/
def mayOverwrite (x : ErrRec) : Bool := x.sev == 0 && x.code != 0x3002

/-- The error of a record ended a job (R631): the one it names, or one besides. -/
def ErrRec.ended (r : ErrRec) (job : Nat) : Bool := (r.ends && r.job == job) || r.also.contains job

/-- A record enters the staging FIFO and takes its SEQ (R625, R631, R640, R643), as does its entry due for the history (R672): its
side-band copy is made, and its host copy
waits for the ring, or is discarded at once while the ring is off. `none` where the FIFO holds it back. -/
def stage (s : State) (r : ErrRec) : Option State :=
  let full := decide (512 ≤ s.err.staging.length)
  if full && !s.err.staging.any mayOverwrite then none
  else
    let seq := s.err.nextSeq
    let history := s.keep.historyQ.map fun x => if x = r then { x with seq := seq } else x
    let r := { r with seq := seq }
    let jobs := s.jobs.map fun j =>
      if r.ended j.id then { j with ending := j.ending.map fun x => if x.seq == 0 then { x with seq := seq } else x } else j
    let named := s.hif.descs.map fun d =>
      if r.desc = some (d.ring, d.count) && d.failSeq == 0 then { d with failSeq := seq } else d
    let descs := named.map fun d =>
      match d.phase with
      | .finished st lo 0 => if num d.raw 0 1 == 1 && r.ended (num d.raw 4 2) && st == 0x42
          then { d with phase := .finished st lo seq } else d
      | _ => d
    let s := { s with err := { s.err with nextSeq := if seq == 0xFFFFFFFF then 1 else seq + 1 }, jobs := jobs,
                      hif := { s.hif with descs := descs }, keep := { s.keep with historyQ := history } }
    let s := if hasSideBand r then pushSideBand s r else s
    let s := if full then dropped { s with err := { s.err with staging := dropFirst mayOverwrite s.err.staging } } 3 1 else s
    if r.sbOnly then some s
    else if !s.err.enable then some (dropped s 4 1)
    else some { s with err := { s.err with staging := s.err.staging ++ [r] } }

/-- The host copies that wait are discarded: the host ring goes off (R640). -/
def discardStaged (s : State) : State :=
  dropped { s with err := { s.err with enable := false, staging := [] } } 4 s.err.staging.length

/-- The queue of a level on the unit's path: chip, region, block; a cell holds one record (R626). -/
def queueOf (s : State) (lvl unit : Nat) : List ErrRec :=
  match lvl with
  | 3 => s.err.chipQ
  | 2 => sget [] s.err.regionQ (regionOf unit)
  | 1 => sget [] s.err.blockQ (blockIndex unit)
  | _ => sget [] s.err.cellHeld unit

/-- Replaces a queue. -/
def setQueue (s : State) (lvl unit : Nat) (q : List ErrRec) : State :=
  match lvl with
  | 3 => { s with err := { s.err with chipQ := q } }
  | 2 => { s with err := { s.err with regionQ := sset [] s.err.regionQ (regionOf unit) q } }
  | 1 => { s with err := { s.err with blockQ := sset [] s.err.blockQ (blockIndex unit) q } }
  | _ => { s with err := { s.err with cellHeld := sset [] s.err.cellHeld unit q } }

/-- A C record lost at a queue counts in ERR_DROP_QUEUE and the queue's OVERWRITTEN field (R628, R647). -/
def lostAt (s : State) (lvl unit : Nat) : State :=
  let s := dropped s 2 1
  match lvl with
  | 2 => { s with err := { s.err with overRegion := supd 0 s.err.overRegion (regionOf unit) fun v => sat16 v 1 } }
  | 1 => { s with err := { s.err with overBlock := supd 0 s.err.overBlock (blockIndex unit) fun v => sat16 v 1 } }
  | _ => s

/-- Places a record in the queue of a level; `none` where it must wait below (R628). -/
def enqueue (s : State) (lvl unit : Nat) (r : ErrRec) : Option State :=
  match pushFull (if lvl == 3 then 64 else if lvl == 0 then 1 else 8) (queueOf s lvl unit) r with
  | some (q, lost) => some (let s := setQueue s lvl unit q; if lost then lostAt s lvl unit else s)
  | none => none

/-- A record goes up as far as there is room: staging FIFO, chip, region, block queue, the one record that a cell's controller holds
(R626), or it waits at its unit (R628). -/
def place (s : State) (r : ErrRec) : State :=
  let lvl := r.level
  let try1 (o : Option State) (k : Unit → State) : State := match o with | some t => t | none => k ()
  let direct := if s.err.chipQ.isEmpty && (lvl == 3 || (queueOf s 2 r.unit).isEmpty)
      && (2 ≤ lvl || (queueOf s 1 r.unit).isEmpty) then stage s r else none
  try1 direct fun _ =>
  try1 (if (lvl == 3 || (queueOf s 2 r.unit).isEmpty) && (2 ≤ lvl || (queueOf s 1 r.unit).isEmpty)
      then enqueue s 3 r.unit r else none) fun _ =>
  let wait := { s with err := { s.err with chipWait := s.err.chipWait ++ [r] } }
  if lvl == 3 then wait
  else try1 (if 2 ≤ lvl || (queueOf s 1 r.unit).isEmpty then enqueue s 2 r.unit r else none) fun _ =>
  if lvl == 2 then wait
  else try1 (enqueue s 1 r.unit r) fun _ =>
  if lvl == 1 then wait else try1 (enqueue s 0 r.unit r) fun _ => wait

/-- A unit below the chip whose record waits holds its own work: a cell its issue, a block its crossbar, a region its router (R629). -/
def heldAt (s : State) (lvl unit : Nat) : Bool :=
  (lvl == 0 && !(queueOf s 0 unit).isEmpty) || s.err.chipWait.any fun r => r.level == lvl && r.unit == unit

/-- A chip-level unit whose record waits holds its own work (R629). -/
def unitHeld (s : State) (cls n : Nat) : Bool := heldAt s 3 (cls * 256 + n)

/-! ### Ends of jobs (R194, R758) -/

/-- The members of a reduction group, in fold order, as virtual cell IDs (R352, R354). -/
def groupMembers (header : Bytes) : List Nat :=
  let w := num header 4 4
  (List.range 32).flatMap fun r => (List.range 12).flatMap fun b => (List.range 11).filterMap fun c =>
    if bit (num header 0 4) r && bit w b && bit w (16 + c) then some (r * 256 + b * 16 + c) else none

/-- Every member has issued its RD.SUM. -/
def groupComplete (g : RedGroup) : Bool := (groupMembers g.header).all fun m => g.parts.any fun p => p.vcell == m

/-- A flight entry that does not survive the end of its job: an RD.SUM whose members have not all issued; it is dropped
with its contribution (R758). -/
def dropsAtEnd (reds : List RedGroup) (job : Nat) : Flight → Bool
  | .sum d o t => reds.any fun g => g.job == job && g.dest == d && g.off == o && g.tag == t && !groupComplete g
  | _ => false

/-- A cell stops issuing: a CA.WAIT and an incomplete RD.SUM end at once; issued operations run on (R758). -/
def haltCell (s : State) (c : Nat) : State :=
  let q := (s.cell c).seq
  let fl := q.flight.filter fun f => !dropsAtEnd s.reds q.job f
  s.updSeq c fun q => { q with halted := true, wait := none, flight := fl, done := fl.isEmpty || q.done, doneAt := if q.done then q.doneAt else s.clk.cycles }

/-- Sets ABORT bits (R529): once the member is done, bits not yet advertised wait for the next sheet. -/
def setAbort (s : State) (mask : Nat) : State :=
  if s.grp.level == 14 then { s with grp := { s.grp with abort := s.grp.abort ||| mask } }
  else { s with grp := { s.grp with ownAbort := s.grp.ownAbort ||| (mask ^^^ (mask &&& s.grp.abort)) } }

/-- A job that spans the pace group or runs mirrored, and so has a group index (R538, R541; log entry 53). -/
def grouped (j : Job) : Bool := j.params.group || j.params.twin

/-- A job's end becomes known: its cells stop issuing; the tick ends it (R194, R758). A second cause changes nothing. A group job that
ends by an X error advertises the abort as well (DESIGN CHOICE; R78 names J errors; log entry 39). -/
def endJob (s : State) (j status : Nat) : State :=
  match s.job? j with
  | none => s
  | some x =>
    if x.ending.isSome then s
    else
      let s := s.updJob j fun y => { y with ending := some ⟨status, 0⟩ }
      let s := if x.phase = .running then (jobCells x).foldl haltCell s else s
      let s := { s with reds := s.reds.filter fun g => g.job != j || groupComplete g }
      let s := if grouped x && status != 0 then setAbort s (2 ^ (j % 4)) else s
      s.noteDone

/-- Ends every job that holds a unit's cells, under R30. -/
def endHolders (s : State) (cs : List Nat) : State :=
  (s.jobs.filter fun j => j.phase ≠ .claiming && cs.any (jobCells j).contains).foldl (fun s j => endJob s j.id 0x42) s

/-- The first job that holds one of these cells: a fence record names it, since the fence ends it (R30, R631); further jobs take the
SEQ of the same record (DESIGN CHOICE; log entry 38). -/
def holderOf (s : State) (cs : List Nat) : Nat :=
  ((s.jobs.find? fun j => decide (j.phase ≠ .claiming) && cs.any (jobCells j).contains).map (·.id)).getD 0

/-- The cells that a cell's fence takes: an S cell takes its block with it (R27, R32). -/
def fencedWith (c : Nat) : List Nat := if kindOf c = .S then blockCells (blockIndex c) else [c]

/-- The cells of a unit of a level (R621). -/
def unitCells (level unit : Nat) : List Nat :=
  match level with
  | 0 => [unit]
  | 1 => blockCells (blockIndex unit)
  | 2 => regionCells (regionOf unit)
  | _ => []

/-- Chip-fatal: every cell stops issuing, fetch is disabled, every job ends (R622). -/
def chipFatal (s : State) : State :=
  let s := { s with err := { s.err with fatal := true }, hif := { s.hif with fetchEn := false } }
  s.jobs.foldl (fun s j => endJob s j.id 0x42) s

/-! ### Raising (R620 to R628, R641, R642) -/

/-- An error to raise. `ends` says that it ends the job it names although its severity is X (R30); `hist` that it goes to the
error history (R672); `chain` that it belongs to an occurrence that has raised an error in the same core cycle; `cells` are those that
the fence it reports takes, whose jobs it ends; `desc` names the descriptor whose access failed. -/
structure Ev where
  code : Nat
  sev : Nat
  level : Nat
  unit : Nat
  job : Nat := 0
  det : List Nat := []
  instr : Bool := false
  ends : Bool := false
  hist : Bool := false
  chain : Bool := false
  cells : List Nat := []
  desc : Option (Nat × Nat) := none
  deriving DecidableEq, Repr

/-- Handling window of a controller (R626; the whole window, log entry 9). -/
def window (lvl : Nat) : Nat := if lvl == 0 then 4 else if lvl == 1 then 32 else if lvl == 2 then 64 else 1024
/-- Log limiter slots of a controller (R626). -/
def limiterSlots (lvl : Nat) : Nat := if lvl == 0 then 4 else if lvl == 1 || lvl == 2 then 16 else 64

/-- The unit whose controller handles a record: every chip-level unit shares the chip controller (R626). -/
def controllerOf (lvl unit : Nat) : Nat := if lvl == 3 then 0 else unit

/-- A unit that is fenced raises no further records (R639). -/
def silent (s : State) (lvl unit : Nat) : Bool :=
  if lvl == 0 then s.cellReason unit != 0 else if lvl == 1 then s.blockReason (blockIndex unit) != 0
  else if lvl == 2 then s.regionReason (regionOf unit) != 0 else unit / 256 == 1 && (s.stackPlan (unit % 256)).fenced

/-- A J or F record that names a unit of a region freezes a capture there (R718). -/
def freezeTrace (s : State) (lvl unit : Nat) : State :=
  if lvl == 3 then s
  else s.updRegion (regionOf unit) fun r => if r.trcCtrl % 4 == 2 then { r with trcFrozen := true } else r

/-- The codes that are compatibility reset sources, with their unit class (R661). -/
def compatUnit (code unit : Nat) : Option (Nat × Nat) :=
  if code == 0x0205 || code == 0x0207 then some (7, unit)
  else if code == 0x1001 then some (6, blockIndex unit)
  else if code == 0x2002 then some (5, regionOf unit) else none

/-- The error still being handled that makes this one a second error (R626, R627). What one occurrence raises in its core
cycle, against several jobs or as its consequence (`chain`), or beside a pair's mark, is one error (log entry 13). -/
def firstError (s : State) (e : Ev) : Option Handling :=
  let now := s.clk.cycles
  s.err.handling.find? fun h => h.level == e.level && h.unit == e.unit && now < h.till &&
    !(h.till == now + window e.level && (e.chain || h.code == 0x4008))

/-- Raises an error whose log, if it is one, was admitted: escalation, action, alarm, record. -/
def raiseAdmitted (s : State) (e : Ev) : State :=
  let now := s.clk.cycles
  let open? := firstError s e
  let sev := if open?.isSome then min 3 (e.sev + 1) else e.sev
  let nested := open?.isSome
  let det := if nested then (e.det ++ List.replicate (10 - e.det.length) 0).take 9 ++ [(open?.map (·.code)).getD 0]
    else e.det
  -- a C log that becomes X ends whatever job holds the unit, as a fence would (R627)
  let cs := if e.sev == 0 && sev == 1 then unitCells e.level e.unit else e.cells
  let job := if e.job == 0 then holderOf s cs else e.job
  let ends := job != 0 && (e.ends || sev == 2 || sev == 3 || (e.sev == 0 && sev == 1))
  let alarm := alarmCodes.contains e.code || sev == 3
  let bitsL := if alarm then alarmBits e.code sev e.unit det else []
  let a : Alarm := sget {} s.err.alarms (bitsL.headD 0)
  let coalesced := alarm && a.set && a.srcCode == e.code && a.srcUnit == e.unit && a.srcJob == job
  let live := s.err.handling.filter fun h => now < h.till
  let mine := if coalesced then [] else [⟨e.level, e.unit, e.code, now + window e.level⟩]
  let going := (s.jobs.filter fun j => j.ending.isNone && j.id != job).map (·.id)
  let s := { s with err := { s.err with handling := live ++ mine } }
  let s := endHolders (if ends then endJob s job 0x42 else s) cs
  let s := if sev == 3 then chipFatal s else s
  let also := going.filter fun n => (s.job? n).any (·.ending.isSome)
  let s := if 2 ≤ sev then freezeTrace s e.level e.unit else s
  let s := match compatUnit e.code e.unit with
    | some (cls, n) => if s.rst.compat && s.rst.ready then
        { s with rst := { s.rst with compatWait := s.rst.compatWait ++ [⟨cls, n, e.code, sev == 3⟩] } } else s
    | none => s
  let s := bitsL.foldl (alarmOne e.code e.unit job) s
  let r : ErrRec :=
    { code := e.code, sev, nested, alarm, level := e.level, sbOnly := sbOnlyCodes.contains e.code, instr := e.instr,
      unit := e.unit, job, cycle := s.sinceTick, tick := s.sht.tick, det, ends, also, desc := e.desc }
  let s := if e.hist || sev == 3 then { s with keep := { s.keep with historyQ := s.keep.historyQ ++ [r] } } else s
  if coalesced then dropped s 7 1 else place s r

/-- A C log that the limiter discards. What goes to the error history goes there all the same (R423, R672). -/
def discardLog (s : State) (k : Nat) (e : Ev) : State :=
  let s := dropped s k 1
  if !e.hist then s
  else
    let r : ErrRec := { code := e.code, level := e.level, unit := e.unit, job := e.job, cycle := s.sinceTick, tick := s.sht.tick,
                        det := e.det }
    { s with keep := { s.keep with historyQ := s.keep.historyQ ++ [r] } }

/-- Raises an error: a fenced unit raises none, but for a router, which stays in the mesh (R27, R341); a C log passes the limiter
first (R642), an admitted error is handled. -/
def raise (s : State) (e : Ev) : State :=
  if silent s e.level e.unit && e.code != 0x2203 then s
  else if e.sev == 0 && !alarmCodes.contains e.code && e.code != 0x3002 then
    let now := s.clk.cycles
    let ctl := controllerOf e.level e.unit
    let live := s.err.slots.filter fun x => now < x.till
    let mine := live.filter fun x => x.level == e.level && controllerOf e.level x.unit == ctl
    if mine.any fun x => x.code == e.code && x.unit == e.unit then discardLog s 0 e
    else if limiterSlots e.level ≤ mine.length then discardLog s 1 e
    else raiseAdmitted { s with err := { s.err with slots := live ++ [⟨e.level, e.unit, e.code, now + 1024⟩] } } e
  else raiseAdmitted s e

/-- A chip-level unit (R621): class and instance. -/
def chipUnit (cls n : Nat) : Nat := cls * 256 + n

/-- A chip-level error. -/
def raiseChip (s : State) (code sev cls n : Nat) (job : Nat := 0) (det : List Nat := []) (hist : Bool := false)
    (chain : Bool := false) : State :=
  raise s { code, sev, level := 3, unit := chipUnit cls n, job, det, hist, chain }

/-! ### The floor plan changes (R27 to R31, R45 to R48) -/

/-- A sensor's suspect mark in a floor plan: region sensors 4r + n, store-die sensors 128 + 2c + n in both regions of the column;
the datum die's are in no survey record (R36, R619). -/
def suspectPlan (p : Plan) (n : Nat) : Plan :=
  if n < 128 then { p with regions := supd {} p.regions (n / 4) fun q => { q with sensSuspect := q.sensSuspect ||| 2 ^ (n % 4) } }
  else if n < 160 then
    let c := (n - 128) / 2
    let f (q : RegionPlan) : RegionPlan := { q with storeSuspect := q.storeSuspect ||| 2 ^ ((n - 128) % 2) }
    { p with regions := supd {} (supd {} p.regions c f) (c + 16) f }
  else p

/-- Usable capacity of a stack in MiB (R39, R407). -/
def memMib (s : State) (n : Nat) : Nat :=
  if (s.stackPlan n).fenced then 0 else if n < 8 then 131072 else 98304
/-- Good plot units of a stack (R43, R425). -/
def plotUnits (s : State) (n : Nat) : Nat :=
  if n < 8 || (s.stackPlan n).fenced then 0 else 4096 - (s.stackPlan n).badUnits.length

/-- The survey record as of now (R33 to R40). -/
def snap (s : State) (gen : Nat) (fromTest : Bool) : Snap :=
  { plan := s.plan, memMib := (List.range 12).map (memMib s), plotUnits := (List.range 12).map (plotUnits s),
    lanes := (List.range 8).map fun p => (s.port p).lanes, generation := gen, fromTest, grade := s.keep.grade }

/-- The generation that will include a change made now (R47, R48). -/
def nextGeneration (s : State) : Nat :=
  match s.svy.window with
  | none => 1
  | some w => if s.svy.building.isSome then w.generation + 2 else w.generation + 1

/-- Where a record kind's slot lies in the NOR, and its length: the test record's one, A and B of the others (R669). The history
lies above them, from 0x1C0000. -/
def norSlotAt (kind n : Nat) : Nat × Nat :=
  match kind with
  | 1 => (0, 0x100000)
  | 2 => (0x100000 + n * 0x40000, 0x40000)
  | _ => (0x180000 + n * 0x20000, 0x20000)

/-- The header of a slot as its bytes (R670). -/
def slotHeader (x : NorSlot) : Bytes :=
  leBytes 1 x.kind ++ leBytes 1 x.format ++ leBytes 2 0 ++ leBytes 4 x.length ++ leBytes 4 x.wcount ++ leBytes 4 0

/-- The first condition of R671 that a slot of a kind fails: 1 COMMIT, 2 KIND, 3 LENGTH, 4 CRC; 0 where it fails none (R674). -/
def slotFault (kind : Nat) (x : NorSlot) : Nat :=
  if x.commit != 0x5A then 1
  else if x.kind != kind then 2
  else if (norSlotAt kind 0).2 < 0x10 + x.length + 4 + 1 then 3
  else if x.crc != crc32c (slotHeader x ++ slice x.raw 0 x.length) then 4
  else 0

/-- A survey slot, or one of another kind, is valid (R671); `data` is what its bytes say. -/
def slotValid (x : NorSlot) (kind : Nat := 3) : Bool := slotFault kind x == 0 && x.data.isSome

/-- The second of two slots holds the newest valid record (R671). -/
def newestIsB (a b : NorSlot) (kind : Nat := 3) : Bool :=
  slotValid b kind && (!slotValid a kind || decide (a.wcount < b.wcount))

/-- The slot of the newest valid record of two (R671). -/
def newestSlot (a b : NorSlot) (kind : Nat := 3) : Option NorSlot :=
  if newestIsB a b kind then some b else if slotValid a kind then some a else none

/-- The newest valid record of two slots (R671). -/
def newestOf (a b : NorSlot) : Option Snap := (newestSlot a b).bind (·.data)

/-- A slot as firmware programs it (R670, R671): header, DATA and CRC, and COMMIT last where the read-back held. -/
def programSlot (kind wcount : Nat) (raw : Bytes) (commit : Bool) (x : NorSlot) : NorSlot :=
  let y := { x with kind, format := 1, length := raw.length, wcount, raw, commit := if commit then 0x5A else 0xFF }
  { y with crc := crc32c (slotHeader y ++ slice raw 0 raw.length) }

/-- Writes a record of a kind, with or without its commit byte, to the one of two slots that does not hold the newest one (R671): the
slots, and the number of the one written. `x` is what the bytes `raw` say. -/
def writeSlots (kind : Nat) (a b x : NorSlot) (raw : Bytes) (commit : Bool) : NorSlot × NorSlot × Nat :=
  let toA := newestIsB a b kind || !(slotValid a kind || slotValid b kind)
  let wc := max (if slotValid a kind then a.wcount else 0) (if slotValid b kind then b.wcount else 0) + 1
  let slot := programSlot kind wc raw commit x
  if toA then (slot, b, 0) else (a, slot, 1)

/-- Writes a survey record (R671). -/
def writeSurveySlots (s : State) (x : Snap) (commit : Bool) : NorSlot × NorSlot × Nat :=
  writeSlots 3 s.keep.surveyA s.keep.surveyB { data := some x } (snapBytes x) commit

/-- The build of a generation begins. Its slot is erased and programmed, and holds no commit byte until SURVEY_COMMIT: power
lost before leaves it invalid (R46, R49, R671; the moment of the programming is firmware's choice, log entry 38). -/
def startBuild (s : State) (x : Snap) : State :=
  let (a, b, _) := writeSurveySlots s x false
  { s with svy := { s.svy with building := some x, committed := false }, keep := { s.keep with surveyA := a, surveyB := b } }

/-- A change of the floor plan starts a republication, or joins the next one (R45 to R47). -/
def surveyChange (s : State) : State :=
  match s.svy.window with
  | none => s
  | some w =>
    if s.svy.building.isSome then { s with svy := { s.svy with waiting := true } }
    else startBuild s (snap s (w.generation + 1) w.fromTest)

/-- After a fence in generation `gen`: BELOW_GRADE when good M cells fall below the grade's minimum (R31, R48). -/
def checkGrade (s : State) (gen : Nat) : State :=
  let g := s.goodCells .M
  let least := s.grade.minGoodM
  if g < least && !s.svy.belowGrade then
    raiseChip { s with svy := { s.svy with belowGrade := true } } 0x3003 0 0 0 0 [g, least, gen] true true
  else s

/-- A block's fence in hardware (R27, R45); one already fenced keeps its reason (R639). -/
def fenceBlockPlan (s : State) (b reason : Nat) : State :=
  if s.blockReason b != 0 then s
  else ((endHolders s (blockCells b)).updBlockPlan b fun p => { p with reason := reason }).noteDone

/-- A cell's fence in hardware; an S cell takes its block with it, with reason 0xA (R27, R32). -/
def fenceCellPlan (s : State) (c reason : Nat) : State :=
  if s.cellReason c != 0 then s
  else
    let s := ((endHolders s [c]).updCellPlan c fun p => { p with reason := reason }).noteDone
    if kindOf c = .S then fenceBlockPlan s (blockIndex c) 0xA else s

/-- A region's fence in hardware, with its 12 blocks (R27). -/
def fenceRegionPlan (s : State) (r reason : Nat) : State :=
  if s.regionReason r != 0 then s
  else ((endHolders s ((upto (r * 12) 12).flatMap blockCells)).updRegionPlan r fun p => { p with reason := reason }).noteDone

/-- The changes of one occurrence are republished together, in generation `gen` (R45 to R48). -/
def republish (s : State) (gen : Nat) : State := checkGrade (surveyChange s) gen

/-- Fences a block. -/
def fenceBlock (s : State) (b reason : Nat) : State :=
  if s.blockReason b != 0 then s else republish (fenceBlockPlan s b reason) (nextGeneration s)

/-- Fences a cell. -/
def fenceCell (s : State) (c reason : Nat) : State :=
  if s.cellReason c != 0 then s else republish (fenceCellPlan s c reason) (nextGeneration s)

/-- Fences a region. -/
def fenceRegion (s : State) (r reason : Nat) : State :=
  if s.regionReason r != 0 then s else republish (fenceRegionPlan s r reason) (nextGeneration s)

end Sys2Proof.Machine
end

