-- ==== Sys2Proof/Machine/Stash.lean ====
section
/-! DEFINITION. Stash accesses (R364 to R396), plumb transfers (R368 to R376), granule retirement (R394, R395). -/

namespace Sys2Proof.Machine

open Sys2Proof

/-- The instruction that makes an access (R624). -/
structure Issuer where
  cell : Nat
  vcell : Nat
  opcode : Nat
  sheet : Nat
  index : Nat
  job : Nat
  deriving DecidableEq, Repr

/-- The first three detail words of an instruction's record (R624). -/
def Issuer.words (i : Issuer) : List Nat := [i.vcell + i.opcode * 65536, i.sheet, i.index]

/-- Raises an error for an access at a cell's unit: by an instruction (INSTR set), or by none (R624). One for the error history belongs
to the occurrence before it (log entry 13), one that ends a job reports the cell's fence. -/
def raiseCell (s : State) (code sev unit : Nat) (who : Option Issuer) (items : List Nat)
    (job : Nat := 0) (ends : Bool := false) (hist : Bool := false) : State :=
  let cells := if ends then fencedWith unit else []
  match who with
  | some i => raise s { code, sev, level := 0, unit, job := i.job, det := i.words ++ items, instr := true, ends, hist, chain := hist, cells }
  | none => raise s { code, sev, level := 0, unit, job, det := items, ends, hist, chain := hist, cells }

/-! ### Faults that happen to what is stored -/

/-- XORs a mask into a sparse map of wrong bits. -/
def flipBits (m : Sparse Nat) (k mask : Nat) : Sparse Nat := supd 0 m k (· ^^^ mask)

/-- ROUTER_FAULT (R342): by an instruction's line (INSTR set), or by none (R624). -/
def routerFault (s : State) (r port : Nat) (who : Option Issuer) : State :=
  let s := s.updRegion r fun x => { x with netFault := true }
  raise s { code := 0x2203, sev := 3, level := 2, unit := r * 256, job := (who.map (·.job)).getD 0,
            det := (who.map (·.words)).getD [] ++ [r, port], instr := who.isSome }

/-- Applies the stored physical faults of a command. -/
def inject (s : State) : Phys → State
  | .stashFlip c line w mask => s.updStash c fun x => { x with bad := flipBits x.bad (line * 8 + w) (mask % 2 ^ 72) }
  | .stashCheckFlip c b d => s.updStash c fun x => { x with checks := flipBits x.checks b (d % 2 ^ 32) }
  | .stashCheckBits c k mask => s.updStash c fun x => { x with badChecks := flipBits x.badChecks k (mask % 2 ^ 72) }
  | .memFlip n a mask => s.updStack n fun x => { x with bad := flipBits x.bad (a / 32) (mask % 2 ^ 36) }
  | .memCheckFlip n b d => s.updStack n fun x => { x with checks := flipBits x.checks b (d % 2 ^ 32) }
  | .memCheckBits n b mask => s.updStack n fun x => { x with bad := flipBits x.bad (checkWord b) (mask % 2 ^ 36) }
  | .cacheFlip n b w mask => s.updStack n fun x => { x with frames := x.frames.map fun f =>
      if f.block == b then { f with bad := flipBits f.bad w (mask % 2 ^ 72) } else f }
  | .accFlip c t e mask => s.updMm c fun x => { x with accBad := flipBits x.accBad (t * 256 + e) (mask % 2 ^ 39) }
  | .bufFlip c ab w mask => s.updMm c fun x =>
      if ab then { x with abBad := flipBits x.abBad w (mask % 2 ^ 72) }
      else { x with wbBad := flipBits x.wbBad w (mask % 2 ^ 72) }
  | .cairnFlip n k mask => { s with syn := { s.syn with bad := flipBits s.syn.bad (n + 4096 * k) (mask % 2 ^ 39) } }
  | .netCorrected r n => if r < 32 then s.updRegion r fun x => { x with netCorrected := sat16 x.netCorrected n } else s
  | .txRefused => { s with hif := { s.hif with txRefused := true } }
  | .routerState r port => if r < 32 then routerFault s r port none else s
  | _ => s

/-- Applies all stored physical faults of a command, in order. -/
def injectAll (s : State) (ph : List Phys) : State := ph.foldl inject s

/-! ### Words, lines, granules -/

/-- Physical stash offset of a logical one under a granule map (R365). -/
def stashPhys (gran : List Nat) (off : Nat) : Nat := gran.getD (off / 16384) 0 * 16384 + off % 16384

/-- The region of a cell reads unwritten lines as zeros (R389). -/
def fallbackOf (s : State) (c : Nat) : Bool := (s.region (regionOf c)).fallback

/-- A line's written bit. -/
def lineWritten (s : State) (c line : Nat) : Bool := sget false (s.cell c).stash.written line

/-- Marks a granule for retirement (R383, R394). -/
def markGranule (s : State) (c g : Nat) : State := s.updStash c fun x => { x with marked := x.marked ||| 2 ^ g }

/-- Marked granules retire once no job holds the cell (R394); the last one takes the cell with it (R395), in the same generation. -/
def retireGranules (s : State) (c : Nat) : State :=
  if !(s.heldBy c).isEmpty then s
  else
    let gs := (s.goodGranules c).filter (bit (s.cell c).stash.marked)
    if gs.isEmpty then s
    else
      let gen := nextGeneration s
      let s := gs.foldl (fun s g =>
        let s := s.updCellPlan c fun p => { p with granGone := p.granGone ||| 2 ^ g }
        let s := s.updStash c fun x => { x with marked := x.marked - 2 ^ g }
        raiseCell s 0x0605 1 c none [g, (s.goodGranules c).length, gen] 0 false true) s
      republish (if (s.goodGranules c).isEmpty then fenceCellPlan s c 7 else s) gen

/-- The key of a pair of check-array words among the corrected words of a lap; those of stash words are line * 8 + word. -/
def pairKey (pair : Nat) : Nat := 2 ^ 20 + pair

/-- The physical granule that a corrected word lies in: 2,048 words of lines, or 2 pairs of check words. -/
def keyGranule (key : Nat) : Nat := if key < 2 ^ 20 then key / 2048 else (key - 2 ^ 20) / 2

/-- A correction counts in the lap; the fourth distinct word of a granule marks it (R394). -/
def countCorrected (s : State) (c key : Nat) : State :=
  let s := s.updStash c fun x =>
    { x with corrected := sat16 x.corrected 1, corrWords := if x.corrWords.contains key then x.corrWords else x.corrWords ++ [key] }
  let g := keyGranule key
  if 4 ≤ ((s.cell c).stash.corrWords.filter fun k => keyGranule k == g).length then markGranule s c g else s

/-- A corrected word: written back, counted, logged (R382). -/
def correctWord (s : State) (c line w logLine : Nat) (who : Option Issuer) (job : Nat := 0) : State :=
  let s := s.updStash c fun x => { x with bad := sdel x.bad (line * 8 + w) }
  raiseCell (countCorrected s c (line * 8 + w)) 0x0601 0 c who [logLine, w, line / 256] job

/-- An uncorrectable word: UNCORR, STASH_UNCORRECTABLE, the granule marked (R383). -/
def uncorrWord (s : State) (c line w logLine : Nat) (who : Option Issuer) (job : Nat) : State :=
  let s := s.updRegion (regionOf c) fun r => { r with stsUncorr := true }
  let s := markGranule s c (line / 256)
  raiseCell s 0x0602 2 c who [logLine, w, line / 256] job

/-- Decodes the 8 words of a physical line; false where one is uncorrectable (R381 to R383). -/
def decodeLine (s : State) (c line logLine : Nat) (who : Option Issuer) (job : Nat) : Bool × State :=
  (List.range 8).foldl (fun (r : Bool × State) w =>
    if !r.1 then r
    else
      let m : Nat := sget 0 (r.2.cell c).stash.bad (line * 8 + w)
      if m == 0 then r
      else if popcount 72 m == 1 then (true, correctWord r.2 c line w logLine who job)
      else (false, uncorrWord r.2 c line w logLine who job)) (true, s)

/-- Plumb cycles and store-die lines of an access (R369, R591, R715). -/
def plumbTraffic (s : State) (c lines : Nat) (write : Bool) : State :=
  let p := s.cellPlan c
  let u := (s.cell c).plumb
  let halves := b2n (!p.eastGone && u.eastTest.isNone) + b2n (!p.westGone && u.westTest.isNone)
  let cyc := if halves == 2 then cdiv lines 2 else lines
  (s.updColumn (columnOf (regionOf c)) fun x => { x with lines := x.lines + lines }).countCell
    (if write then 0x00A else 0x009) c cyc

/-- Reads `n` logical 64-byte lines from line `l0` (R388, R389): the bytes, or `none` after an error is raised. -/
def readLines (s : State) (c : Nat) (gran : List Nat) (l0 n : Nat) (who : Option Issuer) (job : Nat := 0) :
    Option Bytes × State :=
  let r := (List.range n).foldl (fun (r : Option Bytes × State) k =>
    match r.1 with
    | none => r
    | some acc =>
      let l := l0 + k
      let pl := stashPhys gran (l * 64) / 64
      if !lineWritten r.2 c pl then
        if fallbackOf r.2 c then (some (acc ++ List.replicate 64 0), r.2)
        else (none, raiseCell r.2 0x0603 2 c who [l] job)
      else
        let (ok, s) := decodeLine r.2 c pl l who job
        if ok then (some (acc ++ Ram.read (s.cell c).stash.data (pl * 64) 64), s) else (none, s)) (some [], s)
  (r.1, plumbTraffic r.2 c n false)

/-- Reads bytes at a logical offset by whole lines. -/
def readStash (s : State) (c : Nat) (gran : List Nat) (off n : Nat) (who : Option Issuer) (job : Nat := 0) :
    Option Bytes × State :=
  let l0 := off / 64
  let l1 := cdiv (off + n) 64
  let (d, s) := readLines s c gran l0 (l1 - l0) who job
  (d.map fun b => slice b (off - l0 * 64) n, s)

/-! ### Tensor-block checks of the stash (R634 to R637) -/

/-- The data a block verifies over: unwritten lines as zeros (R390). -/
def blockData (s : State) (c pb : Nat) : Bytes :=
  (upto (pb * 64) 64).flatMap fun l =>
    if lineWritten s c l then Ram.read (s.cell c).stash.data (l * 64) 64 else List.replicate 64 0

/-- Decodes the pair of check-array words that holds a physical block's check (R381): one wrong bit is corrected, more fail the
operation. The records name the block's first logical line, and as word the half of the pair (log entry 48). -/
def decodePair (s : State) (c pb lb : Nat) (who : Option Issuer) (job : Nat) : Bool × State :=
  let m : Nat := sget 0 (s.cell c).stash.badChecks (pb / 2)
  if m == 0 then (true, s)
  else if popcount 72 m == 1 then
    let s := s.updStash c fun x => { x with badChecks := sdel x.badChecks (pb / 2) }
    (true, raiseCell (countCorrected s c (pairKey (pb / 2))) 0x0601 0 c who [lb * 64, pb % 2, pb / 4] job)
  else (false, uncorrWord s c (pb * 64) (pb % 2) (lb * 64) who job)

/-- Reads a whole block for its check: its written lines and the pair that holds the check word are decoded (R390); false where a
word is uncorrectable. -/
def decodeBlock (s : State) (c : Nat) (gran : List Nat) (lb : Nat) (who : Option Issuer) (job : Nat) : Bool × State :=
  let pb := stashPhys gran (lb * 4096) / 4096
  let r := (List.range 64).foldl (fun (r : Bool × State) k =>
    if r.1 && lineWritten r.2 c (pb * 64 + k) then decodeLine r.2 c (pb * 64 + k) (lb * 64 + k) who job else r) (true, s)
  if r.1 then decodePair r.2 c pb lb who job else r

/-- Verifies the check of a logical block (role 0 source, 1 merge): decodes its written lines, then compares; a failure
raises BLOCK_CHECK (R633, R637). The computed CRC follows from the data and the check's error. -/
def verifyBlock (s : State) (c : Nat) (gran : List Nat) (lb role : Nat) (who : Option Issuer) (job : Nat := 0) :
    Bool × State :=
  let pb := stashPhys gran (lb * 4096) / 4096
  let r := decodeBlock s c gran lb who job
  if !r.1 then r
  else
    let d : Nat := sget 0 (r.2.cell c).stash.checks pb
    if d == 0 then r
    else
      let crc := crc32c (blockData r.2 c pb)
      (false, raiseCell r.2 0x0801 2 c who [role, lb, pb / 4, crc ^^^ d, crc] job)

/-- Verifies the source blocks that `n` bytes at `off` touch. -/
def verifyRange (s : State) (c : Nat) (gran : List Nat) (off n : Nat) (who : Option Issuer) (job : Nat := 0) :
    Bool × State :=
  if n == 0 then (true, s)
  else (upto (off / 4096) (cdiv (off + n) 4096 - off / 4096)).foldl (fun (r : Bool × State) lb =>
    if r.1 then verifyBlock r.2 c gran lb 0 who job else r) (true, s)

/-- Writes one whole physical line: data, written bit, fresh code words, injection (R381, R386, R396). -/
def putLine (s : State) (c pl logLine : Nat) (d : Bytes) : State :=
  let x := (s.cell c).stash
  let data := Ram.write x.data (pl * 64) d
  let bad := (List.range 8).foldl (fun m w => sdel m (pl * 8 + w)) x.bad
  let fires := x.flipArmed && x.flipLine == logLine
  let mask := (if x.flipEnA then 2 ^ x.flipA else 0) ^^^ (if x.flipEnB then 2 ^ x.flipB else 0)
  s.updStash c fun x => { x with
    data, written := sset false x.written pl true,
    bad := if fires && mask != 0 then sset 0 bad (pl * 8 + x.flipWord) mask else bad,
    flipArmed := x.flipArmed && !fires, flipFired := x.flipFired || fires }

/-- One term of a twin job's sheet check value: a tensor-block check word that an instruction wrote, and its location (R539). -/
def twinAdd (s : State) (job loc check : Nat) : State :=
  s.updJob job fun j => { j with twinSum := (j.twinSum + crc64 (leBytes 8 loc ++ leBytes 4 check)) % 2 ^ 64 }

/-- The term of a stash block that an instruction of a twin job wrote (R539). -/
def twinStash (s : State) (c lb pb : Nat) (who : Option Issuer) : State :=
  match who with
  | none => s
  | some i => match s.job? i.job with
    | none => s
    | some j =>
      if !j.params.twin then s
      else
        let v := ((j.image.cells.find? fun v => v.pcell == c).map (·.vcell)).getD 0
        twinAdd s i.job (2 ^ 63 + v * 2 ^ 48 + lb) (crc32c (blockData s c pb))

/-- Writes whole logical lines from line `l0`. Blocks covered in part are verified first and merged; every block written
takes a fresh check (R301, R637), a narrow write into its pair, which is decoded first (R384). False where a merge verification failed; earlier blocks stay written. -/
def writeLines (s : State) (c : Nat) (gran : List Nat) (l0 : Nat) (ls : List Bytes) (who : Option Issuer)
    (job : Nat := 0) : Bool × State :=
  if ls.isEmpty then (true, s)
  else
    let l1 := l0 + ls.length
    let r := (upto (l0 / 64) (cdiv l1 64 - l0 / 64)).foldl (fun (r : Bool × State) lb =>
      if !r.1 then r
      else
        let whole := l0 ≤ lb * 64 && lb * 64 + 64 ≤ l1
        let pb := stashPhys gran (lb * 4096) / 4096
        let (ok, s) := if whole then decodePair r.2 c pb lb who job else verifyBlock r.2 c gran lb 1 who job
        if !ok then (false, s)
        else
          let s := (upto (lb * 64) 64).foldl (fun s l =>
            if l0 ≤ l && l < l1 then putLine s c (pb * 64 + (l - lb * 64)) l (ls.getD (l - l0) []) else s) s
          let s := s.updStash c fun x => { x with checks := sdel x.checks pb }
          (true, twinStash s c lb pb who))
      (true, s)
    (r.1, plumbTraffic r.2 c ls.length true)

/-- Cuts bytes into 64-byte lines, the last padded with zeros. -/
def toLines (bs : Bytes) : List Bytes :=
  (List.range (cdiv bs.length 64)).map fun k => slice bs (k * 64) 64

/-- Clears a cell's written bits and sets its check words to those of zero blocks (R387). -/
def clearWritten (s : State) (c : Nat) : State :=
  s.updStash c fun x => { x with written := [], checks := [], badChecks := [], data := [], bad := x.bad }

/-! ### Plumb transfers (R370 to R375) -/

/-- A half begins its bond test, or waits while the other half's test runs (R372, R374). -/
def startTest (s : State) (c : Nat) (west : Bool) : State :=
  let u := (s.cell c).plumb
  let till := s.clk.cycles + 256
  s.updPlumb c fun p =>
    if west then
      (if p.westTest.isSome then p else if u.eastTest.isSome then { p with westWait := true, westFail := none }
       else { p with westTest := some till, westFail := none, bondTests := min 255 (p.bondTests + 1) })
    else
      (if p.eastTest.isSome then p else if u.westTest.isSome then { p with eastWait := true, eastFail := none }
       else { p with eastTest := some till, eastFail := none, bondTests := min 255 (p.bondTests + 1) })

/-- CRC-8 of a group's 128 data bits: polynomial x^8 + x^2 + x + 1, initial value 0, most significant bit first (R370). -/
def crc8 (data : Nat) : Nat :=
  (List.range 128).foldl (fun c k =>
    let c := 2 * c + b2n (bit data (127 - k) != bit c 7)
    (if bit c 0 then c ^^^ 6 else c) % 256) 0

/-- The check of a group fails for these wrong bits: the code is linear, so only they decide (R370, R371). -/
def groupFails (wrong : Nat) : Bool := crc8 (wrong % 2 ^ 128) != wrong / 2 ^ 128 % 256

/-- One failed transfer: a replay and its log, twice where the replay fails too, and the conditions of a bond test (R371, R372). -/
def plumbFail (s : State) (c : Nat) (who : Option Issuer) (west : Bool) (group : Nat) (write again : Bool) : State :=
  let u := (s.cell c).plumb
  let last := if west then u.westFail else u.eastFail
  let close := last.any fun t => decide (s.clk.cycles ≤ t + 4096)
  let replay (s : State) : State :=
    raiseCell ((s.updPlumb c fun p => { p with replays := sat16 p.replays 1 }).countCell 0x008 c 1) 0x0606 0 c who
      [b2n west, group, b2n write]
  let s := replay s
  let s := if again then replay s else s
  let s := s.updPlumb c fun p =>
    if west then { p with westFail := some s.clk.cycles } else { p with eastFail := some s.clk.cycles }
  if again || close then startTest s c west else s

/-- A half carries data: in service and not under test. -/
def halfCarries (s : State) (c : Nat) (west : Bool) : Bool :=
  let p := s.cellPlan c
  let u := (s.cell c).plumb
  if west then !p.westGone && u.westTest.isNone else !p.eastGone && u.eastTest.isNone

/-- The plumb failures among a command's physical faults strike the plumbs that the command's transfers cross. -/
def plumbFaults (s : State) (cs : List Nat) (who : Option Issuer) (ph : List Phys) : State :=
  ph.foldl (fun s p => match p with
    | .plumb c west g write wrong replay =>
      if cs.contains c && halfCarries s c west && g < 4 && groupFails wrong
      then plumbFail s c who west g write (groupFails replay) else s
    | _ => s) s

/-- A half of the plumb can carry data (R374). -/
def plumbOpen (s : State) (c : Nat) : Bool :=
  let p := s.cellPlan c
  let u := (s.cell c).plumb
  (!p.eastGone && u.eastTest.isNone && !u.eastWait) || (!p.westGone && u.westTest.isNone && !u.westWait)

end Sys2Proof.Machine
end

