-- ==== Sys2Proof/Machine/Memory.lean ====
section
/-! DEFINITION. Device memory and the stack caches (R405 to R414), pair marks (R423). -/

namespace Sys2Proof.Machine

open Sys2Proof

/-- Who accesses device memory: an instruction or a cell's own fetch (`cell`), or an engine with its source word (R624), for a
descriptor (`desc`) whose DETAIL names the record of a failure. -/
structure Accessor where
  who : Option Issuer := none
  cell : Option Nat := none
  job : Nat := 0
  src : Nat := 0
  desc : Option (Nat × Nat) := none
  deriving DecidableEq, Repr

/-- A failed access, by the completion status that a COPY takes (R144). -/
abbrev MemFail := Nat


/-- The source word of a cell (R624). -/
def srcCell (c : Nat) : Nat := c
/-- The source word of a descriptor (R624). -/
def srcDesc (ring slot : Nat) : Nat := 2 ^ 30 + ring * 65536 + slot % 65536
/-- The access of a descriptor for a job. -/
def descAccess (s : State) (ring count job : Nat) : Accessor :=
  { job, src := srcDesc ring (count % 2 ^ (s.ring ring).sizeLog2), desc := some (ring, count) }
/-- The source word of an access by neither cell nor descriptor (R624). -/
def srcNone : Nat := 2 ^ 30 + (2 ^ 30 - 1)

/-- The two detail words of a 64-bit item, low first (R624). -/
def item64 (v : Nat) : List Nat := [v % 2 ^ 32, v / 2 ^ 32]

/-- The home of a device address (R405): stack and stack-local address; none where it is not backed (R407). -/
def resolve (s : State) (a : Nat) : Option (Nat × Nat) :=
  let home :=
    if a < 0x6000000000 then
      let c := a / 2 ^ 30
      some (8 + c % 4, c / 4 * 2 ^ 30 + a % 2 ^ 30)
    else
      let n := s.plain.length
      if a < 0x6000000000 + n * 2 ^ 37 then
        let b := (a - 0x6000000000) / 4096
        some (s.plain.getD (b % n) 0, b / n * 4096 + a % 4096)
      else none
  home.filter fun h => !(s.stackPlan h.1).fenced

/-- The device address of a stack-local address (the inverse of R405). -/
def unresolve (s : State) (n l : Nat) : Nat :=
  if 8 ≤ n then (l / 2 ^ 30 * 4 + (n - 8)) * 2 ^ 30 + l % 2 ^ 30
  else 0x6000000000 + (l / 4096 * s.plain.length + s.plain.idxOf n) * 4096 + l % 4096

/-- Bank pair of a stack-local block (R406). -/
def pairOf (block : Nat) : Nat := block % 4096

/-- Pseudo-channel of a bank pair (R402). -/
def pseudoChannel (pair : Nat) : Nat := pair % 64

/-- The refreshes that a bank has put off are issued (R421, R446). -/
def catchUp (s : State) (n bank : Nat) : State :=
  let k : Nat := sget 0 (s.stack n).postponed bank
  let s := (List.range k).foldl (fun s _ => s.emit (.stack n (.refPb bank))) s
  s.updStack n fun x => { x with postponed := sdel x.postponed bank }

/-- A bank whose count has reached 8 receives its refreshes before an access or a stroke (R421). -/
def refreshFirst (s : State) (n bank : Nat) : State :=
  if (sget 0 (s.stack n).postponed bank : Nat) < 8 then s else catchUp s n bank

/-- Raises an error of a chip-level unit for an access (R450, R624): the stack controllers are units 0x0100 on. A failure names its
descriptor; a correction names none. -/
def raiseAccess (s : State) (code sev unit : Nat) (acc : Accessor) (items : List Nat) : State :=
  let desc := if sev == 0 then none else acc.desc
  match acc.who with
  | some i => raise s { code, sev, level := 3, unit, job := i.job, det := i.words ++ items, instr := true }
  | none => raise s { code, sev, level := 3, unit, job := acc.job, det := items, desc }

/-- The same of stack controller `n`. -/
def raiseMem (s : State) (code sev n : Nat) (acc : Accessor) (items : List Nat) : State :=
  raiseAccess s code sev (chipUnit 1 n) acc items

/-- Marks a bank pair, once (R423). -/
def markPair (s : State) (n pair cause : Nat) : State :=
  if (s.stackPlan n).marked.contains pair then s
  else
    let s := s.updStackPlan n fun p => { p with marked := p.marked ++ [pair] }
    let s := s.updStack n fun x => { x with markedCount := min 8191 (x.markedCount + 1) }
    raiseChip s 0x4008 0 1 n 0 [n, pair, cause] true true

/-- A code word corrected on a read or by the patrol: counted; 16 distinct words of a pair in a lap mark it (R423). Its log is raised
first: the mark follows from it. -/
def correctMem (s : State) (n word : Nat) : State :=
  let p := pairOf (blockOfWord word)
  let s := s.updStack n fun x =>
    { x with bad := sdel x.bad word, corrected := sat16 x.corrected 1,
             pairWords := if x.pairWords.contains (p, word) then x.pairWords else x.pairWords ++ [(p, word)] }
  if 16 ≤ ((s.stack n).pairWords.filter fun e => e.1 == p).length then markPair s n p 1 else s

/-- Counts an uncorrectable stack word and marks its pair (R423, R452), after the error itself is raised. -/
def uncorrMem (s : State) (n word : Nat) : State :=
  markPair (s.updStack n fun x => { x with uncorr := true, uncorrected := sat16 x.uncorrected 1 })
    n (pairOf (blockOfWord word)) 0

/-- The bytes `lo` to `lo + n - 1` of a store, rebased to 0. -/
def Ram.extract (m : Ram) (lo n : Nat) : Ram :=
  (skeep (fun k => decide (lo ≤ k) && decide (k < lo + n)) m).map fun e => (e.1 - lo, e.2)

/-- Replaces the bytes `lo` to `lo + n - 1` of a store by another store rebased from 0. -/
def Ram.replace (m : Ram) (lo n : Nat) (d : Ram) : Ram :=
  skeep (fun k => decide (k < lo)) m ++ d.map (fun e => (e.1 + lo, e.2)) ++ skeep (fun k => decide (lo + n ≤ k)) m

/-- A frame holds a word that its code cannot correct (R414). -/
def frameLost (f : Frame) : Bool := f.bad.any fun e => 2 ≤ popcount 72 e.2

/-- A dirty frame has lost its data: CACHE_UNCORR (R414). -/
def cacheUncorr (s : State) (n : Nat) (f : Frame) (acc : Accessor) : State :=
  raiseMem (s.updStack n fun x => { x with cacheUncorr := true }) 0x400A 3 n acc (n :: item64 (unresolve s n (f.block * 4096)))

/-- Writes a dirty frame back whole: every code word rewritten, its check word stored (R412, R414). One whose data is lost raises
CACHE_UNCORR, and the stack keeps what it held (log entry 10). -/
def writeBack (s : State) (n : Nat) (f : Frame) : State :=
  if !f.dirty then s
  else if frameLost f then cacheUncorr s n f {}
  else (refreshFirst s n (pairOf f.block)).updStack n fun x => { x with
    data := Ram.replace x.data (f.block * 4096) 4096 f.data
    bad := skeep (fun w => blockOfWord w != f.block) x.bad
    checks := sset 0 x.checks f.block f.check }

/-- Puts a frame at the front of its set, evicting the least recently used of a full set (R411). -/
def putFrame (s : State) (n : Nat) (f : Frame) : State :=
  let fs := (s.stack n).frames.filter fun g => g.block != f.block
  let set := fs.filter fun g => g.block % 256 == f.block % 256
  if set.length < 16 then s.updStack n fun x => { x with frames := f :: fs }
  else
    match set.getLast? with
    | some v =>
      let s := writeBack s n v
      s.updStack n fun x => { x with frames := f :: fs.filter fun g => g.block != v.block }
    | none => s.updStack n fun x => { x with frames := f :: fs }

/-- Reads the stack's code words of a block and that of its check word: corrections, or a failure with its record (R408, R409,
R450). -/
def readWords (s : State) (n block : Nat) (acc : Accessor) : Option MemFail × State :=
  (skeep (fun w => blockOfWord w == block) (s.stack n).bad).foldl (fun (r : Option MemFail × State) e =>
    if r.1.isSome then r
    else
      let a := unresolve r.2 n (addrOfWord e.1)
      if popcount 36 e.2 == 1 then
        (none, correctMem (raiseMem r.2 0x4001 0 n acc (n :: item64 a)) n e.1)
      else
        let s1 := match acc.cell with
          | some c => raiseMem r.2 0x4002 2 n acc (n :: item64 a ++ [c])
          | none => raiseMem r.2 0x4003 1 n acc (n :: item64 a ++ [acc.src])
        (some 0x31, uncorrMem s1 n e.1)) (none, s)

/-- Fills a block's frame from the stack, verifying its check word (R412). -/
def fillFrame (s : State) (n block : Nat) (acc : Accessor) : Except MemFail Frame × State :=
  let s := s.countChip 0x306 1
  let (bad, s) := readWords (refreshFirst s n (pairOf block)) n block acc
  match bad with
  | some e => (.error e, s)
  | none =>
    let d : Nat := sget 0 (s.stack n).checks block
    if d != 0 then
      let a := unresolve s n (block * 4096)
      let s1 := match acc.cell with
        | some c => raiseMem s 0x4005 2 n acc (n :: item64 a ++ [c])
        | none => raiseMem s 0x4006 1 n acc (n :: item64 a)
      (.error 0x30, s1)
    else
      let f : Frame := ⟨block, false, Ram.extract (s.stack n).data (block * 4096) 4096, 0, []⟩
      (.ok f, putFrame s n f)

/-- The frame of a block: a hit, or a fill (R412); the codes of the frame's words under R414. -/
def getFrame (s : State) (n block : Nat) (acc : Accessor) : Except MemFail Frame × State :=
  match (s.stack n).frames.find? fun f => f.block == block with
  | none => fillFrame s n block acc
  | some f =>
    if frameLost f then
      if f.dirty then (.error 0x31, cacheUncorr s n f acc)
      else
        fillFrame (s.updStack n fun x => { x with frames := x.frames.filter fun g => g.block != block }) n block acc
    else
      let f := { f with bad := [] }
      (.ok f, (putFrame s n f).countChip 0x305 1)

/-- An access to an unbacked address (R407). -/
def unbacked (s : State) (a : Nat) (acc : Accessor) : MemFail × State :=
  let items := item64 a ++ [match acc.cell with | some c => srcCell c | none => acc.src]
  (0x31, raiseAccess s 0x4007 2 0 acc items)

/-- Reads `n` bytes inside one block. -/
def readBlock (s : State) (a n : Nat) (acc : Accessor) : Except MemFail Bytes × State :=
  match resolve s a with
  | none => let (e, s) := unbacked s a acc; (.error e, s)
  | some (k, l) =>
    match getFrame s k (l / 4096) acc with
    | (.error e, s) => (.error e, s)
    | (.ok f, s) => (.ok (Ram.read f.data (l % 4096) n), s)

/-- The term of a device block that an instruction of a twin job wrote (R539): its segment and block index. -/
def twinDev (s : State) (a : Nat) (acc : Accessor) (f : Frame) : State :=
  match acc.who with
  | none => s
  | some i => match s.job? i.job with
    | none => s
    | some j =>
      if !j.params.twin then s
      else match j.image.segs.zipIdx.find? fun e => decide (e.1.base ≤ a) && decide (a < e.1.base + e.1.len) with
        | none => s
        | some (g, k) => twinAdd s i.job (k * 2 ^ 48 + (a - g.base) / 4096) (crc32c (Ram.read f.data 0 4096))

/-- Writes bytes inside one block: a whole block allocates, a part fills first and merges (R412). -/
def writeBlock (s : State) (a : Nat) (d : Bytes) (acc : Accessor) : Except MemFail Unit × State :=
  match resolve s a with
  | none => let (e, s) := unbacked s a acc; (.error e, s)
  | some (k, l) =>
    if d.length == 4096 then
      let f : Frame := ⟨l / 4096, true, Ram.write [] 0 d, 0, []⟩
      (.ok (), twinDev (putFrame s k f) a acc f)
    else
      match getFrame s k (l / 4096) acc with
      | (.error e, s) => (.error e, s)
      | (.ok f, s) =>
        let f := { f with dirty := true, data := Ram.write f.data (l % 4096) d, check := 0 }
        (.ok (), twinDev (putFrame s k f) a acc f)

/-- The pieces of a range that lie in one block each: (address, length); `fuel` bounds them. -/
def blockPieces : Nat → Nat → Nat → List (Nat × Nat)
  | 0, _, _ => []
  | f + 1, a, n =>
    if n == 0 then []
    else
      let k := min n (4096 - a % 4096)
      (a, k) :: blockPieces f (a + k) (n - k)

/-- Reads a range of device memory. -/
def readMem (s : State) (a n : Nat) (acc : Accessor) : Except MemFail Bytes × State :=
  (blockPieces (n / 4096 + 2) a n).foldl (fun (r : Except MemFail Bytes × State) p =>
    match r.1 with
    | .error _ => r
    | .ok b => match readBlock r.2 p.1 p.2 acc with
      | (.ok d, s) => (.ok (b ++ d), s)
      | (.error e, s) => (.error e, s)) (.ok [], s)

/-- Writes a range of device memory; blocks written before a failure stay written. -/
def writeMem (s : State) (a : Nat) (d : Bytes) (acc : Accessor) : Except MemFail Unit × State :=
  (blockPieces (d.length / 4096 + 2) a d.length).foldl (fun (r : Except MemFail Unit × State) p =>
    match r.1 with
    | .error _ => r
    | .ok _ => writeBlock r.2 p.1 (slice d (p.1 - a) p.2) acc) (.ok (), s)

end Sys2Proof.Machine
end

