-- ==== Sys2Proof/Machine/Cairns.lean ====
section
/-! DEFINITION. Cairns: copies, additions, wakes (R488 to R500), and the trace records of a region (R717, R718). -/

namespace Sys2Proof.Machine

open Sys2Proof

/-! ### Trace (R717, R718) -/

/-- Takes a trace record of a kind at a cell (R717): dropped where the buffer of a streaming region is full (R642). -/
def traceRec (s : State) (r kind unit : Nat) (p : List Nat) : State :=
  let x := s.region r
  let mode := x.trcCtrl % 4
  if mode == 0 || !bit x.trcCtrl (8 + kind) || x.trcFrozen then s
  else
    let seq := x.trcSeq + 1
    let rec32 := leBytes 4 seq ++ leBytes 4 (kind + r * 65536) ++ leBytes 4 s.sht.tick ++ leBytes 4 s.sinceTick
      ++ leBytes 4 unit ++ leBytes 4 (p.getD 0 0) ++ leBytes 4 (p.getD 1 0) ++ leBytes 4 (p.getD 2 0)
    if x.trace.length < 2048 then s.updRegion r fun y => { y with trcSeq := seq % 2 ^ 32, trace := y.trace ++ [rec32] }
    else if mode == 2 then s.updRegion r fun y => { y with trcSeq := seq % 2 ^ 32, trace := y.trace.drop 1 ++ [rec32] }
    else dropped ((s.updRegion r fun y => { y with trcSeq := seq % 2 ^ 32, trcDropped := sat16 y.trcDropped 1 }).countRegion
      0x207 r 1) 6 1

/-! ### Copies -/

/-- Key of a cairn's copy: region copies 0 to 31, the master 32 (R489). -/
def cairnKey (n copy : Nat) : Nat := n + 4096 * copy

/-- Value of a copy. -/
def cairnVal (s : State) (n copy : Nat) : Nat := sget 0 s.syn.copies (cairnKey n copy)

/-- No uncorrectable error stands in a copy (R491). -/
def cairnSound (s : State) (n copy : Nat) : Bool := decide (popcount 39 (sget 0 s.syn.bad (cairnKey n copy)) < 2)

/-- Sets a copy, with fresh check bits. -/
def setCairn (s : State) (n copy v : Nat) : State :=
  { s with syn := { s.syn with copies := sset 0 s.syn.copies (cairnKey n copy) v, bad := sdel s.syn.bad (cairnKey n copy) } }

/-- The job that holds a cairn on the device now: a pre-empted job has yielded it (R87, R90, R500). -/
def cairnHolder (s : State) (n : Nat) : Option Job :=
  s.jobs.find? fun j => j.phase ≠ .claiming && j.phase ≠ .preempted && j.phase ≠ .saving && j.phase ≠ .restoring &&
    j.params.cairnBase ≤ n && n < j.params.cairnBase + j.params.cairnCount

/-- CAIRN_CORRECTED (R491). -/
def cairnCorrected (s : State) (n copy : Nat) : State :=
  let s := { s with syn := { s.syn with bad := sdel s.syn.bad (cairnKey n copy), corrected := sat16 s.syn.corrected 1 } }
  if copy == 32 then raiseChip s 0x3204 0 9 0 0 [n, 32]
  else raise s { code := 0x3204, sev := 0, level := 2, unit := copy * 256, det := [n, copy] }

/-- The code of the master copy as it is read: one bit corrected, more end the job that holds the cairn (R491). -/
def scanMaster (s : State) (n : Nat) : State :=
  if (sget 0 s.syn.bad (cairnKey n 32) : Nat) == 0 then s
  else if cairnSound s n 32 then cairnCorrected s n 32
  else raiseChip s 0x3205 2 9 0 ((cairnHolder s n).map (·.id) |>.getD 0) [n]

/-- What is still on its way to the master copy of a cairn. -/
def onItsWay (s : State) (n : Nat) : Nat :=
  ((s.syn.inFlight.filter fun e => e.1 == n && e.2.1 == 32).map fun e => e.2.2.1).foldl (· + ·) 0

/-- The code of a region copy as it is read: one bit corrected; more, and it is reloaded from the master. Within the 64 core cycles
of the reload every addition already sent reaches the master, so the copy takes them with it, and none of them comes again (R490,
R491, R496). -/
def fixCopy (s : State) (n r : Nat) : State :=
  if (sget 0 s.syn.bad (cairnKey n r) : Nat) == 0 then s
  else if cairnSound s n r then cairnCorrected s n r
  else
    let s := scanMaster s n
    if !cairnSound s n 32 then s
    else
      let s := setCairn s n r (min 0xFFFFFFFF (cairnVal s n 32 + onItsWay s n))
      cairnCorrected { s with syn := { s.syn with inFlight := s.syn.inFlight.filter fun e => !(e.1 == n && e.2.1 == r) } } n r

/-- A CA.WAIT completes: the cell goes on (R494). -/
def wakeCell (s : State) (c : Nat) (w : Wait) : State :=
  let s := s.updSeq c fun q => { q with wait := none, slept := q.slept + (s.clk.cycles - w.since) }
  let s := s.countCell 0x00B c (s.clk.cycles - w.since)
  traceRec s (regionOf c) 3 c [w.cairn, w.value, s.clk.cycles - w.since]

/-- The condition of a wait holds at a region's copy; none holds at a copy that cannot be read. -/
def waitHolds (s : State) (r : Nat) (w : Wait) : Bool := cairnSound s w.cairn r && decide (w.value ≤ cairnVal s w.cairn r)

/-- Fires wake wire n mod 16 of a region: its sleepers on that wire test their conditions (R497). -/
def fireWire (s : State) (r n : Nat) : State :=
  let onWire (e : Nat × CellSt) : Option Wait :=
    if regionOf e.1 == r then e.2.seq.wait.filter fun w => w.cairn % 16 == n % 16 else none
  let s := s.cells.foldl (fun t e => match onWire e with | some w => fixCopy t w.cairn r | none => t) s
  s.cells.foldl (fun s e => match onWire e with
    | some w => if waitHolds s r w then wakeCell s e.1 w else s.countCell 0x00C e.1 1
    | none => s) s

/-- Sets a copy; a region copy that changes fires its wire (R497). -/
def changeCairn (s : State) (n copy v : Nat) : State :=
  let t := setCairn s n copy v
  if copy == 32 || v == cairnVal s n copy then t else fireWire t copy n

/-- The code of a copy as it is read (R491); a reload that changes a region copy fires its wire (R497). -/
def scanCairn (s : State) (n copy : Nat) : State :=
  if copy == 32 then scanMaster s n
  else
    let t := fixCopy s n copy
    if cairnVal t n copy == cairnVal s n copy then t else fireWire t copy n

/-- An addition reaches a copy (R490, R496); one to a copy that cannot be read is lost with it. -/
def arrive (s : State) (n copy amount : Nat) : State :=
  if cairnSound s n copy then changeCairn s n copy (min 0xFFFFFFFF (cairnVal s n copy + amount)) else s

/-- An addition past 0xFFFF_FFFF: every copy stays there, and the job that holds the cairn ends (R495). -/
def wrapCairn (s : State) (n src : Nat) : State :=
  let s := { s with syn := { s.syn with wrap := true, inFlight := s.syn.inFlight.filter fun e => e.1 != n } }
  let s := raiseChip s 0x3203 2 9 0 ((cairnHolder s n).map (·.id) |>.getD 0) [n, src]
  (List.range 33).foldl (fun s k => changeCairn s n k 0xFFFFFFFF) s

/-- Sends a cell's or a member's addition to every copy (R490, R496). -/
def sendAddition (s : State) (n amount src : Nat) : State :=
  if 0xFFFFFFFF < cairnVal s n 32 + onItsWay s n + amount then wrapCairn s n src
  else { s with syn := { s.syn with inFlight := s.syn.inFlight ++ (List.range 33).map fun k => (n, k, amount, src) } }

/-- A descriptor's or engine's addition: to the master at once, from there to the region copies (R499). -/
def addMaster (s : State) (n amount src : Nat) : State :=
  if 0xFFFFFFFF < cairnVal s n 32 + onItsWay s n + amount then wrapCairn s n src
  else
    let s := arrive (scanMaster s n) n 32 amount
    { s with syn := { s.syn with inFlight := s.syn.inFlight ++ (List.range 32).map fun k => (n, k, amount, src) } }

/-- Adds for a job: deferred while the job is pre-empted (R500); false where the deferred list is full. -/
def addForJob (s : State) (j : Job) (n amount src : Nat) : Bool × State :=
  if j.phase = .preempted || j.phase = .saving || j.phase = .restoring then
    if 64 ≤ j.deferred.length then (false, s)
    else (true, s.updJob j.id fun x => { x with deferred := x.deferred ++ [⟨n, amount, src⟩] })
  else (true, addMaster s n amount src)

/-- Removes the first entry for a cairn's copy. -/
def takeFlight (n k : Nat) : List (Nat × Nat × Nat × Nat) → Option (Nat × List (Nat × Nat × Nat × Nat))
  | [] => none
  | e :: es => if e.1 == n && e.2.1 == k then some (e.2.2.1, es)
      else (takeFlight n k es).map fun r => (r.1, e :: r.2)

/-- CAIRN_SIGNAL_ARRIVAL (R496): the oldest addition on its way to a copy reaches it. -/
def execCairnSignalArrival (n copy : Nat) (ph : List Phys) (s : State) : Host.Outcome State Fault Refusal :=
  let s := injectAll s ph
  match takeFlight n copy s.syn.inFlight with
  | none => .next s
  | some (amount, rest) =>
    .next (arrive (scanCairn { s with syn := { s.syn with inFlight := rest } } n copy) n copy amount)

end Sys2Proof.Machine
end

