-- ==== Sys2Proof/Machine/HostIf.lean ====
section
/-! DEFINITION. The host interface: doorbells, descriptor fetch, completions, COPY, fences, rings, PCIe (R99 to R156). -/

namespace Sys2Proof.Machine

open Sys2Proof

/-! ### Descriptor fields (R118) -/

/-- TYPE. -/
def dType (b : Bytes) : Nat := num b 0 1
/-- A header flag: 8 IRQ, 9 ORDERED, 10 WAIT_EN, 11 SIGNAL_EN. -/
def dFlag (b : Bytes) (n : Nat) : Bool := bit (num b 0 4) n
/-- JOB. -/
def dJob (b : Bytes) : Nat := num b 4 2
/-- WAIT_CAIRN. -/
def dWaitCairn (b : Bytes) : Nat := num b 0x10 4 % 4096
/-- WAIT_VALUE. -/
def dWaitValue (b : Bytes) : Nat := num b 0x14 4
/-- SIGNAL_CAIRN. -/
def dSigCairn (b : Bytes) : Nat := num b 0x18 4 % 4096
/-- SIGNAL_ADD. -/
def dSigAdd (b : Bytes) : Nat := num b 0x1C 4
/-- The reserved bits of the header are zero (R118). -/
def headerOk (b : Bytes) : Bool :=
  num b 0 4 / 4096 == 0 && num b 6 2 == 0 && num b 0x10 4 < 4096 && num b 0x18 4 < 4096

/-- Slots of a ring. -/
def ringSize (r : Ring) : Nat := 2 ^ r.sizeLog2

/-! ### Completions (R143, R146, R148) -/

/-- A host access fails: HOST_ERR and HOST_ACCESS_FAIL (R146, R757). -/
def hostFail (s : State) (kind ring pos addr : Nat) : State :=
  raiseChip { s with hif := { s.hif with hostErr := true } } 0x7202 1 5 0 0 ([kind, ring, pos] ++ item64 addr)

/-- Takes a descriptor off the list. -/
def dropDesc (s : State) (d : Desc) : State :=
  { s with hif := { s.hif with descs := s.hif.descs.filter fun x => !(x.ring == d.ring && x.count == d.count) } }

/-- Changes a descriptor on the list. -/
def updDesc (s : State) (d : Desc) (f : Desc → Desc) : State :=
  { s with hif := { s.hif with descs := s.hif.descs.map fun x =>
      if x.ring == d.ring && x.count == d.count then f x else x } }

/-- A completion record (R143). -/
def completionBytes (r : Ring) (d : Desc) (status detail tick : Nat) : Bytes :=
  let phase := b2n ((r.cqPi / ringSize r) % 2 == 0)
  slice d.raw 8 8 ++ leBytes 8 detail ++ leBytes 8 tick ++ leBytes 2 (d.count % ringSize r) ++ leBytes 2 status ++
    slice d.raw 4 2 ++ [BitVec.ofNat 8 (dType d.raw), BitVec.ofNat 8 (phase * 128)]

/-- A write TLP can leave: the link is up and the transmit path takes it (R146). -/
def canWrite (s : State) : Bool := s.hif.linkUp && !s.hif.txRefused
/-- A refusal strikes one TLP. -/
def refuseOnce (s : State) : State := { s with hif := { s.hif with txRefused := false } }

/-- Writes a descriptor's completion record and takes the descriptor off the list. A failed write stops the ring, and
nothing more is written on it (R146): a ring whose reset it meets is stopped too, and wants RESET again (DESIGN CHOICE; log entry 40). -/
def complete (s : State) (d : Desc) (status detail : Nat) : State :=
  let s := dropDesc s d
  let r := s.ring d.ring
  if r.cqFailed then s
  else
    let addr := r.cqBase + r.cqPi % ringSize r * 32
    if !canWrite s then
      hostFail ((refuseOnce s).updRing d.ring fun r => { r with state := 2, cqFailed := true }) 3 d.ring (d.count % ringSize r) addr
    else
      let s := s.emit (.hostWrite addr (completionBytes r d status detail s.sht.tick))
      let s := s.updRing d.ring fun r => { r with cqPi := inc32 r.cqPi }
      if dFlag d.raw 8 then sendVector s r.vector else moderate s r.vector

/-- Completes a descriptor that carries OK or SUPERSEDED, with its SIGNAL_ADD (R120, R500): where the deferred list is
full the completion is held. -/
def completeOk (s : State) (d : Desc) (status detail : Nat) : State :=
  if dFlag d.raw 11 then
    match s.job? (dJob d.raw) with
    | some j =>
      let (done, s) := addForJob s j (dSigCairn d.raw) (dSigAdd d.raw) (srcDesc d.ring (d.count % ringSize (s.ring d.ring)))
      if done then complete s d status detail
      else updDesc s d fun x => { x with phase := .finished status detail 0 }
    | none => complete s d status detail
  else complete s d status detail

/-- The record that ended a job has been written to the host ring or discarded: no queue holds an X, J or F record that names the
job or ended it, and no staging entry the one that ended it, or the host ring is off (R631). -/
def recordsOut (s : State) (job seq : Nat) : Bool :=
  let waits (r : ErrRec) : Bool := r.sev != 0 && (r.job == job || r.ended job)
  !(s.err.chipQ.any waits || s.err.chipWait.any waits || s.err.regionQ.any (fun e => e.2.any waits)
    || s.err.blockQ.any (fun e => e.2.any waits) || s.err.cellHeld.any (fun e => e.2.any waits))
  && (!s.err.enable || seq == 0 || !s.err.staging.any fun r => r.seq == seq)

/-- The record of a descriptor's failure still waits for its SEQ (R625). -/
def unnamed (s : State) (d : Desc) : Bool :=
  let mine (r : ErrRec) : Bool := r.desc = some (d.ring, d.count)
  s.err.chipQ.any mine || s.err.chipWait.any mine

/-- A descriptor whose access failed completes once its record has a SEQ (R133, R761). A record that an alarm's coalescing or a full
queue dropped has none: 0. -/
def completeNamed (s : State) (d : Desc) (status : Nat) : State :=
  if unnamed s d then updDesc s d fun x => { x with phase := .naming status }
  else complete s d status (if dType d.raw == 1 then d.failSeq * 2 ^ 32 else d.failSeq)

/-- JOB_START completions whose ending record is out are written (R130, R631), and those of failures whose record has its SEQ. -/
def flushJobs (s : State) : State :=
  s.hif.descs.foldl (fun s d => match d.phase with
    | .finished st lo seq =>
      if dType d.raw == 1 && recordsOut s (dJob d.raw) seq then complete s d st (lo + seq * 2 ^ 32) else s
    | .naming st => completeNamed s d st
    | _ => s) s

/-! ### Doorbells (R110 to R113) -/

/-- What a doorbell page reads as at an offset: SQ_CI and CQ_PI at 0, whatever STATE is, and zero elsewhere (R105, R112, R113). -/
def doorbellWord (s : State) (page off : Nat) : Nat :=
  if off == 0 then (s.ring page).sqCi + (s.ring page).cqPi * 2 ^ 32 else 0

/-- DOORBELL (R105, R110 to R113): a read or a write of bytes at an offset of a ring's page. A write narrower than 8 bytes sets
DB_PARTIAL wherever it falls; a wider one is an Unsupported Request (R726). -/
def execDoorbell (page off : Nat) (access : DoorbellAccess) (s : State) : Host.Outcome State Fault Refusal :=
  if 64 ≤ page then .next s
  else if !access.write then .next (s.emit (.doorbellValue page off (doorbellWord s page off)))
  else if access.bytes.length < 8 then .next { s with hif := { s.hif with dbPartial := true } }
  else if off != 0 || access.bytes.length != 8 then .next s
  else
    let r := s.ring page
    if !r.enable || r.state != 1 then .next s
    else
      let sqPi := num access.bytes 0 4
      let cqCi := num access.bytes 4 4
      let back (new old : Nat) : Bool := decide (2 ^ 31 < dist32 new old)
      if back sqPi r.sqPi || back cqCi r.cqCi || ringSize r < dist32 sqPi r.sqCi
          || dist32 r.cqPi r.cqCi < dist32 cqCi r.cqCi then
        let s := { s with hif := { s.hif with dbInvalid := true } }
        .next (raiseChip (s.updRing page fun r => { r with state := 2 }) 0x7201 1 5 0 0
          [page, sqPi, cqCi, r.sqCi, r.cqPi])
      else .next (s.updRing page fun r => { r with sqPi := sqPi, cqCi := cqCi })

/-! ### Fetch (R107, R115, R116) -/

/-- The descriptor of a ring that has not begun, if any: there is at most one (R116; log entry 10). -/
def unbegun (s : State) (ring : Nat) : Option Desc :=
  s.hif.descs.find? fun d => d.ring == ring && (d.phase = .fetched || d.phase = .waiting)

/-- A ring may be fetched (R107). -/
def canFetch (s : State) (n : Nat) : Bool :=
  let r := s.ring n
  r.enable && r.state == 1 && r.sqCi != r.sqPi && decide (dist32 r.sqCi r.cqCi < ringSize r) && (unbegun s n).isNone

/-- The next ring of a class, round-robin after `last` (R115). -/
def nextRing (s : State) (inter : Bool) (last : Nat) : Option Nat :=
  ((upto (last + 1) 64).map (· % 64)).find? fun n => (s.ring n).interactive == inter && canFetch s n

/-- The ring of the next fetch: interactive before bulk (R115). -/
def fetchRing (s : State) : Option Nat :=
  if !s.hif.fetchEn || !s.hif.linkUp || s.err.fatal then none
  else match nextRing s true s.hif.lastInter with
    | some n => some n
    | none => nextRing s false s.hif.lastBulk

/-- The value of FENCE's SCOPE (R141). -/
def fenceScope (b : Bytes) : Nat := num b 0x20 1 % 4
/-- STACK of a FENCE. -/
def fenceStack (b : Bytes) : Nat := bits (num b 0x20 1) 7 4

/-- Every earlier descriptor of the ring has completed (R117). -/
def alone (s : State) (d : Desc) : Bool :=
  s.hif.descs.all fun x => x.ring != d.ring || dist32 d.count x.count == 0 || 2 ^ 31 ≤ dist32 d.count x.count

/-- What a FENCE that begins now waits for (R141): of SCOPE 1, the COPYs, PLOTs and TABLEs of its job that have begun; of SCOPE 2,
the plot sequences of its stack up to the last one queued. -/
def fenceWaits (s : State) (d : Desc) : List (Nat × Nat) :=
  let began (x : Desc) : Bool := dJob x.raw == dJob d.raw && [2, 3, 4].contains (dType x.raw) &&
    (match x.phase with | .begun => true | .finished _ _ _ => true | .naming _ => true | _ => false)
  match fenceScope d.raw with
  | 1 => (s.hif.descs.filter began).map fun x => (x.ring, x.count)
  | 2 => [(fenceStack d.raw, (s.stack (fenceStack d.raw)).serial)]
  | _ => []

/-- A NOP or FENCE begins when it is fetched, once ORDERED allows it (R116, R117). -/
def beginNow (s : State) (d : Desc) : State :=
  if d.phase = .begun || (dFlag d.raw 9 && !alone s d) then s
  else updDesc s d fun x => { x with phase := .begun, waits := if dType d.raw == 5 then fenceWaits s d else [] }

/-- DESCRIPTOR_FETCH (R107): the device fetches one descriptor; the host answers its 64 bytes or an error. A reserved TYPE
completes with BAD_TYPE (R144), a FENCE of reserved SCOPE 3 with BAD_FIELD (R141). A NOP or FENCE begins here (R116). -/
def execDescriptorFetch (ans : HostData) (s : State) : Host.Outcome State Fault Refusal :=
  match fetchRing s with
  | none => .next s
  | some n =>
    let r := s.ring n
    let s := { s with hif := if r.interactive then { s.hif with lastInter := n } else { s.hif with lastBulk := n } }
    let slot := r.sqCi % ringSize r
    match ans with
    | none => .next (hostFail (s.updRing n fun r => { r with state := 2 }) 0 n slot (r.base + slot * 64))
    | some b =>
      let d : Desc := { ring := n, count := r.sqCi, raw := slice b 0 64 }
      let s := s.updRing n fun r => { r with sqCi := inc32 r.sqCi }
      let s := { s with hif := { s.hif with descs := s.hif.descs ++ [d] } }
      if 5 < dType d.raw then .next (complete s d 0x10 0)
      else if dType d.raw == 5 && fenceScope d.raw == 3 then .next (complete s d 0x11 0)
      else .next (if dType d.raw == 0 || dType d.raw == 5 then beginNow s d else s)

/-! ### Begin conditions (R116, R117, R119) -/

/-- A job's descriptors hold while it is pre-empted (R500). -/
def parked (s : State) (j : Nat) : Bool :=
  match s.job? j with
  | some x => x.phase = .preempted || x.phase = .saving || x.phase = .restoring
  | none => false

/-- A descriptor's cairn wait reads the master copy (R491, R499). -/
def scanWait (s : State) (d : Desc) : State := if dFlag d.raw 10 then scanMaster s (dWaitCairn d.raw) else s

/-- The cairn wait of a descriptor holds at the master copy (R119, R499). -/
def cairnReached (s : State) (d : Desc) : Bool :=
  waitHolds s 32 { cairn := dWaitCairn d.raw, value := dWaitValue d.raw, since := 0 }

/-- The conditions under which a checked descriptor begins: ORDERED, its cairn wait, no pre-emption, no chip-fatal error (R117, R119, R499,
R500, R622). -/
def mayBegin (s : State) (d : Desc) : Bool :=
  (!dFlag d.raw 9 || alone s d) && (!dFlag d.raw 10 || cairnReached s d) && !parked s (dJob d.raw) && !s.err.fatal

/-- The checks a descriptor of a job shares: its job, of the ring's class (R121, R122); its cairns (R119). -/
def jobStatus (s : State) (d : Desc) (zeroOk : Bool) : Option Nat :=
  let r := s.ring d.ring
  if dJob d.raw == 0 then (if zeroOk then none else some 0x12)
  else match s.job? (dJob d.raw) with
    | some j => if j.interactive == r.interactive then none else some 0x12
    | none => some 0x12

/-- The named cairns lie in the job's range (R119, R144). -/
def cairnStatus (s : State) (d : Desc) : Option Nat :=
  let own (n : Nat) : Bool := (s.job? (dJob d.raw)).any fun j =>
    decide (j.params.cairnBase ≤ n) && decide (n < j.params.cairnBase + j.params.cairnCount)
  if (dFlag d.raw 10 && !own (dWaitCairn d.raw)) || (dFlag d.raw 11 && !own (dSigCairn d.raw)) then some 0x14 else none

/-- A device range lies wholly in one window with the permission (R125, R132). -/
def inWindow (j : Job) (perm : Window → Bool) (a n : Nat) : Bool :=
  j.params.windows.any fun w => perm w && decide (w.base ≤ a) && decide (a + n ≤ w.limit)

/-- The same for a descriptor; JOB 0 is checked against no window (R121). -/
def rangeOk (s : State) (d : Desc) (perm : Window → Bool) (a n : Nat) : Bool :=
  dJob d.raw == 0 || (s.job? (dJob d.raw)).any fun j => inWindow j perm a n

/-! ### COPY (R131 to R134) -/

/-- COPY fields. -/
def copyLen (b : Bytes) : Nat := num b 0x30 4
/-- DIR. -/
def copyDir (b : Bytes) : Nat := num b 0x34 1 % 4
/-- ZERO. -/
def copyZero (b : Bytes) : Bool := bit (num b 0x34 1) 2
/-- SRC. -/
def copySrc (b : Bytes) : Nat := num b 0x20 8
/-- DST. -/
def copyDst (b : Bytes) : Nat := num b 0x28 8

/-- What a COPY's checks give: the status of the first that fails (log entry 11 for the order). -/
def copyStatus (s : State) (d : Desc) : Option Nat :=
  let b := d.raw
  let n := copyLen b
  let dir := copyDir b
  let fromDev := dir != 0 && !copyZero b
  let toDev := dir != 1
  if !headerOk b || num b 0x34 4 / 8 != 0 || num b 0x38 8 != 0 || n == 0 || n % 64 != 0 || dir == 3
      || (copyZero b && dir == 1) || (fromDev && copySrc b % 64 != 0) || (toDev && copyDst b % 64 != 0) then some 0x11
  else match jobStatus s d (s.ring d.ring).priv with
    | some x => some x
    | none => match cairnStatus s d with
      | some x => some x
      | none =>
        if (fromDev && !rangeOk s d (·.read) (copySrc b) n) || (toDev && !rangeOk s d (·.write) (copyDst b) n)
        then some 0x13 else none

/-- The class of a ring's pieces. -/
def interDesc (s : State) (d : Desc) : Bool := (s.ring d.ring).interactive

/-- A COPY has a piece for an engine: it has begun and goes on, or it may begin, which it does as its first piece is handed over
(R116). -/
def copyReady (s : State) (d : Desc) : Bool :=
  dType d.raw == 2 && d.fail == 0 && !d.ended && decide (d.nextOff < copyLen d.raw) &&
    (decide (d.phase = .begun) || (decide (d.phase = .waiting) && mayBegin s d))

/-- Pieces go to free engines: interactive first, bulk on at most BULK_ENGINES (R134). -/
def dispatchOne (s : State) (e : Nat) : State :=
  if (sget none s.hif.engines e : Option Piece).isSome || s.inReset 3 e || unitHeld s 3 e then s
  else
    let bulkBusy := (s.hif.engines.filter fun x => x.2.any fun p => !(s.ring p.ring).interactive).length
    let pick := match s.hif.descs.find? fun d => copyReady s d && interDesc s d with
      | some d => some d
      | none => if bulkBusy < s.hif.bulkEngines then s.hif.descs.find? fun d => copyReady s d && !interDesc s d else none
    match pick with
    | none => s
    | some d =>
      let n := min 65536 (copyLen d.raw - d.nextOff)
      let p : Piece := ⟨d.ring, d.count, d.nextOff, n⟩
      let s := updDesc s d fun x => { x with phase := .begun, nextOff := x.nextOff + n, open_ := x.open_ + 1 }
      { s with hif := { s.hif with engines := sset none s.hif.engines e (some p) } }

/-- The masters that waiting descriptors test are read (R491), but for those of a job that has ended or is switched out. -/
def scanWaits (s : State) : State :=
  s.hif.descs.foldl (fun s d =>
    if d.phase = .waiting && !parked s (dJob d.raw) && (s.job? (dJob d.raw)).any (·.ending.isNone) then scanWait s d else s) s

/-- Every free engine takes a piece, if one waits. -/
def dispatch (s : State) : State := (List.range 16).foldl dispatchOne (scanWaits s)

/-- After a chip-fatal error a descriptor that has not begun completes with JOB_ENDED, a JOB_START with JOB_FAILED (R622). -/
def fatalEnd (s : State) (d : Desc) : State := complete s d (if dType d.raw == 1 then 0x42 else 0x40) 0

/-- A COPY is over: JOB_ENDED, a failure, with the SEQ of its record where a check failed (R133), or OK with its signal (R120, R143,
R145). -/
def finishCopy (s : State) (d : Desc) : State :=
  if d.open_ != 0 then s
  else if d.ended then complete s d 0x40 0
  else if d.fail != 0 then (if d.fail == 0x30 then completeNamed s d d.fail else complete s d d.fail 0)
  else if d.nextOff < copyLen d.raw then s
  else completeOk s d 0 0

/-- COPY (R131, R132): checks the descriptor; it begins when an engine takes its first piece (R116). -/
def execCopy (ring : Nat) (ph : List Phys) (s : State) : Host.Outcome State Fault Refusal :=
  let s := injectAll s ph
  match unbegun s ring with
  | none => .next s
  | some d =>
    if dType d.raw != 2 || d.phase ≠ .fetched then .next s
    else if s.err.fatal then .next (fatalEnd s d)
    else match copyStatus s d with
      | some st => .next (complete s d st 0)
      | none =>
        .next (dispatch (updDesc s d fun x => { x with phase := .waiting, waitFrom := some s.clk.cycles }))

/-- The write TLPs of a COPY's data: at most 512 bytes each, none across a 512-byte boundary, with Relaxed Ordering (R100; the cut
at the boundaries is a DESIGN CHOICE of log entry 11). -/
def dataTlps : Nat → Nat → Bytes → List Out
  | 0, _, _ => []
  | f + 1, a, b =>
    if b.isEmpty then []
    else
      let k := 512 - a % 512
      .hostWrite a (b.take k) true :: dataTlps f (a + k) (b.drop k)

/-- COPY_PIECE_DONE (R133, R134): an engine finishes its piece. `src` is the host's answer for a piece from the host. -/
def execCopyPieceDone (e : Nat) (src : HostData) (ph : List Phys) (s : State) : Host.Outcome State Fault Refusal :=
  let s := injectAll s ph
  match (sget none s.hif.engines e : Option Piece) with
  | none => .next s
  | some p =>
    let s := { s with hif := { s.hif with engines := sset none s.hif.engines e none } }
    match s.hif.descs.find? fun d => d.ring == p.ring && d.count == p.count with
    | none => .next (dispatch s)
    | some d =>
      let acc := descAccess s d.ring d.count (dJob d.raw)
      let dir := copyDir d.raw
      let (data, s) : Except MemFail Bytes × State :=
        if copyZero d.raw then (.ok (List.replicate p.len 0), s)
        else if dir == 0 then
          (match src with
            | some b => (.ok (slice b 0 p.len), s)
            | none => (.error 0x32, { s with hif := { s.hif with hostErr := true } }))
        else readMem s (copySrc d.raw + p.off) p.len acc
      let (res, s) : Option MemFail × State := match data with
        | .error f => (some f, s)
        | .ok b =>
          if dir == 1 then
            (if canWrite s then (none, { s with out := s.out ++ dataTlps (b.length / 512 + 2) (copyDst d.raw + p.off) b })
             else (some 0x32, { refuseOnce s with hif := { (refuseOnce s).hif with hostErr := true } }))
          else match writeMem s (copyDst d.raw + p.off) b acc with
            | (.ok _, s) => (none, s)
            | (.error f, s) => (some f, s)
      let s := if res.isNone then s.countChip 0x308 p.len else s
      let upd (x : Desc) : Desc :=
        { x with open_ := x.open_ - 1, fail := if x.fail == 0 then res.getD 0 else x.fail }
      let s := updDesc s d upd
      let s := match s.hif.descs.find? fun x => x.ring == p.ring && x.count == p.count with
        | some d => finishCopy s d
        | none => s
      .next (dispatch s)

/-! ### NOP and FENCE (R141, R142) -/

/-- The earliest descriptor of a ring of a type that is not over. -/
def firstOf (s : State) (ring ty : Nat) (p : Desc → Bool) : Option Desc :=
  s.hif.descs.find? fun d => d.ring == ring && dType d.raw == ty && p d &&
    (d.phase = .fetched || d.phase = .waiting || d.phase = .begun)

/-- An earlier descriptor of a ring, by count. -/
def earlier (d x : Desc) : Bool := x.ring == d.ring && x.count != d.count && decide (dist32 d.count x.count < 2 ^ 31)

/-- NOP (R142): completes once every earlier NOP of the ring has completed. -/
def execNop (ring : Nat) (ph : List Phys) (s : State) : Host.Outcome State Fault Refusal :=
  let s := injectAll s ph
  match firstOf s ring 0 fun _ => true with
  | none => .next s
  | some d =>
    if !headerOk d.raw || dFlag d.raw 10 || dFlag d.raw 11 || !(d.raw.drop 0x20).all (· == 0) then .next (complete s d 0x11 0)
    else match (if dJob d.raw == 0 then none else jobStatus s d true) with
      | some st => .next (complete s d st 0)
      | none =>
        if d.phase = .begun then .next (complete s d 0 0)
        else .next (if dFlag d.raw 9 && !alone s d then s else complete (beginNow s d) d 0 0)

/-- The checks of a FENCE: reserved fields, flags that only COPY, PLOT and TABLE may set, its job (R119, R141). -/
def fenceStatus (s : State) (d : Desc) : Option Nat :=
  let b := d.raw
  let body := num b 0x20 4
  if !headerOk b || dFlag b 10 || dFlag b 11 || body / 256 != 0 || body / 4 % 4 != 0 || !(b.drop 0x24).all (· == 0) then some 0x11
  else jobStatus s d (fenceScope b == 0)

/-- One FENCE of a ring: a failed check completes it; one that has begun, or begins now, completes when `isOver` says so. -/
def runFence (status : State → Desc → Option Nat) (isOver : State → Desc → Bool) (last : State → Desc → State) (s : State) (d : Desc) :
    State :=
  match status s d with
  | some st => complete s d st 0
  | none =>
    let s := beginNow s d
    match s.hif.descs.find? fun x => x.ring == d.ring && x.count == d.count with
    | some d => if d.phase = .begun && isOver s d then complete (last s d) d 0 0 else s
    | none => s

/-- The FENCEs of a SCOPE on a ring that are not over, in ring order. -/
def fencesOf (s : State) (ring scope : Nat) : List Desc :=
  s.hif.descs.filter fun d => d.ring == ring && dType d.raw == 5 && fenceScope d.raw == scope && (d.phase = .fetched || d.phase = .begun)

/-- A FENCE of SCOPE 0 is over (R141): no earlier descriptor of the ring but JOB_STARTs is left. -/
def ringOver (s : State) (d : Desc) : Bool := !s.hif.descs.any fun x => earlier d x && dType x.raw != 1

/-- A FENCE of SCOPE 1 is over (R141): nothing is left of what had begun before it. -/
def jobOver (s : State) (d : Desc) : Bool := !s.hif.descs.any fun x => d.waits.contains (x.ring, x.count)

/-- FENCE, SCOPE 0 (R141), of a ring: each that can completes. -/
def execFenceRing (ring : Nat) (ph : List Phys) (s : State) : Host.Outcome State Fault Refusal :=
  let s := injectAll s ph
  .next ((fencesOf s ring 0).foldl (runFence fenceStatus ringOver fun s _ => s) s)

/-- FENCE, SCOPE 1 (R141), of a ring: each that can completes. -/
def execFenceJob (ring : Nat) (ph : List Phys) (s : State) : Host.Outcome State Fault Refusal :=
  let s := injectAll s ph
  .next ((fencesOf s ring 1).foldl (runFence fenceStatus jobOver fun s _ => s) s)

/-! ### Waits and moderation -/

/-- The wait timeout of a job in core cycles (R124). -/
def waitTimeout (j : Job) : Nat := if j.params.waitTimeout == 0 then 1048576 else j.params.waitTimeout

/-- WAIT_TIMEOUT (R119): the cairn wait of a ring's waiting descriptor reaches the job's timeout. It counts from the descriptor's
checks, also while ORDERED holds it (DESIGN CHOICE; log entry 40). -/
def execWaitTimeout (ring : Nat) (s : State) : Host.Outcome State Fault Refusal :=
  match unbegun s ring with
  | none => .next s
  | some d =>
    match s.job? (dJob d.raw), d.waitFrom with
    | some j, some t =>
      if d.phase ≠ .waiting || !dFlag d.raw 10 || parked s j.id then .next s
      else
        let s := scanWait (s.untilCycle (t + (waitTimeout j - d.waited))) d
        if cairnReached s d then .next s else .next (complete s d 0x15 0)
    | _, _ => .next s

/-- MSIX_MOD_TIMEOUT (R148): the oldest pending completion of a vector reaches TIME microseconds. -/
def execMsixModTimeout (v : Nat) (s : State) : Host.Outcome State Fault Refusal :=
  let m : Mod := sget {} s.hif.mods v
  if m.time == 0 || m.pending == 0 then .next s
  else .next (sendVector (s.untilPs (m.oldest + m.time * 1000000)) v)

/-! ### PCIe (R99, R102, R726) -/

/-- PCIE_LINK_UP (R99, R100): link training ends at a width and a rate. -/
def execPcieLinkUp (width : Nat) (setup : LinkSetup) (s : State) : Host.Outcome State Fault Refusal :=
  let low := width < 16 || setup.rate < 64
  let s := { s with hif := { s.hif with linkUp := true, width, rate := setup.rate, degraded := low, ecrc := setup.ecrc } }
  .next (if low then raiseChip s 0x7103 0 5 0 0 [width, setup.rate] else s)

/-- ECRC_MISMATCH (R100, R102): with ECRC enabled, a received TLP fails it; it is dropped and reported through AER. -/
def execEcrcMismatch (w0 w1 w2 w3 : Nat) (s : State) : Host.Outcome State Fault Refusal :=
  if !s.hif.ecrc then .next s
  else .next (raiseChip (s.emit (.aer 0x13 [w0, w1, w2, w3])) 0x7102 1 5 0 0 [w0, w1, w2, w3])

/-- UNSUPPORTED_REQUEST (R726): a TLP beyond the sizes or across 4 KiB has no effect but an AER report. A TLP within them
is no Unsupported Request. -/
def execUnsupportedRequest (write : Bool) (addr : Nat) (tlp : TlpInfo) (s : State) : Host.Outcome State Fault Refusal :=
  if (write && 8 < tlp.len) || (!write && 64 < tlp.len) || 4096 < addr % 4096 + tlp.len then .next (s.emit (.aer 0x14 tlp.header))
  else .next s

end Sys2Proof.Machine
end

