-- ==== Sys2Proof/Machine/Images.lean ====
section
/-! DEFINITION. Program images and job parameter blocks: reading them and checking them (R124, R125, R200 to R209, R57). -/

namespace Sys2Proof.Machine

open Sys2Proof

/-- A section of an image: offset, entries, entry length. -/
structure Section where
  off : Nat
  count : Nat
  size : Nat
  deriving DecidableEq, Repr

/-- Bytes of a section. -/
def Section.len (x : Section) : Nat := x.count * x.size

/-- The entries of a section. -/
def Section.entries (x : Section) (b : Bytes) : List Bytes :=
  (List.range x.count).map fun k => slice b (x.off + k * x.size) x.size

/-- The eight sections of an image (R200, R201): segments, regions, cells, tables, sheets, streams, lives, initial. -/
def sections (b : Bytes) : List Section :=
  [⟨num b 0x40 4, num b 0x28 2, 32⟩, ⟨num b 0x44 4, num b 0x2A 2, 4⟩, ⟨num b 0x48 4, num b 0x2C 2, 24⟩,
   ⟨num b 0x4C 4, num b 0x2E 2, 8⟩, ⟨num b 0x50 4, num b 0x30 4, 16⟩, ⟨num b 0x54 4, num b 0x34 4, 16⟩,
   ⟨num b 0x58 4, num b 0x38 4, 4⟩, ⟨num b 0x5C 4, num b 0x60 4, 1⟩]

/-- A section lies between the header and the trailer, on a 64-byte boundary (R200). -/
def sectionOk (n : Nat) (x : Section) : Bool :=
  x.len == 0 || (x.off % 64 == 0 && decide (128 ≤ x.off) && decide (x.off + x.len ≤ n - 8))

/-- Two non-empty sections do not overlap (R200). -/
def apart (x y : Section) : Bool :=
  x.len == 0 || y.len == 0 || decide (x.off + x.len ≤ y.off) || decide (y.off + y.len ≤ x.off)

/-- Every pair of a list passes. -/
def allPairs {α : Type} (p : α → α → Bool) : List α → Bool
  | [] => true
  | x :: xs => xs.all (p x) && allPairs p xs

/-- The header, trailer and sections are well formed (R200, R201). -/
def frameOk (b : Bytes) (len : Nat) : Bool :=
  b.length == len && len % 64 == 0 && decide (136 ≤ len) && num b 0 4 == 0x0043544A && num b 6 2 == 1 &&
  num b 8 4 == len && num b (len - 8) 4 == crc32c (b.take (len - 8)) && num b (len - 4) 4 == 0 &&
  num b 0x0C 4 < 2 ^ 23 && num b 0x14 4 < 2 ^ 13 && num b 0x3C 4 == 0 && (slice b 0x68 24).all (· == 0) &&
  (sections b).all (sectionOk len) && allPairs apart (sections b)

/-- A segment entry (R202) and whether its reserved bits and limits hold. -/
def readSeg (e : Bytes) : Seg × Bool :=
  let w := num e 0x18 4
  (⟨num e 0 8, num e 8 5, num e 0x10 4, num e 0x14 4, bit w 0, bit w 1⟩,
   num e 0 8 % 4096 == 0 && num e 8 5 % 4096 == 0 && num e 0xD 3 == 0 && num e 0x14 4 % 64 == 0 &&
   decide (num e 0x14 4 ≤ num e 8 5) && (num e 0x14 4 != 0 || num e 0x10 4 == 0) && w < 4 && num e 0x1C 4 == 0)

/-- A virtual region entry (R203). -/
def readRegion (e : Bytes) : VRegion × Bool :=
  let w := num e 0 4
  (⟨bits w 4 0, bits w 12 8, bits w 20 16, bit w 21⟩, bits w 7 5 == 0 && bits w 15 13 == 0 && w < 2 ^ 22)

/-- A virtual cell entry (R204). -/
def readCell (e : Bytes) : VCell × Bool :=
  let w := num e 0 4
  let x := num e 4 4
  let v := bits w 12 0
  let g := bits x 12 8
  (⟨v, bits w 28 16, bits x 6 0, bit x 7, g, num e 8 4, num e 0xC 4, num e 0x10 4⟩,
   validCell v && bits w 15 13 == 0 && w < 2 ^ 29 && x < 2 ^ 13 && num e 0x14 4 == 0 && decide (bits x 6 0 ≤ 64) &&
   (decide (kindOf v = .M) || bits x 6 0 == 0) && decide (1 ≤ g) && decide (g ≤ granules (kindOf v)))

/-- A table declaration (R208). -/
def readDecl (e : Bytes) : TableDecl × Bool :=
  let w := num e 0 4
  (⟨bits w 7 0, bits w 23 8, num e 4 4⟩,
   decide (1 ≤ bits w 7 0) && decide (bits w 7 0 ≤ 3) && w < 2 ^ 24 && num e 4 4 % 64 == 0)

/-- A sheet table entry (R205). -/
def readSheet (e : Bytes) : SheetEnt × Bool :=
  (⟨num e 0 3, num e 4 4, num e 8 5, num e 0xD 3⟩, num e 3 1 == 0 && decide (1 ≤ num e 4 4) && num e 8 5 % 64 == 0)

/-- A stream segment entry (R206). -/
def readStream (e : Bytes) : StreamEnt × Bool :=
  let w := num e 0 4
  (⟨bits w 7 0, bits w 27 16, num e 4 4, num e 8 4⟩,
   bits w 15 8 == 0 && w < 2 ^ 28 && decide (1 ≤ bits w 27 16) && decide (bits w 27 16 ≤ 2048) && num e 0xC 4 == 0)

/-- A live-range entry (R207). -/
def readLive (e : Bytes) : LiveEnt × Bool :=
  let w := num e 0 4
  (⟨bits w 8 0, bits w 17 9, bit w 31⟩,
   decide (1 ≤ bits w 17 9) && decide (bits w 17 9 ≤ 384) && bits w 30 18 == 0)

/-- The image and whether every entry is well formed. -/
def readImage (b : Bytes) : Image × Bool :=
  let sec (k : Nat) : List Bytes := ((sections b).getD k ⟨0, 0, 0⟩).entries b
  let segs := (sec 0).map readSeg
  let regions := (sec 1).map readRegion
  let cells := (sec 2).map readCell
  let tables := (sec 3).map readDecl
  let sheets := (sec 4).map readSheet
  let streams := (sec 5).map readStream
  let lives := (sec 6).map readLive
  ({ major := num b 4 1, minor := num b 5 1, period := num b 0xC 3 % 2 ^ 23, sheetCount := num b 0x10 4,
     lead := num b 0x14 2 % 2 ^ 13, forecast := [num b 0x18 4, num b 0x1C 4, num b 0x20 4, num b 0x24 4],
     saveMin := num b 0x64 4, segs := segs.map (·.1), regions := regions.map (·.1), cells := cells.map (·.1),
     tables := tables.map (·.1), sheets := sheets.map (·.1), streams := streams.map (·.1), lives := lives.map (·.1),
     raw := b },
   segs.all (·.2) && regions.all (·.2) && cells.all (·.2) && tables.all (·.2) && sheets.all (·.2) && streams.all (·.2)
   && lives.all (·.2))

/-- The counts lie in their ranges (R201). -/
def countsOk (i : Image) : Bool :=
  let within (n lo hi : Nat) : Bool := decide (lo ≤ n) && decide (n ≤ hi)
  within i.segs.length 1 256 && within i.regions.length 1 32 && within i.cells.length 1 4608 &&
  within i.tables.length 0 1024 && decide (1 ≤ i.sheetCount) && i.saveMin % 4096 == 0

/-- A cell's sheet table entries. -/
def sheetEnts (i : Image) (v : VCell) : List SheetEnt := (i.sheets.drop v.sheetFirst).take v.sheetEntries

/-- A live-range list ends inside its table (R207). -/
def liveOk (i : Image) (k : Nat) : Bool := k == 0xFFFFFFFF || (i.lives.drop k).any (·.last)

/-- The rules between an image's tables (R202, R203, R205, R208, R209). DESIGN CHOICE (log entry 43): two region entries of one VREGION,
and two cell entries of one VCELL or of one PCELL, which no rule lists, fail the check. -/
def tablesOk (i : Image) : Bool :=
  let init : Nat × Nat := (num i.raw 0x5C 4, num i.raw 0x60 4)
  i.segs.all (fun g => (g.initLen == 0 || (decide (init.1 ≤ g.initOff) && decide (g.initOff + g.initLen ≤ init.1 + init.2)))
    && !(g.code && g.writable)) &&
  i.regions.all (fun r => !r.paired || i.regions.any fun p =>
    p.vregion == r.pair && p.paired && p.pair == r.vregion && p.vregion / 16 != r.vregion / 16) &&
  allPairs (fun (x y : VRegion) => x.vregion != y.vregion) i.regions &&
  allPairs (fun (x y : VCell) => x.vcell != y.vcell && x.pcell != y.pcell) i.cells &&
  allPairs (fun (x y : TableDecl) => !(x.kind == y.kind && x.id == y.id)) i.tables &&
  i.cells.all (fun v =>
    decide (v.sheetFirst + v.sheetEntries ≤ i.sheets.length) &&
    ((sheetEnts i v).map (·.count)).foldl (· + ·) 0 == i.sheetCount) &&
  i.sheets.all (fun e => decide (e.stream < i.streams.length)) &&
  i.streams.all (fun t => liveOk i t.live && match i.segs[t.seg]? with
    | some g => g.code && decide (t.offset * 16 + t.len * 16 ≤ g.len)
    | none => false) &&
  i.cells.any (fun v => v.vcell == i.lead && decide (kindOf v.vcell = .S))

/-- The region a virtual region maps to. -/
def regionMap (i : Image) (vr : Nat) : Option Nat := (i.regions.find? fun r => r.vregion == vr).map (·.pregion)

/-- The placement keeps the kind, block, region and column rules (R57, R209). DESIGN CHOICE (log entry 43): a cell whose virtual
region has no entry in the region table fails. -/
def placementOk (i : Image) : Bool :=
  i.cells.all (fun v =>
    validCell v.pcell && decide (kindOf v.pcell = kindOf v.vcell) && regionMap i (regionOf v.vcell) == some (regionOf v.pcell)) &&
  allPairs (fun (x y : VCell) => (x.vcell / 16 == y.vcell / 16) == (x.pcell / 16 == y.pcell / 16)) i.cells &&
  i.regions.all (fun r => (r.paired || r.vregion / 16 == r.pregion / 16) && (!r.paired || match regionMap i r.pair with
    | some p => columnOf p == columnOf r.pregion && p != r.pregion
    | none => false))

/-- The image passes IMAGE_CHECK (R127, R209). -/
def imageOk (b : Bytes) (len : Nat) : Bool :=
  frameOk b len && (let (i, ok) := readImage b; ok && countsOk i && tablesOk i && placementOk i)

/-- A bounds window (R125) and whether a used one keeps its reserved bits zero. -/
def readWindow (e : Bytes) : Window × Bool :=
  let b := num e 0 8
  let l := num e 8 8
  let used := b % 8 != 0
  (⟨bits b 47 12 * 4096, bits l 47 12 * 4096, bit b 0, bit b 1, bit b 2⟩,
   !used || (bits b 11 3 == 0 && bits l 11 0 == 0 && b < 2 ^ 48 && l < 2 ^ 48 && decide (b / 4096 < l / 4096)))

/-- The job parameter block (R124) and whether its fields are in range, apart from the windows' memory (R127). DESIGN CHOICE (log entry
40): bits [15:12] of word 0x14, which stand in no row of the table, must be zero as reserved bits must. -/
def readParams (b : Bytes) (inter : Bool) : Params × Bool :=
  let f := num b 0 4
  let cw := num b 0x14 4
  let ws := (List.range 4).map fun k => readWindow (slice b (0x20 + 16 * k) 16)
  ({ deadlockMode := f % 4, glideOff := bit f 2, group := bit f 3, twin := bit f 4, waitTimeout := num b 4 4,
     saveAddr := num b 8 8, saveLen := num b 0x10 4, cairnBase := bits cw 11 0, cairnCount := bits cw 28 16,
     windows := (ws.map (·.1)).filter fun w => w.read || w.write || w.plot },
   f < 32 && f % 4 != 3 && bits cw 15 12 == 0 && cw < 2 ^ 29 && decide (1 ≤ bits cw 28 16) &&
   decide (bits cw 11 0 + bits cw 28 16 ≤ 4096) && num b 0x18 8 == 0 && (slice b 0x60 160).all (· == 0) &&
   ws.all (·.2) && (inter || num b 8 8 % 4096 == 0))

/-- A range lies in the usable, that is backed, device memory (R127, R407). Whole GiB chunks of the plotting range and
whole runs of the plain range are tested. -/
def usable (s : State) (a n : Nat) : Bool :=
  let top := 0x6000000000 + s.plain.length * 2 ^ 37
  decide (a + n ≤ top) &&
  ((List.range 4).all fun k => !(s.stackPlan (8 + k)).fenced ||
    !((List.range 96).any fun c => let lo := (c * 4 + k) * 2 ^ 30; decide (lo < a + n) && decide (a < lo + 2 ^ 30))) &&
  (decide (a + n ≤ 0x6000000000) || s.plain.all fun k => !(s.stackPlan k).fenced ||
    !((List.range (min 9 (n / 4096 + 2))).any fun j =>
      let x := max a 0x6000000000 + j * 4096
      decide (x < a + n) && s.plain.getD ((x - 0x6000000000) / 4096 % s.plain.length) 0 == k))

end Sys2Proof.Machine
end

