-- ==== Sys2Proof/Machine/Jobs.lean ====
section
/-! DEFINITION. The life of a job: start, preparation, stream segments, save and restore, clearing, end
(R84 to R90, R122 to R130, R145, R163 to R166, R210, R758, R760, R761). -/

namespace Sys2Proof.Machine

open Sys2Proof

/-! ### Columns and forecasts (R80 to R84) -/

/-- The columns in which a job holds a region (R83). -/
def jobColumns (j : Job) : List Nat := ((jobCells j).map fun c => columnOf (regionOf c)).dedup

/-- The forecast word of a job for a sheet; a word that no one posted counts as high (R82). -/
def forecastWord (j : Job) (sheet : Nat) : Nat := sget 0xFFFFFFFF j.forecasts sheet

/-- The level of a column for the sheet `k` ahead of the one now open (R80, R83): the highest among the running jobs that
hold a region there. A job whose next sheet is still to open has no level now, and a job none beyond its last sheet. -/
def columnLevel (s : State) (c k : Nat) : Nat :=
  (s.jobs.map fun j =>
    if (j.phase = .running || (decide (0 < k) && (j.phase = .ready || j.phase = .restored))) && (jobColumns j).contains c
        && decide (j.sheet + k ≤ j.image.sheetCount) then
      bits (forecastWord j (j.sheet + k)) (2 * c + 1) (2 * c) else 0).foldl max 0

/-! ### Streams (R162 to R166, R205, R206) -/

/-- The entry that covers sheet `n` (from 1) of a list, with the index of the sheet in it. -/
def sheetAt : List SheetEnt → Nat → Option (SheetEnt × Nat)
  | [], _ => none
  | e :: es, n => if n ≤ e.count then some (e, n - 1) else sheetAt es (n - e.count)

/-- The stream entry and bias of a cell's sheet (R205). -/
def segmentOf (i : Image) (v : VCell) (sheet : Nat) : Option (StreamEnt × Nat) :=
  match sheetAt (sheetEnts i v) sheet with
  | some (e, k) => (i.streams[e.stream]?).map fun t => (t, e.bias + k * e.step * 4096)
  | none => none

/-- Fetches a stream segment for a cell from device memory (R165): its 128-bit words. -/
def fetchSegment (s : State) (j : Job) (c : Nat) (t : StreamEnt) : Option (List Nat) × State :=
  match j.image.segs[t.seg]? with
  | none => (none, s)
  | some g =>
    match readMem s (g.base + t.offset * 16) (t.len * 16) { cell := some c, job := j.id, src := srcCell c } with
    | (.ok b, s) => (some ((List.range t.len).map fun k => num b (16 * k) 16), s)
    | (.error _, s) => (none, s)

/-- STREAM_SEGMENT_FETCH (R165): the fetch of a cell's segment ends: the open sheet's if it is still missing, else the
next sheet's, into the other half. -/
def execStreamSegmentFetch (c : Nat) (ph : List Phys) (s : State) : Host.Outcome State Fault Refusal :=
  let s := injectAll s ph
  let q := (s.cell c).seq
  match s.job? q.job with
  | none => .next s
  | some j =>
    let now := !q.fetched && j.phase = .running
    let sheet := if now then j.sheet else j.sheet + 1
    if j.ending.isSome || q.next.isSome then .next s
    else match (j.image.cells[q.vindex]?).bind fun v => segmentOf j.image v sheet with
      | none => .next s
      | some (t, _) =>
        match fetchSegment s j c t with
        | (none, s) => .next s
        | (some ws, s) =>
          if now then
            .next ((s.updSeq c fun q => { q with stream := ws, live := t.live, fetched := true }).countCell 0x00E c s.sinceTick)
          else .next (s.updSeq c fun q => { q with next := some (ws, t.live) })

/-- A cell's sheet opens: the fetched segment becomes current (R165). -/
def openCell (s : State) (c : Nat) : State :=
  s.updSeq c fun q =>
    let q := { q with index := 0, done := false, slept := 0, yields := false, ended := false, halted := false, issued := false }
    match q.next with
    | some (ws, l) => { q with stream := ws, live := l, fetched := true, next := none }
    | none => { q with stream := [], fetched := false }

/-! ### Clearing (R87, R387) -/

/-- Clears a cell at a context switch, but for its stash: the accumulators of its good banks (R244), and its block's predicates
and extents. -/
def clearCore (s : State) (c : Nat) : State :=
  let gone (k : Nat) : Bool := bit (s.cellPlan c).banksGone (k / 4096)
  let s := s.updMm c fun m => { m with acc := skeep gone m.acc, accBad := skeep gone m.accBad }
  s.updBlock (blockIndex c) fun b => { b with preds := 0, extents := [] }

/-- Clears a cell at a context switch (R87, R387). -/
def clearCell (s : State) (c : Nat) : State := clearCore (clearWritten s c) c

/-- Clears the copies of a range of cairns and what is on its way to them. -/
def clearCairns (s : State) (base n : Nat) : State :=
  let inside (k : Nat) : Bool := decide (base ≤ k % 4096) && decide (k % 4096 < base + n)
  { s with syn := { s.syn with copies := skeep (fun k => !inside k) s.syn.copies, bad := skeep (fun k => !inside k) s.syn.bad,
                               inFlight := s.syn.inFlight.filter fun e => !inside e.1 } }

/-- The written bits of a clearing wait: its own job's live ranges are still being saved, or another's that held one of its cells
(R88, R387). -/
def stashWaits (s : State) (k : Clear) : Bool := k.save || s.clearing.any fun x => x.save && x.cells.any k.cells.contains

/-- A clearing whose other parts are over clears the written bits once no save needs them, and ends. -/
def endClear (s : State) (k : Clear) : State :=
  if !k.cleared || stashWaits s k then s
  else k.cells.foldl clearWritten { s with clearing := s.clearing.filter fun x => decide (x ≠ k) }

/-- A save is over or given up: the written bits that waited for it are cleared. -/
def endSave (s : State) (job : Nat) : State :=
  let s := { s with clearing := s.clearing.map fun (k : Clear) => if k.job == job then { k with save := false } else k }
  s.clearing.foldl endClear s

/-- The clearing of a job's cells and cairns takes effect; the stash's part may wait for a save. -/
def clearNow (s : State) (k : Clear) : State :=
  let s := clearCairns (k.cells.foldl clearCore s) k.cairnBase k.cairnCount
  let k' := { k with cleared := true }
  endClear { s with clearing := s.clearing.map fun x => if x = k then k' else x } k'

/-- A clearing touches a job's cells or cairns. -/
def clearTouches (k : Clear) (j : Job) : Bool :=
  k.cells.any (jobCells j).contains ||
  (decide (k.cairnBase < j.params.cairnBase + j.params.cairnCount) && decide (j.params.cairnBase < k.cairnBase + k.cairnCount))

/-- A clearing that an emergency stop put off waits for the part to resume, and for the wake of the regions it lies in (R613). -/
def clearPutOff (s : State) (k : Clear) : Bool :=
  k.noLimit && (s.thm.stopped || k.cells.any fun c => (s.region (regionOf c)).pw.gated)

/-- CONTEXT_CLEAR_DONE (R87): the oldest clearing begun for a job ends, within 8,192 core cycles of the tick; only the written bits
wait for a save (R387). One put off by a stop takes place as its regions wake (R613). -/
def execContextClearDone (job : Nat) (s : State) : Host.Outcome State Fault Refusal :=
  match s.clearing.find? fun k => k.job == job && !k.cleared with
  | none => .next s
  | some k => .next (if clearPutOff s k || (!k.noLimit && decide (k.since + 8192 < s.clk.cycles)) then s else clearNow s k)

/-- CLEAR_TIMEOUT (R89): the clearing of a job passes 8,192 core cycles. It is chip-fatal. -/
def execClearTimeout (job : Nat) (s : State) : Host.Outcome State Fault Refusal :=
  match s.clearing.find? fun k => k.job == job && !k.cleared && !k.noLimit with
  | none => .next s
  | some k => .next (raiseChip (s.untilCycle (k.since + 8193)) 0x3104 3 0x0A 0 job [])

/-! ### Cells change hands (R365) -/

/-- A job's cells are given to it: granule map and bank run as they stand now (R241, R365). -/
def giveCells (s : State) (j : Job) : State :=
  (j.image.cells.zipIdx).foldl (fun s e =>
    let c := e.1.pcell
    let gran := s.goodGranules c
    let banks := s.goodBanks c
    s.updSeq c fun _ => { job := j.id, vindex := e.2, gran, banks }) s

/-- A job's cells are taken from it; a cell that another job runs on stays. -/
def takeCells (s : State) (j : Job) : State :=
  (jobCells j).foldl (fun s c => if (s.cell c).seq.job == j.id then s.updSeq c fun _ => {} else s) s

/-! ### JOB_START (R123 to R130, R538) -/

/-- Other jobs that hold a cell or a cairn of this one (R127, R128). -/
def rivals (s : State) (j : Job) : List Job :=
  s.jobs.filter fun k => k.id != j.id && k.phase ≠ .claiming &&
    ((jobCells k).any (jobCells j).contains ||
     (decide (k.params.cairnBase < j.params.cairnBase + j.params.cairnCount) &&
      decide (j.params.cairnBase < k.params.cairnBase + k.params.cairnCount)))

/-- A rival that has already yielded to an interactive job (R90). -/
def yielded (k : Job) : Bool := k.phase = .preempted || k.phase = .saving

/-- Every placed cell is good, large enough, and under no held fence request (R56, R127). -/
def cellsFit (s : State) (i : Image) : Bool :=
  i.cells.all fun v =>
    s.goodCell v.pcell && decide (v.accTiles ≤ 16 * (s.goodBanks v.pcell).length) &&
    decide (v.stashGran ≤ (s.goodGranules v.pcell).length) &&
    !(s.svy.request.any fun q => match q.2 with
      | 0 => v.pcell == q.1
      | 1 => v.pcell / 16 == q.1 / 16
      | _ => v.pcell / 256 == q.1 / 256)

/-- The checks of JOB_START that follow the fetches, in the order of R127: the first failure's status, or the new job. -/
def startChecks (s : State) (d : Desc) (param image : Bytes) : Except Nat Job :=
  let inter := (s.ring d.ring).interactive
  let id := dJob d.raw
  let len := num d.raw 0x30 4
  let (p, pOk) := readParams param inter
  if !pOk || !(p.windows.all fun w => usable s w.base (w.limit - w.base)) then .error 0x11
  else if (p.group || p.twin) && (!s.sht.groupActive || (p.twin && s.grp.topology == 0)) then .error 0x11
  else if (p.group || p.twin) && s.jobs.any (fun k => (k.params.group || k.params.twin) && k.id % 4 == id % 4) then .error 0x12
  else if !imageOk image len then .error 0x20
  else
    let i := (readImage image).1
    if i.major != 1 || 0 < i.minor then .error 0x24
    else if i.period != s.sht.nextPeriod.getD s.sht.period then .error 0x21
    else if !inter && p.saveLen < i.saveMin then .error 0x11
    else
      let j : Job := { id, interactive := inter, ring := d.ring, count := d.count, params := p, image := i,
                       phase := .preparing, claimedAt := s.clk.cycles,
                       forecasts := (i.forecast.zipIdx).foldl (fun m e => sput m (e.2 + 1) e.1) [] }
      if !(i.segs.all fun g => inWindow j (·.write) g.base g.len) ||
          (!inter && !inWindow j (·.write) p.saveAddr p.saveLen) then .error 0x13
      else if !cellsFit s i then .error 0x23
      else
        let rs := rivals s j
        if rs.isEmpty then .ok j
        else if !inter || rs.any (·.interactive) then .error 0x22
        else if rs.all yielded then .ok j
        else .ok { j with phase := .claiming }

/-- The checks of JOB_START that precede the fetches (R127). -/
def startFields (s : State) (d : Desc) : Option Nat :=
  let b := d.raw
  if !headerOk b || dFlag b 10 || dFlag b 11 || num b 0x34 4 != 256 || num b 0x38 8 != 0 || num b 0x20 8 % 64 != 0
      || num b 0x28 8 % 64 != 0 then some 0x11
  else if dJob b == 0 || (s.job? (dJob b)).isSome then some 0x12
  else if 64 ≤ s.jobs.length then some 0x25 else none

/-- A job takes its cells and starts to prepare: its context switch begins (R87, R210, R387). -/
def beginPrepare (s : State) (j : Job) : State :=
  let s := giveCells s j
  { s with clearing := s.clearing ++
      [⟨j.id, jobCells j, j.params.cairnBase, j.params.cairnCount, s.clk.cycles, false, s.thm.stopped, false⟩] }

/-- JOB_START (R123, R127): checks the descriptor; the host answers the parameter block and the image. An ORDERED
descriptor waits for every earlier one (R117). -/
def execJobStart (ring : Nat) (param image : HostData) (ph : List Phys) (s : State) : Host.Outcome State Fault Refusal :=
  let s := injectAll s ph
  match unbegun s ring with
  | none => .next s
  | some d =>
    if dType d.raw != 1 || d.phase ≠ .fetched then .next s
    else if s.err.fatal then .next (fatalEnd s d)
    else if dFlag d.raw 9 && !alone s d then .next s
    else match startFields s d with
      | some st => .next (complete s d st 0)
      | none =>
        let slot := d.count % ringSize (s.ring ring)
        match param, image with
        | none, _ => .next (complete (hostFail s 2 ring slot (num d.raw 0x28 8)) d 0x32 0)
        | _, none => .next (complete (hostFail s 1 ring slot (num d.raw 0x20 8)) d 0x32 0)
        | some p, some i =>
          match startChecks s d (slice p 0 256) i with
          | .error st => .next (complete s d st 0)
          | .ok j =>
            let s := updDesc s d fun x => { x with phase := .waiting }
            let s := { s with jobs := s.jobs ++ [j], tables := s.tables.filter fun t => t.job != j.id }
            .next (if j.phase = .claiming then s else beginPrepare s j)

/-! ### Leaving (R145, R761) -/

/-- The JOB_START descriptor of a job. -/
def startDesc (s : State) (j : Job) : Option Desc := s.hif.descs.find? fun d => d.ring == j.ring && d.count == j.count

/-- What the end of a job does to one of its descriptors (R145). -/
def endDesc (j : Job) (s : State) (d : Desc) : State :=
  if dJob d.raw != j.id || (d.ring == j.ring && d.count == j.count) || dType d.raw == 1 then s
  else match dType d.raw, d.phase with
    | 2, .begun => finishCopy (updDesc s d fun x => { x with ended := true }) { d with ended := true }
    | 3, .begun => updDesc s d fun x => { x with ended := true }
    | _, .naming _ => s
    | _, _ => complete s d 0x40 0

/-- A job leaves (R145, R394, R460): its descriptors, tables, plot sequences and reduction groups; its cells where `holds` says that it
has them; marked granules of its cells retire once no other job holds them. -/
def releaseJob (s : State) (j : Job) (holds : Bool) : State :=
  let s := s.hif.descs.foldl (endDesc j) s
  let s := { s with tables := s.tables.filter fun t => t.job != j.id,
                    reds := s.reds.filter fun g => g.job != j.id }
  let cancel (q : PlotSeq) : PlotSeq := if q.job == j.id then { q with cancel := true } else q
  let s := (upto 8 4).foldl (fun s n => s.updStack n fun x =>
    { x with bulkQ := x.bulkQ.map cancel, interQ := x.interQ.map cancel,
             doneSeqs := x.doneSeqs.filter fun q => q.job != j.id }) s
  let s := if holds then takeCells s j else s
  (jobCells j).foldl retireGranules (endSave { s with jobs := s.jobs.filter fun x => x.id != j.id } j.id)

/-- A fence request takes effect when no job uses the unit (R56). -/
def applyRequest (s : State) : State :=
  match s.svy.request with
  | none => s
  | some (u, lvl) =>
    let cs := match lvl with
      | 0 => [u]
      | 1 => blockCells (blockIndex u)
      | _ => (upto (regionOf u * 12) 12).flatMap blockCells
    if s.jobs.any fun j => j.phase ≠ .claiming && (jobCells j).any cs.contains then s
    else
      let s := { s with svy := { s.svy with request := none } }
      match lvl with
      | 0 => fenceCell s u 0xC
      | 1 => fenceBlock s (blockIndex u) 0xC
      | _ => fenceRegion s (regionOf u) 0xC

/-- A job leaves before its first sheet: a failed preparation or claim, or a ring reset (R156, R761). -/
def dropJob (s : State) (j : Job) : State :=
  applyRequest (releaseJob s j (decide (j.phase ≠ .claiming)))

/-! ### Preparation (R210, R761) -/

/-- Copies the segments' initial contents (R210, step 1). -/
def copyInitial (s : State) (j : Job) : Except MemFail Unit × State :=
  j.image.segs.foldl (fun (r : Except MemFail Unit × State) g =>
    match r.1 with
    | .error _ => r
    | .ok _ => writeMem r.2 g.base (slice j.image.raw g.initOff g.initLen) (descAccess s j.ring j.count j.id)) (.ok (), s)

/-- Seeds the generators of the M and V cells (R210, step 3; R295); a SEED of 0 loads 1 (R286). -/
def seedCells (s : State) (j : Job) : State :=
  j.image.cells.foldl (fun s v =>
    if kindOf v.pcell = .S then s else s.updMisc v.pcell fun m => { m with rng := if v.seed == 0 then 1 else v.seed }) s

/-- Fetches every cell's first segment (R210, step 4). -/
def fetchFirst (s : State) (j : Job) : State :=
  j.image.cells.foldl (fun s v =>
    match segmentOf j.image v 1 with
    | none => s
    | some (t, _) => match fetchSegment s j v.pcell t with
      | (some ws, s) => s.updSeq v.pcell fun q => { q with next := some (ws, t.live) }
      | (none, s) => s) s

/-- JOB_PREPARE_DONE (R210, R761): the preparation of a job ends. -/
def execJobPrepareDone (job : Nat) (ph : List Phys) (s : State) : Host.Outcome State Fault Refusal :=
  let s := injectAll s ph
  match s.job? job with
  | none => .next s
  | some j =>
    if j.phase ≠ .preparing || j.ending.isSome then .next s
    else
      match copyInitial s j with
      | (.error f, s) =>
        let s := dropJob s j
        .next (match startDesc s j with
          | some d => completeNamed s d f
          | none => s)
      | (.ok _, s) =>
        let s := fetchFirst (seedCells s j) j
        .next (s.updJob job fun x => { x with phase := .ready })

/-! ### Save and restore (R87, R88, R126, R760) -/

/-- Length of a byte string padded to 4 KiB. -/
def pad4k (n : Nat) : Nat := cdiv n 4096 * 4096
/-- A byte string padded with zeros to a multiple of 4 KiB. -/
def padTo4k (b : Bytes) : Bytes := b ++ List.replicate (pad4k b.length - b.length) 0

/-- The live ranges of an index: up to and including the first entry with LAST (R207). -/
def liveRanges (i : Image) (k : Nat) : List LiveEnt :=
  if k == 0xFFFFFFFF then []
  else
    let t := i.lives.drop k
    (t.takeWhile fun e => !e.last) ++ ((t.find? (·.last)).map fun e => [e]).getD []

/-- The live ranges a pre-empted job saves: (physical cell, range), in table order (R126). -/
def savedRanges (j : Job) : List (Nat × LiveEnt) :=
  j.liveAt.flatMap fun e => (liveRanges j.image e.2).map fun r => (e.1, r)

/-- The job's virtual blocks, ascending, each with the index of its physical block. -/
def vblocks (j : Job) : List (Nat × Nat) :=
  ((List.range 512).filterMap fun vb => (j.image.cells.find? fun v => v.vcell / 16 == vb).map fun v => (vb, blockIndex v.pcell))

/-- Bytes of the sections before the live ranges (R126). -/
def saveHead (j : Job) : Nat :=
  4096 + cdiv j.params.cairnCount 1024 * 4096 + cdiv (vblocks j).length 32 * 4096 + cdiv j.image.cells.length 1024 * 4096

/-- Bytes of live ranges. -/
def saveLive (j : Job) : Nat := ((savedRanges j).map fun e => pad4k (e.2.lenKib * 1024)).foldl (· + ·) 0

/-- The block-state record of a block (R126). -/
def blockRecord (s : State) (b : Nat) : Bytes :=
  let x := s.block b
  leBytes 2 (x.preds / 2 * 2 + 1) ++ List.replicate 62 0 ++
    (List.range 16).flatMap fun n => leBytes 4 (sget (0 : Word) x.extents n).toNat

/-- The header, cairns, block state and generators of the save area (R126), at the yield tick. The header's bytes of live ranges count
each range's padding (DESIGN CHOICE; log entry 40). -/
def saveBytes (s : State) (j : Job) : Bytes :=
  let p := j.params
  padTo4k (leBytes 4 j.id ++ leBytes 4 p.cairnCount ++ leBytes 4 j.image.cells.length ++ leBytes 4 (vblocks j).length ++
      leBytes 4 j.sheet ++ leBytes 4 0 ++ leBytes 8 s.sht.tick ++ leBytes 8 (saveLive j)) ++
  padTo4k ((upto p.cairnBase p.cairnCount).flatMap fun n => leBytes 4 (cairnVal s n 32)) ++
  padTo4k ((vblocks j).flatMap fun e => blockRecord s e.2) ++
  padTo4k (j.image.cells.flatMap fun v => leBytes 4 (if kindOf v.pcell = .S then 0 else (s.cell v.pcell).misc.rng))

/-- Every addition sent before the yield tick reaches the copies (R87). -/
def drainCairns (s : State) (base n : Nat) : State :=
  let mine (k : Nat) : Bool := decide (base ≤ k) && decide (k < base + n)
  let es := s.syn.inFlight.filter fun e => mine e.1
  es.foldl (fun s e => arrive (scanCairn s e.1 e.2.1) e.1 e.2.1 e.2.2.1)
    { s with syn := { s.syn with inFlight := s.syn.inFlight.filter fun e => !mine e.1 } }

/-- SAVE_CHECK (R633, R637): a saved or restored block fails; the pre-empted job ends. -/
def saveCheck (s : State) (job c dir lb addr : Nat) : State :=
  raiseChip s 0x3004 2 3 0 job ([c, dir, lb] ++ item64 addr)

/-- A pre-empted job's state is taken at its yield tick (R87, R126): the master copies, after every addition on its way, the block
state and the generators. -/
def takeHead (s : State) (j : Job) : State :=
  let s := drainCairns s j.params.cairnBase j.params.cairnCount
  let s := (upto j.params.cairnBase j.params.cairnCount).foldl scanMaster s
  s.updJob j.id fun x => { x with head := saveBytes s j }

/-- Reads a live range for the save: its words are decoded and its blocks verified (R382, R383, R635), unwritten lines read as zeros
(R390), and so does what lies past the declared stash (log entry 20). -/
def readLiveRange (s : State) (j : Job) (c : Nat) (r : LiveEnt) (addr : Nat) : Option Bytes × State :=
  let gran := ((j.kept.find? fun k => k.cell == c).map (·.gran)).getD []
  let lbs := upto (r.startKib / 4) (cdiv (r.startKib + r.lenKib) 4 - r.startKib / 4)
  lbs.foldl (fun (x : Option Bytes × State) lb =>
    match x.1 with
    | none => x
    | some acc =>
      if gran.length ≤ lb / 4 then (some (acc ++ List.replicate 4096 0), x.2) else
      let pb := stashPhys gran (lb * 4096) / 4096
      let (ok, s) := decodeBlock x.2 c gran lb none j.id
      if !ok then (none, s)
      else if (sget 0 (s.cell c).stash.checks pb : Nat) != 0 then
        (none, saveCheck s j.id c 0 lb (addr + (lb * 4096 - r.startKib * 1024)))
      else (some (acc ++ blockData s c pb), s)) (some [], s) |> fun x =>
    (x.1.map fun b => slice b (r.startKib % 4 * 1024) (r.lenKib * 1024), plumbTraffic x.2 c (r.lenKib * 16) false)

/-- Writes all of a job's save area (R88, R126). False where a block failed. -/
def saveJob (s : State) (j : Job) : Bool × State :=
  let acc : Accessor := { job := j.id, src := srcNone }
  match writeMem s j.params.saveAddr j.head acc with
  | (.error _, s) => (false, s)
  | (.ok _, s) =>
    let r := (savedRanges j).foldl (fun (x : Bool × Nat × State) e =>
      if !x.1 then x
      else
        match readLiveRange x.2.2 j e.1 e.2 x.2.1 with
        | (none, s) => (false, x.2.1, s)
        | (some b, s) => match writeMem s x.2.1 (padTo4k b) acc with
          | (.error _, s) => (false, x.2.1, s)
          | (.ok _, s) => (true, x.2.1 + pad4k b.length, s)) (true, j.params.saveAddr + saveHead j, s)
    (r.1, r.2.2)

/-- The cells whose plumbs a save or a restore of a job crosses. -/
def savedCells (j : Job) : List Nat := ((savedRanges j).map (·.1)).dedup

/-- The plumbs of a save or restore after the failures that strike its transfers (R371), if every one carries data then (R374). -/
def copyPlumbs (s : State) (j : Job) (ph : List Phys) : Bool × State :=
  let cs := savedCells j
  if !cs.all (plumbOpen s) then (false, s)
  else
    let s := plumbFaults s cs none ph
    (cs.all (plumbOpen s), s)

/-- PREEMPT_SAVE_DONE (R88): the save of a pre-empted job ends; then the written bits of its cells are cleared (R387). -/
def execPreemptSaveDone (job : Nat) (ph : List Phys) (s : State) : Host.Outcome State Fault Refusal :=
  let s := injectAll s ph
  match s.job? job with
  | none => .next s
  | some j =>
    if j.phase ≠ .saving then .next s
    else
      let (clear, s) := copyPlumbs s j ph
      if !clear then .next s
      else
        let (ok, s) := saveJob s j
        let s := if ok then s else endJob s job 0x42
        .next (endSave (s.updJob job fun x => { x with phase := .preempted }) job)

/-- Puts a job's saved cairns, predicates, extents and generators back (R87, R88). -/
def restoreHead (s : State) (j : Job) (b : Bytes) : State :=
  let p := j.params
  let o1 := 4096
  let o2 := o1 + cdiv p.cairnCount 1024 * 4096
  let o3 := o2 + cdiv (vblocks j).length 32 * 4096
  let s := (List.range p.cairnCount).foldl (fun s k =>
    (List.range 33).foldl (fun s copy => setCairn s (p.cairnBase + k) copy (num b (o1 + 4 * k) 4)) s) s
  let s := ((vblocks j).zipIdx).foldl (fun s e =>
    let o := o2 + 128 * e.2
    s.updBlock e.1.2 fun _ =>
      { preds := num b o 2 / 2 * 2
        extents := (List.range 16).foldl (fun m n => sset (0 : Word) m n (BitVec.ofNat 32 (num b (o + 64 + 4 * n) 4))) [] }) s
  (j.image.cells.zipIdx).foldl (fun s e =>
    if kindOf e.1.pcell = .S then s else s.updMisc e.1.pcell fun m => { m with rng := num b (o3 + 4 * e.2) 4 }) s

/-- Restores a live range into the declared stash: its lines become written, with fresh checks (R386). -/
def restoreRange (s : State) (c : Nat) (gran : List Nat) (r : LiveEnt) (b : Bytes) : State :=
  (writeLines s c gran (r.startKib * 16) ((toLines b).take (gran.length * 256 - r.startKib * 16)) none).2

/-- Reads a live range back from its save-area blocks; a failure with the first block that fails (R88, R633). -/
def readSaved (s : State) (addr n : Nat) (acc : Accessor) : Except (MemFail × Nat) Bytes × State :=
  (List.range (cdiv n 4096)).foldl (fun (r : Except (MemFail × Nat) Bytes × State) k =>
    match r.1 with
    | .error _ => r
    | .ok b => match readMem r.2 (addr + 4096 * k) (min 4096 (n - 4096 * k)) acc with
      | (.ok d, s) => (.ok (b ++ d), s)
      | (.error f, s) => (.error (f, k), s)) (.ok [], s)

/-- Reads all of a job's save area back (R88). False where a block failed. -/
def restoreJob (s : State) (j : Job) : Bool × State :=
  let acc : Accessor := { job := j.id, src := srcNone }
  let fail (s : State) (f : MemFail) (c lb addr : Nat) : State :=
    if f == 0x30 then saveCheck s j.id c 1 lb addr else endJob s j.id 0x42
  match readMem s j.params.saveAddr (saveHead j) acc with
  | (.error f, s) => (false, fail s f 0 0 j.params.saveAddr)
  | (.ok b, s) =>
    let s := restoreHead s j b
    let r := (savedRanges j).foldl (fun (x : Bool × Nat × State) e =>
      if !x.1 then x
      else
        let n := e.2.lenKib * 1024
        match readSaved x.2.2 x.2.1 n acc with
        | (.error (f, k), s) => (false, x.2.1, fail s f e.1 (e.2.startKib / 4 + k) (x.2.1 + 4096 * k))
        | (.ok d, s) => (true, x.2.1 + pad4k n, restoreRange s e.1 (s.cell e.1).seq.gran e.2 d)) (true, j.params.saveAddr + saveHead j, s)
    (r.1, r.2.2)

/-- The deferred signals are added in list order and reach every copy, and held completions go out (R500). -/
def releaseDeferred (s : State) (j : Job) : State :=
  let s := j.deferred.foldl (fun s e => addMaster s e.cairn e.amount e.source) s
  let s := drainCairns (s.updJob j.id fun x => { x with deferred := [] }) j.params.cairnBase j.params.cairnCount
  let again (d : Desc) : Desc :=
    if dJob d.raw == j.id && d.phase = .waiting && d.waitFrom.isSome then { d with waitFrom := some s.clk.cycles } else d
  let s := { s with hif := { s.hif with descs := s.hif.descs.map again } }
  s.hif.descs.foldl (fun s d => match d.phase with
    | .finished st lo _ => if dType d.raw != 1 && dJob d.raw == j.id then
        complete (addMaster s (dSigCairn d.raw) (dSigAdd d.raw) (srcDesc d.ring (d.count % ringSize (s.ring d.ring)))) d st lo
        else s
    | _ => s) s |> fun s => drainCairns s j.params.cairnBase j.params.cairnCount

/-- RESTORE_DONE (R88, R90, R500): the restore of a job ends; its next sheet opens at the next tick. -/
def execRestoreDone (job : Nat) (ph : List Phys) (s : State) : Host.Outcome State Fault Refusal :=
  let s := injectAll s ph
  match s.job? job with
  | none => .next s
  | some j =>
    let (clear, s) := if j.phase = .restoring then copyPlumbs s j ph else (false, s)
    if !clear then .next s
    else
      let s := (j.image.cells.zipIdx).foldl (fun s e =>
        let k := (j.kept.find? fun k => k.cell == e.1.pcell).getD ⟨e.1.pcell, [], []⟩
        s.updSeq e.1.pcell fun _ => { job, vindex := e.2, gran := k.gran, banks := k.banks }) s
      let (ok, s) := restoreJob s j
      if !ok then .next (endJob s job 0x42)
      else
        let s := s.updJob job fun x => { x with phase := .restored }
        .next (releaseDeferred s j)

/-! ### Ends (R130, R145, R758) -/

/-- A job ends at a tick (R130, R145, R758): it leaves, the clearing of what it held begins, and its JOB_START is due. -/
def finishJob (s : State) (j : Job) (status seq : Nat) : State :=
  let ran := j.phase = .running || j.phase = .ready || j.phase = .preparing || j.phase = .restored || j.phase = .restoring
  let s := releaseJob s j ran
  let s := { s with grp := { s.grp with rings := s.grp.rings.filter fun r => r.job != j.id
                                        ringsIn := s.grp.ringsIn.filter fun r => r.job != j.id } }
  let s := if ran then { s with clearing := (s.clearing.filter fun k => k.job != j.id) ++
      [⟨j.id, jobCells j, j.params.cairnBase, j.params.cairnCount, s.clk.cycles, false, s.thm.stopped, false⟩] } else s
  match startDesc s j with
  | some d => updDesc s d fun x => { x with phase := .finished status j.sheet seq }
  | none => s

/-- After a chip-fatal error every descriptor that has not begun is over with its job's end, at the tick (R622). -/
def endUnbegun (s : State) : State :=
  if !s.err.fatal then s
  else s.hif.descs.foldl (fun s d => match d.phase with
    | .fetched => fatalEnd s d
    | .waiting => if dType d.raw == 1 && (s.job? (dJob d.raw)).isSome then s else fatalEnd s d
    | _ => s) s

/-- HIF_JOB_ABORT (R152, R153): with GO, the job stops issuing at once and ends at its next tick. -/
def execHifJobAbort (value : Nat) (s : State) : Host.Outcome State Fault Refusal :=
  if !datumReach s 4 || !bit value 31 then .next s else .next (endJob s (value % 65536) 0x43)

/-- A ring's reset begins (R156): STATE 3; descriptors not begun complete with RING_RESET, a JOB_START whose sheet 1 has not opened
among them, whose job is dropped; a begun JOB_START ends its job; other begun descriptors run on. DESIGN CHOICE (log entry 40): a
JOB_START not begun whose job's end is known already completes at the tick with the status of that end. -/
def resetRing (s : State) (n : Nat) : State :=
  let s := s.updRing n fun r => { r with state := 3 }
  s.hif.descs.foldl (fun s d =>
    if d.ring != n then s
    else match dType d.raw, d.phase with
      | 1, .waiting => match s.jobs.find? fun j => j.ring == n && j.count == d.count with
        | some j => if j.ending.isSome then s else complete (dropJob s j) d 0x41 0
        | none => complete s d 0x41 0
      | 1, .begun => endJob s (dJob d.raw) 0x43
      | _, .fetched => complete s d 0x41 0
      | _, .waiting => complete s d 0x41 0
      | _, _ => s) s

/-- RING_RESET (R156): a write of RESET, to a disabled ring too. -/
def execRingReset (n : Nat) (s : State) : Host.Outcome State Fault Refusal :=
  if !datumReach s 4 || 64 ≤ n || (s.ring n).state == 3 then .next s else .next (resetRing s n)

/-- RING_RESET_DONE (R156): every completion of a resetting ring is written: counts 0, ENABLE 0, STATE 0. -/
def execRingResetDone (n : Nat) (s : State) : Host.Outcome State Fault Refusal :=
  if (s.ring n).state != 3 || s.hif.descs.any (fun d => d.ring == n) then .next s
  else .next (s.updRing n fun r =>
    { r with state := 0, enable := false, sqCi := 0, cqPi := 0, sqPi := 0, cqCi := 0, cqFailed := false })

end Sys2Proof.Machine
end

