-- ==== Sys2Proof/Machine/Num.lean ====
section
/-! DEFINITION. Exact values, element formats, rounding and conversion (R258 to R292), the stochastic generator. -/

namespace Sys2Proof.Machine

open Sys2Proof

/-- +0. -/
def Val.zero : Val := .fin false 0 0

/-- An integer. -/
def Val.ofInt (n : Int) : Val := .fin (decide (n < 0)) n.natAbs 0

/-- Signed magnitude at an exponent not above the value's own. -/
def scaled (neg : Bool) (m : Nat) (e lo : Int) : Int :=
  let k : Int := (m * 2 ^ (e - lo).toNat : Nat)
  if neg then -k else k

/-- The exact product. -/
def Val.mul : Val → Val → Val
  | .nan, _ => .nan
  | _, .nan => .nan
  | .inf a, .inf b => .inf (a != b)
  | .inf a, .fin b m _ => if m == 0 then .nan else .inf (a != b)
  | .fin a m _, .inf b => if m == 0 then .nan else .inf (a != b)
  | .fin a m e, .fin b n f => .fin (a != b) (m * n) (e + f)

/-- The exact sum. A zero sum is −0 only where both are −0 (R279). -/
def Val.add : Val → Val → Val
  | .nan, _ => .nan
  | _, .nan => .nan
  | .inf a, .inf b => if a == b then .inf a else .nan
  | .inf a, .fin _ _ _ => .inf a
  | .fin _ _ _, .inf b => .inf b
  | .fin a m e, .fin b n f =>
    let lo := min e f
    let k := scaled a m e lo + scaled b n f lo
    .fin (if k = 0 then a && b else decide (k < 0)) k.natAbs lo

/-- The exact sum of a list: +0 where it is empty. -/
def Val.sum : List Val → Val
  | [] => .zero
  | v :: vs => vs.foldl Val.add v

/-- The value with its sign turned. -/
def Val.neg : Val → Val
  | .nan => .nan
  | .inf a => .inf (!a)
  | .fin a m e => .fin (!a) m e

/-- The magnitude. -/
def Val.abs : Val → Val
  | .nan => .nan
  | .inf _ => .inf false
  | .fin _ m e => .fin false m e

/-- A zero of either sign. -/
def Val.isZero : Val → Bool
  | .fin _ m _ => m == 0
  | _ => false

/-- A finite value. -/
def Val.isFin : Val → Bool
  | .fin _ _ _ => true
  | _ => false

/-- Numerical order: strictly less. NaN is less than nothing. -/
def Val.lt : Val → Val → Bool
  | .nan, _ => false
  | _, .nan => false
  | .inf a, .inf b => a && !b
  | .inf a, .fin _ _ _ => a
  | .fin _ _ _, .inf b => !b
  | .fin a m e, .fin b n f => let lo := min e f; decide (scaled a m e lo < scaled b n f lo)

/-- Numerical equality; −0 equals +0. -/
def Val.eqv : Val → Val → Bool
  | .nan, _ => false
  | _, .nan => false
  | a, b => !a.lt b && !b.lt a

/-- The larger of two (R304): NaN wins, +0 is larger than −0. -/
def Val.max : Val → Val → Val
  | .nan, _ => .nan
  | _, .nan => .nan
  | a, b =>
    if a.lt b then b else if b.lt a then a
    else match a with
      | .fin true _ _ => b
      | _ => a

/-- The smaller of two, with NaN as in `Val.max` (R308). -/
def Val.min : Val → Val → Val
  | .nan, _ => .nan
  | _, .nan => .nan
  | a, b =>
    if a.lt b then a else if b.lt a then b
    else match a with
      | .fin false _ _ => b
      | _ => a

/-! ### Formats (R258 to R264) -/

/-- Width of a format code; 16 stands for a 32-bit integer (R285). -/
def fmtWidth (f : Nat) : Nat :=
  match f with
  | 0 => 32 | 1 => 16 | 2 => 16 | 3 => 8 | 4 => 8 | 5 => 6 | 6 => 6 | 7 => 4 | 8 => 16 | 9 => 8 | 10 => 8 | 11 => 4
  | 12 => 4 | 13 => 2 | 14 => 4 | 15 => 8 | _ => 32

/-- A floating-point format (codes 0 to 7). -/
def isFloat (f : Nat) : Bool := decide (f ≤ 7)

/-- A float format's mantissa bits, bias, largest finite encoding without its sign, and kind of specials (0 IEEE, 1 the
one NaN of FP8-E4M3, 2 none). -/
structure FloatFmt where
  man : Nat
  bias : Nat
  top : Nat
  special : Nat
  deriving DecidableEq, Repr

/-- The layout of a float code (R258, R261). -/
def floatFmt (f : Nat) : FloatFmt :=
  match f with
  | 1 => ⟨7, 127, 0x7F7F, 0⟩
  | 2 => ⟨10, 15, 0x7BFF, 0⟩
  | 3 => ⟨3, 7, 0x7E, 1⟩
  | 4 => ⟨2, 15, 0x7B, 0⟩
  | 5 => ⟨2, 3, 0x1F, 2⟩
  | 6 => ⟨3, 1, 0x1F, 2⟩
  | 7 => ⟨1, 1, 7, 2⟩
  | _ => ⟨23, 127, 0x7F7FFFFF, 0⟩

/-- Value of a float encoding (R260, R261). -/
def decodeFloat (f v : Nat) : Val :=
  let l := floatFmt f
  let w := fmtWidth f
  let neg := bit v (w - 1)
  let u := v % 2 ^ (w - 1)
  if l.top < u then (if l.special == 0 && u % 2 ^ l.man == 0 then .inf neg else .nan)
  else
    let e := u / 2 ^ l.man
    let m := u % 2 ^ l.man
    if e == 0 then .fin neg m (1 - (l.bias : Int) - l.man)
    else .fin neg (2 ^ l.man + m) ((e : Int) - l.bias - l.man)

/-- Two's complement value of `w` bits. -/
def signed (w v : Nat) : Int := if bit v (w - 1) then (v % 2 ^ w : Int) - 2 ^ w else (v % 2 ^ w : Nat)

/-- Integer value of an integer code, zero points aside (R264). -/
def decodeInt (f v : Nat) : Int :=
  let w := fmtWidth f
  if f == 10 || f == 12 then (v % 2 ^ w : Nat) else signed w v

/-- Value of an element of a code (R258, R281). -/
def decodeElem (f v : Nat) : Val := if isFloat f then decodeFloat f v else Val.ofInt (decodeInt f v)

/-- Range of an integer code. -/
def intRange (f : Nat) : Int × Int :=
  let w := fmtWidth f
  if f == 10 || f == 12 then (0, 2 ^ w - 1) else (-(2 ^ (w - 1)), 2 ^ (w - 1) - 1)

/-! ### Rounding (R282, R287) -/

/-- Rounds (num / den) × 2^exp to a multiple of 2^u, to nearest even, or with a draw (R287): the multiple. -/
def roundTo (draw : Option Nat) (num den : Nat) (exp u : Int) : Nat :=
  let sh := exp - u
  let n := num * 2 ^ sh.toNat
  let d := den * 2 ^ (-sh).toNat
  let q := n / d
  let r := n % d
  match draw with
  | none => if d < 2 * r || (2 * r == d && q % 2 == 1) then q + 1 else q
  | some x => if 2 ^ 32 ≤ r * 2 ^ 32 / d + x then q + 1 else q

/-- The largest `e` with 2^e ≤ num / den, for num not 0. -/
def floorLog (num den : Nat) : Int :=
  let e : Int := (Nat.log2 num : Int) - Nat.log2 den
  if num * 2 ^ (-e).toNat < den * 2 ^ e.toNat then e - 1 else e

/-- The magnitude bits of (num / den) × 2^exp in a float format, its exponent range unbounded above (R282, step 1). -/
def roundMag (f : Nat) (draw : Option Nat) (num den : Nat) (exp : Int) : Nat :=
  let l := floatFmt f
  let u0 : Int := 1 - (l.bias : Int) - l.man
  if num == 0 then 0
  else
    let u := max (floorLog num den + exp - l.man) u0
    (u - u0).toNat * 2 ^ l.man + roundTo draw num den exp u

/-- An encoding, and whether a NaN met a format without NaN (R284). -/
abbrev Conv := Nat × Bool

/-- The canonical NaN of a float format (R262). -/
def nanOf (f : Nat) : Nat :=
  match f with
  | 0 => 0x7FC00000 | 1 => 0x7FC0 | 2 => 0x7E00 | 3 => 0x7F | 4 => 0x7E | _ => 0

/-- The encoding of an infinity or an overflow (R282). -/
def overflowOf (f : Nat) (sat neg : Bool) : Nat :=
  let l := floatFmt f
  let sign := b2n neg * 2 ^ (fmtWidth f - 1)
  if l.special == 2 || ((f == 3 || f == 4) && sat) then sign + l.top
  else if f == 3 then 0x7F
  else sign + l.top + 1

/-- (−1)^neg × (num / den) × 2^exp in a float format (R282). -/
def encodeRat (f : Nat) (sat : Bool) (draw : Option Nat) (neg : Bool) (num den : Nat) (exp : Int) : Nat :=
  let m := roundMag f draw num den exp
  if (floatFmt f).top < m then overflowOf f sat neg else b2n neg * 2 ^ (fmtWidth f - 1) + m

/-- A value in an element format or a 32-bit integer (R282, R284). -/
def encodeElem (f : Nat) (sat : Bool) (draw : Option Nat) (v : Val) : Conv :=
  if isFloat f then
    match v with
    | .nan => (nanOf f, (floatFmt f).special == 2)
    | .inf n => (overflowOf f sat n, false)
    | .fin n m e => (encodeRat f sat draw n m 1 e, false)
  else
    let (lo, hi) := intRange f
    let put (x : Int) : Nat := ((max lo (min hi x)) % 2 ^ fmtWidth f).toNat
    match v with
    | .nan => (0, true)
    | .inf n => (put (if n then lo else hi), false)
    | .fin n m e =>
      let q := roundTo draw m 1 e 0
      (put (if n then -(q : Int) else q), false)

/-- FP32 encoding to nearest even. -/
def toF32 (v : Val) : Nat := (encodeElem 0 false none v).1

/-- Value of an FP32 encoding. -/
def ofF32 (v : Nat) : Val := decodeFloat 0 v

/-- FP32 addition (R279). -/
def addF32 (a b : Nat) : Nat := toF32 ((ofF32 a).add (ofF32 b))

/-- INT32 addition, clamped (R280): the word, and whether it was clamped. -/
def clamp32 (x : Int) : Nat × Bool :=
  let y := max (-(2 ^ 31)) (min (2 ^ 31 - 1) x)
  ((y % 2 ^ 32).toNat, decide (y ≠ x))

/-- Rounds a finite value toward zero to FP32, past the range to the largest finite value (R247). -/
def truncF32 (v : Val) : Val :=
  match v with
  | .fin n m e =>
    if m == 0 then v
    else
      let u := max (floorLog m 1 + e - 23) (-149)
      let sh := e - u
      if 104 < u then .fin n (2 ^ 24 - 1) 104 else .fin n (m * 2 ^ sh.toNat / 2 ^ (-sh).toNat) u
  | x => x

/-- The reciprocal of a value, correctly rounded to FP32 (R306, R307). -/
def recip (v : Val) : Nat :=
  match v with
  | .nan => nanOf 0
  | .inf n => b2n n * 2 ^ 31
  | .fin n m e => if m == 0 then overflowOf 0 false n else encodeRat 0 false none n 1 m (-e)

/-- Division of values, rounded once into a format (R474). -/
def divVal (f : Nat) (sat : Bool) (draw : Option Nat) (a b : Val) : Conv :=
  match a, b with
  | .nan, _ => encodeElem f sat draw .nan
  | _, .nan => encodeElem f sat draw .nan
  | .inf _, .inf _ => encodeElem f sat draw .nan
  | .inf x, .fin y _ _ => encodeElem f sat draw (.inf (x != y))
  | .fin x _ _, .inf y => encodeElem f sat draw (.fin (x != y) 0 0)
  | .fin x m e, .fin y n g =>
    if n == 0 then encodeElem f sat draw (if m == 0 then .nan else .inf (x != y))
    else if isFloat f then (encodeRat f sat draw (x != y) m n (e - g), false)
    else encodeElem f sat draw .nan

/-- The reciprocal square root, correctly rounded to FP32 (R306, R307): the integer square root keeps 64 bits and a
sticky bit. -/
def rsqrt (v : Val) : Nat :=
  match v with
  | .nan => nanOf 0
  | .inf n => if n then nanOf 0 else 0
  | .fin n m e =>
    if m == 0 then overflowOf 0 false n
    else if n then nanOf 0
    else
      let (m, e) := if e % 2 == 0 then (m, e) else (2 * m, e - 1)
      let k := 64 + Nat.log2 m
      let q := Nat.sqrt (2 ^ (2 * k) / m)
      let sticky := b2n (q * q * m != 2 ^ (2 * k))
      encodeRat 0 false none false (2 * q + sticky) 1 (-(e / 2) - (k : Int) - 1)

/-! ### Elements of a byte string (R259) -/

/-- Element `i` of `b`-bit elements packed from the start of a number. -/
def elemOf (n b i : Nat) : Nat := n / 2 ^ (i * b) % 2 ^ b

/-- Element `i` of `b`-bit elements of a byte string: only the bytes it lies in are read. -/
def elemAt (bs : Bytes) (b i : Nat) : Nat :=
  let lo := i * b / 8
  num bs lo (cdiv (i * b + b) 8 - lo) / 2 ^ (i * b % 8) % 2 ^ b

/-- Packs `b`-bit elements into bytes, the last padded with zero bits. -/
def packElems (b : Nat) (es : List Nat) : Bytes :=
  leBytes (cdiv (es.length * b) 8) (es.foldr (fun e acc => acc * 2 ^ b + e % 2 ^ b) 0)

/-! ### The generator (R286 to R288) -/

/-- One step of the Galois register. -/
def rngStep (x : Nat) : Nat := if x % 2 == 1 then (x / 2) ^^^ 0x80200003 else x / 2

/-- A draw: 32 steps; the state after the last. -/
def rngDraw (x : Nat) : Nat := (List.range 32).foldl (fun x _ => rngStep x) x

/-- Encodes values in order, drawing for each with SR (R288): the encodings and the generator. -/
def encodeAll (f : Nat) (sat sr : Bool) (vs : List Val) (rng : Nat) : List Conv × Nat :=
  vs.foldl (fun (r : List Conv × Nat) v =>
    let rng := if sr then rngDraw r.2 else r.2
    (r.1 ++ [encodeElem f sat (if sr then some rng else none) v], rng)) ([], rng)

/-! ### Scales (R271 to R275) -/

/-- Value of a scale code of a SCALE format: 1 E8M0, 2 SQ8 (without its second level), 3 FP32. -/
def scaleVal (k v : Nat) : Val :=
  match k with
  | 1 => if v == 255 then .nan else .fin false 1 ((v : Int) - 127)
  | 2 => if v / 16 == 0 then .fin false (v % 16) (-10) else .fin false (16 + v % 16) ((v / 16 : Nat) - 11 : Int)
  | _ => ofF32 v

/-- The scale stage: a column output times an exact scale product, one rounding (R275). -/
def applyScale (out scale : Val) : Nat :=
  match scale with
  | .nan => nanOf 0
  | _ => toF32 (out.mul scale)

end Sys2Proof.Machine
end

