-- ==== Sys2Proof/Machine/Operands.lean ====
section
/-! DEFINITION. The instruction word, operand descriptors, the opcode table and the geometry of tiles
(R175 to R180, R214, R215, R220, R222, R299, R300, R379). -/

namespace Sys2Proof.Machine

open Sys2Proof

/-- A tile instruction taken apart (R175). `fn` is bits [114:112], the function code of an opcode marked F. -/
structure Ins where
  op : Nat
  pred : Nat
  pneg : Bool
  shape : Nat
  x : Bool
  fn : Nat
  a : Nat
  b : Nat
  d : Nat
  scale : Nat
  sr : Bool
  sat : Bool
  opd : Nat
  opa : Nat
  opb : Nat
  deriving DecidableEq, Repr

/-- The fields of a 128-bit word (R175). -/
def readIns (w : Nat) : Ins :=
  { op := bits w 127 120, pred := bits w 119 116, pneg := bit w 115, shape := bits w 114 113, x := bit w 112,
    fn := bits w 114 112, a := bits w 111 108, b := bits w 107 104, d := bits w 103 100, scale := bits w 99 98,
    sr := bit w 97, sat := bit w 96, opd := bits w 95 64, opa := bits w 63 32, opb := bits w 31 0 }

/-- What a slot accepts. A REG slot names its kind; a wide descriptor fills its slot and the next. -/
inductive OpSlot where
  | none
  | lit
  /-- Narrow spaces. -/
  | sp (spaces : List Nat)
  /-- A stash operand, or a literal where X, or the comparison code of VX.BMAP, says so. -/
  | orLit
  /-- A REG descriptor of a kind. -/
  | reg (extent : Bool)
  /-- A wide descriptor of a space in this slot and the next; `also` a narrow space accepted instead. -/
  | wide (space : Nat) (also : Option Nat)
  /-- The lower half of a wide descriptor. -/
  | low
  deriving DecidableEq, Repr

/-- A row of the opcode table (R180) with the fields its opcode uses (R176). -/
structure OpInfo where
  op : Nat
  m : Bool := false
  v : Bool := false
  s : Bool := false
  opd : OpSlot := .none
  opa : OpSlot := .none
  opb : OpSlot := .none
  useA : Bool := false
  useB : Bool := false
  useD : Bool := false
  useScale : Bool := false
  useRound : Bool := false
  useX : Bool := false
  useShape : Bool := false
  isF : Bool := false
  deriving DecidableEq, Repr

/-- A stash slot. -/
def stashSlot : OpSlot := .sp [4]

/-- The opcodes of the sheet and scalar families. -/
def opTableS : List OpInfo :=
  [{ op := 0x00, m := true, v := true, s := true, useX := true },
   { op := 0x01, s := true, opb := .lit },
   { op := 0x02, m := true, v := true, s := true },
   { op := 0x10, s := true, opd := .reg true, opb := .lit },
   { op := 0x11, s := true, opa := .wide 8 (some 4), opb := .low },
   { op := 0x12, s := true, opd := .reg true, opa := .reg true, opb := .lit },
   { op := 0x13, s := true, opd := .reg true, opa := .reg true, opb := .lit },
   { op := 0x14, s := true, opd := .reg false, opa := stashSlot, opb := .lit, useX := true },
   { op := 0x15, s := true, opd := .reg false, opa := .reg false, opb := .reg false, useX := true }]

/-- The opcodes of the matrix family. -/
def opTableM : List OpInfo :=
  [{ op := 0x20, m := true, opd := .sp [2], opa := stashSlot, useA := true, useB := true, useScale := true, useShape := true },
   { op := 0x21, m := true, opd := .sp [3], opa := stashSlot, useA := true },
   { op := 0x22, m := true, opd := .sp [1], opa := .sp [3], opb := .sp [2], useA := true, useB := true, useScale := true,
     useX := true, useShape := true },
   { op := 0x23, m := true, opd := stashSlot, opa := .sp [1], useD := true, useRound := true, useX := true },
   { op := 0x24, m := true, opd := .sp [1] }]

/-- The opcodes of the vector family. -/
def opTableV : List OpInfo :=
  [{ op := 0x30, v := true, opd := stashSlot, opa := stashSlot, opb := .orLit, useA := true, useB := true, useD := true,
     useRound := true, useX := true },
   { op := 0x31, v := true, opd := stashSlot, opa := stashSlot, opb := .orLit, useA := true, useB := true, useD := true,
     useRound := true, useX := true },
   { op := 0x32, v := true, opd := stashSlot, opa := stashSlot, opb := stashSlot, useA := true, useB := true, useD := true,
     useRound := true },
   { op := 0x33, v := true, opd := stashSlot, opa := stashSlot, opb := .orLit, useA := true, useB := true, useD := true,
     useRound := true, useX := true },
   { op := 0x34, v := true, opd := stashSlot, opa := stashSlot, useA := true, useD := true, useRound := true, isF := true },
   { op := 0x35, v := true, opd := stashSlot, opa := stashSlot, useA := true, useX := true },
   { op := 0x36, v := true, opd := stashSlot, opa := stashSlot, opb := .lit, useA := true, useX := true },
   { op := 0x37, v := true, opd := stashSlot, opa := stashSlot, useA := true, useD := true, useX := true },
   { op := 0x38, v := true, opd := stashSlot, opa := stashSlot, opb := .orLit, useA := true, useB := true, useD := true,
     isF := true },
   { op := 0x39, v := true, opd := stashSlot, opa := stashSlot, useA := true, useD := true, useRound := true, useX := true },
   { op := 0x3A, v := true, opd := stashSlot, opa := stashSlot, useA := true, useD := true, useRound := true, isF := true },
   { op := 0x3B, v := true, s := true, opb := .lit }]

/-- The opcodes of the move, reduction, cairn, attention and plot families. -/
def opTableX : List OpInfo :=
  [{ op := 0x40, m := true, v := true, s := true, opd := stashSlot, opa := .wide 8 none, opb := .low, useB := true },
   { op := 0x41, m := true, v := true, s := true, opd := .wide 8 none, opa := .low, opb := stashSlot, useB := true },
   { op := 0x42, m := true, v := true, s := true, opd := .wide 9 none, opa := .low, opb := stashSlot, useB := true },
   { op := 0x43, v := true, opd := stashSlot, opa := .sp [7], opb := stashSlot },
   { op := 0x44, v := true, opd := .sp [7], opa := stashSlot, opb := stashSlot },
   { op := 0x50, m := true, v := true, opd := .wide 9 none, opa := .low, opb := .sp [4, 1], useX := true },
   { op := 0x51, s := true, opd := .lit, opa := .wide 8 none, opb := .low },
   { op := 0x60, m := true, v := true, s := true, opd := .sp [5], opb := .lit, useX := true },
   { op := 0x61, m := true, v := true, s := true, opa := .sp [5], opb := .lit },
   { op := 0x62, m := true, v := true, s := true, opd := stashSlot, opa := .sp [5] },
   { op := 0x70, m := true, opd := .sp [1], opa := .sp [3], opb := .sp [7], useA := true, useB := true, useD := true,
     useScale := true, useX := true, useShape := true },
   { op := 0x71, m := true, opd := .sp [1], opa := stashSlot, opb := .sp [7], useA := true, useB := true, useD := true,
     useScale := true, useX := true, useShape := true },
   { op := 0x72, v := true, opd := stashSlot, opa := stashSlot, useA := true, useB := true, useD := true, useScale := true,
     useRound := true, useShape := true },
   { op := 0x73, v := true, opd := stashSlot, opa := stashSlot, opb := stashSlot, useA := true, useB := true, useD := true,
     useScale := true, useRound := true, useX := true },
   { op := 0x74, v := true, opd := stashSlot, opa := stashSlot, useA := true, useB := true, useD := true, useScale := true,
     useX := true },
   { op := 0x75, s := true, opd := .sp [7], opa := stashSlot, useA := true, useB := true, useD := true, useScale := true,
     useX := true },
   { op := 0x80, s := true, opd := .lit, opa := .wide 8 none, opb := .low },
   { op := 0x81, s := true, opd := .lit }]

/-- The opcode table of JTC 1.0 (R180). -/
def opTable : List OpInfo := opTableS ++ opTableM ++ opTableV ++ opTableX

/-- The row of an opcode; none where it is reserved. -/
def opInfo (op : Nat) : Option OpInfo := opTable.find? fun r => r.op == op

/-! ### Operands (R177) -/

/-- An operand: a literal (`space` 16), or a descriptor with its space and its 32 or 64 bits. `slot` is 0 for OPD, 1 for
OPA, 2 for OPB. -/
structure Opnd where
  slot : Nat
  space : Nat
  v : Nat
  deriving DecidableEq, Repr

/-- Marks a literal. -/
def litSpace : Nat := 16

/-- EXT_EN of a descriptor. -/
def Opnd.extEn (o : Opnd) : Bool := bit o.v (if 8 ≤ o.space then 59 else 27)
/-- EXT of a descriptor. -/
def Opnd.ext (o : Opnd) : Nat := if 8 ≤ o.space then bits o.v 58 55 else bits o.v 26 23
/-- A descriptor that an extent bounds. -/
def Opnd.bounded (o : Opnd) : Bool := [1, 2, 3, 4, 8, 9].contains o.space && o.extEn
/-- ACC FIRST. -/
def Opnd.first (o : Opnd) : Nat := bits o.v 5 0
/-- ACC COUNT. -/
def Opnd.count (o : Opnd) : Nat := bits o.v 12 6
/-- WB SPARSITY. -/
def Opnd.sparsity (o : Opnd) : Nat := bits o.v 10 9
/-- WB HALF. -/
def Opnd.half (o : Opnd) : Nat := bits o.v 0 0
/-- AB ROWS. -/
def Opnd.rows (o : Opnd) : Nat := bits o.v 21 10
/-- The start in bytes of a buffer or stash range. -/
def Opnd.start (o : Opnd) : Nat :=
  64 * (match o.space with | 2 => bits o.v 8 1 | 3 => bits o.v 9 0 | _ => bits o.v 12 0)
/-- STASH or CELL LEN in KiB. -/
def Opnd.lenKib (o : Opnd) : Nat := bits o.v 22 14
/-- TRANSPOSE. -/
def Opnd.trans (o : Opnd) : Bool := (o.space == 4 || o.space == 9) && bit o.v 13
/-- CAIRN index. -/
def Opnd.cairn (o : Opnd) : Nat := bits o.v 11 0
/-- REG KIND: an extent. -/
def Opnd.isExtent (o : Opnd) : Bool := bit o.v 4
/-- REG number. -/
def Opnd.reg (o : Opnd) : Nat := bits o.v 3 0
/-- TABLE KIND. -/
def Opnd.tkind (o : Opnd) : Nat := bits o.v 19 16
/-- TABLE_ID. -/
def Opnd.tid (o : Opnd) : Nat := bits o.v 15 0
/-- DEV BIAS_EN. -/
def Opnd.biasEn (o : Opnd) : Bool := bit o.v 54
/-- DEV SEGMENT. -/
def Opnd.seg (o : Opnd) : Nat := bits o.v 47 40
/-- DEV OFFSET. -/
def Opnd.devOff (o : Opnd) : Nat := bits o.v 39 0
/-- CELL VCELL. -/
def Opnd.vcell (o : Opnd) : Nat := bits o.v 44 32

/-- A slot is read as a literal. -/
def slotLit (i : Ins) : OpSlot → Bool
  | .lit => true
  | .orLit => if i.op == 0x38 then i.fn < 4 else i.x
  | _ => false

/-- The operand of a slot, from its own bits and those of the next slot, where there is one that is not a literal. SPACE selects
the layout: a DEV or CELL descriptor is wide and fills the next slot too; where that cannot be, it stands for itself (log entry 17). -/
def readSlot (i : Ins) (k : Nat) (sl : OpSlot) (v : Nat) (next : Option Nat) : Opnd :=
  if slotLit i sl then ⟨k, litSpace, v⟩
  else
    let sp := v / 2 ^ 28
    match next with
    | some n => if sp == 8 || sp == 9 then ⟨k, sp, v * 2 ^ 32 + n⟩ else ⟨k, sp, v⟩
    | none => ⟨k, sp, v⟩

/-- A wide descriptor, which has taken the next slot. -/
def Opnd.wide (o : Opnd) : Bool := (o.space == 8 || o.space == 9) && 2 ^ 32 ≤ o.v

/-- The operands of an instruction: OPD, OPA, OPB; `none` for the lower half of a wide descriptor. -/
def operands (i : Ins) (r : OpInfo) : Option Opnd × Option Opnd × Option Opnd :=
  let next (sl : OpSlot) (v : Nat) : Option Nat := if slotLit i sl then none else some v
  let d := readSlot i 0 r.opd i.opd (next r.opa i.opa)
  let a := if d.wide then none else some (readSlot i 1 r.opa i.opa (next r.opb i.opb))
  let b := if a.any (·.wide) then none else some (readSlot i 2 r.opb i.opb none)
  (some d, a, b)

/-- The reserved bits of a space's layout (R177). DEV and CELL have one only when wide. -/
def reservedMask (space : Nat) (wide : Bool) : Nat :=
  match space with
  | 0 => 0x0FFFFFFF
  | 1 => 0x007FE000
  | 2 => 0x007FF800
  | 3 => 0x00400000
  | 5 => 0x0FFFF000
  | 6 => 0x0FFFFFE0
  | 7 => 0x0FF00000
  | 8 => if wide then 0x003F00000000003F else 0
  | 9 => if wide then 0x007FE000FF800000 else 0
  | _ => 0

/-! ### Geometry of tiles (R214, R215, R220, R222) -/

/-- Packing factor p (R214). -/
def packing (a b : Nat) : Nat :=
  let w := max (fmtWidth a) (fmtWidth b)
  if w == 16 then 1 else if 6 ≤ w then 2 else 4

/-- Sparsity factor s. -/
def sparseFactor (sp : Nat) : Nat := if sp == 1 then 2 else if sp == 2 then 4 else 1

/-- The grouping of the multiply cells (R215): packing, R_t, K_t, N_t, W. E equals K_t. -/
structure Geom where
  p : Nat
  rt : Nat
  kt : Nat
  nt : Nat
  w : Nat
  deriving DecidableEq, Repr

/-- Tiles per group of 16 rows of a shape. -/
def shapeW (shape : Nat) : Nat := if shape == 1 then 4 else if shape == 2 then 16 else 1

/-- The geometry of formats, shape and sparsity. -/
def geom (a b shape sp : Nat) : Geom :=
  let p := packing a b
  let s := sparseFactor sp
  match shape with
  | 1 => ⟨p, 4, 4 * s, 64, 4⟩
  | 2 => ⟨p, p, p * s, 256, 16⟩
  | _ => ⟨p, 16, 16 * s, 16, 1⟩

/-- Length padded to 64 bytes. -/
def pad64 (n : Nat) : Nat := cdiv n 64 * 64

/-- Offsets of the parts of a weight tile image (R220): indices, side lists, zero points, scales, end. -/
structure WParts where
  idx : Nat
  side : Nat
  zero : Nat
  scale : Nat
  len : Nat
  deriving DecidableEq, Repr

/-- Bytes of a scale part for `n` scales, `second` second-level scales. -/
def scaleBytes (sc n second : Nat) : Nat :=
  match sc with
  | 0 => 0
  | 1 => n
  | 2 => n + 4 * second
  | _ => 4 * n

/-- The parts of a weight tile image (R220). -/
def wParts (a b shape sp sc : Nat) : WParts :=
  let g := geom a b shape sp
  let q := g.rt * g.nt
  let idx := pad64 (q * fmtWidth b / 8)
  let side := idx + (if sp == 0 then 0 else pad64 (q / 4))
  let zp := side + (if b == 14 || b == 15 then 64 * cdiv q 256 else 0)
  let scale := zp + (if b == 10 || b == 12 then pad64 g.nt else 0)
  ⟨idx, side, zp, scale, scale + pad64 (scaleBytes sc g.nt 1)⟩

/-- Offsets of the parts of an activation image (R222): zero points, scales, end. -/
structure AParts where
  zero : Nat
  scale : Nat
  len : Nat
  deriving DecidableEq, Repr

/-- The parts of an activation image of `rows` rows of `e` elements. -/
def aParts (a e rows sc : Nat) : AParts :=
  let zp := pad64 (cdiv (rows * e * fmtWidth a) 8)
  let scale := zp + (if a == 10 || a == 12 then pad64 rows else 0)
  ⟨zp, scale, scale + pad64 (scaleBytes sc rows rows)⟩

/-- Bytes of a 16 × 16 tile of a format. -/
def tileBytes (f : Nat) : Nat := 32 * fmtWidth f

/-! ### Lengths of stash operands (R177, R299, R300) -/

/-- Width in bits of an element of OPA of a V instruction (R299). -/
def vWidth (i : Ins) : Nat :=
  if (i.op == 0x38 && 5 ≤ i.fn) || (i.op == 0x3A && (i.fn == 3 || i.fn == 7)) then 1
  else if i.op == 0x35 || (i.op == 0x3A && (i.fn == 4 || i.fn == 5 || i.fn == 6)) then 64
  else if i.op == 0x36 then (if bit i.opb 10 then 32 else 64)
  else fmtWidth i.a

/-- Element count N of a V instruction from its list operand's LEN (R299). DESIGN CHOICE (log entry 68): where the width does not divide
(6-bit elements), N is rounded down, as is the element count of an extent. -/
def vCount (lenKib width : Nat) : Nat := if lenKib == 0 then 256 else lenKib * 8192 / width

/-- Bytes a V instruction writes at OPD for `n` elements, to whole lines (R300, R301). -/
def vOut (i : Ins) (n lenD : Nat) : Nat :=
  pad64 (match i.op with
    | 0x35 => 8 * n
    | 0x36 => (if bit i.opb 11 then 0 else 64) + 8 * (if i.x then bits i.opb 8 0 else min (bits i.opb 8 0) n)
    | 0x37 => 4 * n
    | 0x38 => cdiv n 8
    | 0x3A =>
      (match i.fn with
       | 0 => 4
       | 1 => cdiv (fmtWidth i.d) 8
       | 2 => cdiv (fmtWidth i.d) 8
       | 3 => 4
       | 4 => if lenD == 0 then 64 else 1024 * lenD
       | 5 => 1024 * max 1 lenD
       | 6 => 8 * n
       | _ => 4 * n)
    | _ => cdiv (n * fmtWidth i.d) 8)

/-- Bytes a V instruction reads at OPB for `n` elements. -/
def vInB (i : Ins) (n : Nat) : Nat :=
  pad64 (if i.op == 0x38 then (if i.fn == 4 then (if i.a == 8 then 8192 else 32) else cdiv n 8)
    else cdiv (n * fmtWidth i.b) 8)

/-- The element width of a transposed read (R379): the format that the opcode associates with the operand. A key, a pair or
a control line has none, and counts as 32 bits. -/
def transWidth (i : Ins) (o : Opnd) : Nat :=
  match i.op with
  | 0x20 => fmtWidth i.b
  | 0x21 => fmtWidth i.a
  | 0x41 => fmtWidth i.b
  | 0x42 => fmtWidth i.b
  | 0x71 => fmtWidth i.a
  | 0x37 => fmtWidth i.a
  | 0x34 => fmtWidth i.a
  | 0x39 => fmtWidth i.a
  | 0x3A => if i.fn ≤ 2 then fmtWidth i.a else 32
  | 0x38 => if o.slot == 1 && i.fn ≤ 4 then fmtWidth i.a else 32
  | 0x30 => if o.slot == 1 then fmtWidth i.a else fmtWidth i.b
  | 0x31 => if o.slot == 1 then fmtWidth i.a else fmtWidth i.b
  | 0x32 => if o.slot == 1 then fmtWidth i.a else fmtWidth i.b
  | 0x33 => if o.slot == 1 then fmtWidth i.a else fmtWidth i.b
  | _ => 32

/-- SPARSITY of the instruction's weight operand. -/
def wbOf (ops : Option Opnd × Option Opnd × Option Opnd) : Option Opnd :=
  ([ops.1, ops.2.1, ops.2.2].filterMap id).find? fun o => o.space == 2

/-- The least that AT.MERGE writes at OPD: the merged state, or the output tiles where half of the state's tiles are stats (R474). -/
def mergeOut (i : Ins) (ops : Option Opnd × Option Opnd × Option Opnd) : Nat :=
  let tiles := max 2 ((ops.2.1.map (·.lenKib)).getD 0)
  if i.x then tiles / 2 * tileBytes i.d else tiles * 1024

/-- Bytes of a stash or CELL operand (R177, R227, R228, R299, R300, R346, R351, R416, R472 to R474). -/
def stashLen (i : Ins) (ops : Option Opnd × Option Opnd × Option Opnd) (o : Opnd) : Nat :=
  if o.lenKib != 0 then 1024 * o.lenKib
  else if o.trans && o.slot == 2 && 0x30 ≤ i.op && i.op ≤ 0x3A then
    cdiv (vInB i (vCount ((ops.2.1.map (·.lenKib)).getD 0) (vWidth i))) (32 * transWidth i o) * (32 * transWidth i o)
  else if o.trans then 32 * transWidth i o
  else match i.op with
    | 0x20 => (wParts i.a i.b i.shape ((wbOf ops).map (·.sparsity) |>.getD 0) i.scale).len
    | 0x21 => pad64 (tileBytes i.a)
    | 0x23 => tileBytes i.d
    | 0x11 => 64
    | 0x14 => 64
    | 0x62 => 64
    | 0x40 => 1024
    | 0x41 => 1024
    | 0x42 => if o.space == 9 then ops.2.2.elim 1024 fun b =>
        if b.lenKib != 0 then 1024 * b.lenKib else if b.trans then 32 * transWidth i b else 1024 else 1024
    | 0x50 => 1024
    | 0x43 => 2048
    | 0x44 => if o.slot == 1 then 1024 else 2048
    | 0x71 => tileBytes i.a
    | 0x72 =>
      let tiles := (ops.2.1.map (·.lenKib)).getD 0
      if o.slot == 0 then pad64 (tiles * tileBytes i.d) + tiles / shapeW i.shape * 1024 else 1024
    | 0x73 =>
      if o.slot == 0 then mergeOut i ops
      else if o.slot == 2 then 1024 * max 1 ((ops.2.1.map (·.lenKib)).getD 0) else 1024
    | 0x74 => if o.slot == 1 then 384 else if i.x then 256 else 128
    | 0x75 => if i.x then 64 else 256
    | _ =>
      let n := vCount ((ops.2.1.map (·.lenKib)).getD 0) (vWidth i)
      if o.slot == 0 then vOut i n o.lenKib else if o.slot == 1 then pad64 (cdiv (n * vWidth i) 8) else vInB i n

/-! ### Pairs (R312, R321) -/

/-- A key pair (key, payload) or a route pair (LOC, ROW). -/
abbrev Pair := Nat × Nat

/-- A pair read from 64 bits. -/
def toPair (v : Nat) : Pair := (v % 2 ^ 32, v / 2 ^ 32)

/-- A skip pair (R321). -/
def isSkip (p : Pair) : Bool := p.1 == 0xFFFFFFFF

/-- Elements that a bound of lines holds of a `w`-bit operand (R302). -/
def boundElems (b : Option Nat) (w : Nat) : Option Nat := b.map fun e => e * 512 / w

end Sys2Proof.Machine
end

