-- ==== Sys2Proof/Machine/Units.lean ====
section
/-! DEFINITION. The software reset of a unit, of cells, blocks and regions, and the compatibility resets (R657 to R662). -/

namespace Sys2Proof.Machine

open Sys2Proof

/-- Reference-clock cycles in ps. -/
def refCycles (n : Nat) : Nat := n * 10000

/-- The UNIT word of a unit under software reset (R621). -/
def unitWord (cls num : Nat) : Nat :=
  match cls with
  | 0 => chipUnit ([0x0A, 6, 7, 0, 0, 9, 0, 5, 8, 0x0B].getD num 0) 0
  | 1 => chipUnit 1 num
  | 2 => chipUnit 2 num
  | 3 => chipUnit 3 num
  | 4 => chipUnit 4 num
  | 5 => num * 256
  | 6 => blockId num
  | _ => num

/-- A unit goes into reset for 64 reference cycles; a unit already in reset, or a write before READY, is left alone. -/
def softReset (s : State) (cls num : Nat) (accepted : Bool) (act : State → State) : State :=
  if !s.rst.ready || s.inReset cls num then s
  else if !accepted then { s with rst := { s.rst with swRej := true } }
  else
    let s := act s
    { s with rst := { s.rst with units := s.rst.units ++ [{ cls, num, since := s.clk.ps }] } }

/-- A counter at its reset value. -/
def dropCounters (s : State) (gone : Nat → Bool) : State :=
  { s with mon := { s.mon with counters := skeep (fun a => !gone a) s.mon.counters } }

/-- A cell's buffers and accumulators, which its logic holds (R660). -/
def clearLogic (s : State) (c : Nat) : State :=
  s.updMm c fun m => { m with wb := [], ab := [], acc := [], wbBad := [], abBad := [], accBad := [] }

/-- A cell's reset (R658, R660): its logic and fields, but not its counts, its stash or its RWL fields; the written bits are
cleared (R387). -/
def resetCell (c : Nat) (s : State) : State :=
  let s := clearLogic (clearWritten s c) c
  let s := s.updCell c fun x => { x with
    seq := {}
    stash := { x.stash with flipArmed := false, flipFired := false }
    mm := { x.mm with replayed := false, uncorr := false, corrTimes := [], lastBank := 0 } }
  dropCounters s fun a => decide (cellBase c ≤ a) && decide (a < cellBase c + 0x400)

/-- A block's reset: its cells, crossbar, arbiter and error controller (R660). -/
def resetBlock (b : Nat) (s : State) : State :=
  let s := (blockCells b).foldl (fun s c => resetCell c s) s
  let s := { s with err := { s.err with blockQ := sdel s.err.blockQ b, overBlock := sdel s.err.overBlock b } }
  dropCounters s fun a => decide (blockBase b ≤ a) && decide (a < blockBase b + 0x4000)

/-- A region's reset: its blocks, error controller and trace buffer (R660, R721). -/
def resetRegion (r : Nat) (s : State) : State :=
  let s := (upto (r * 12) 12).foldl (fun s b => resetBlock b s) s
  let s := { s with err := { s.err with regionQ := sdel s.err.regionQ r, overRegion := sdel s.err.overRegion r } }
  s.updRegion r fun x => { x with trcCtrl := 0, trcFrozen := false, draining := false, trace := [] }

/-- No job holds a cell of the unit. -/
def unheld (s : State) (cs : List Nat) : Bool := cs.all fun c => (s.heldBy c).isEmpty

/-! ### EB5 compatibility (R661, R662) -/

/-- The cells of a unit that a compatibility reset resets. -/
def compatCells (cls n : Nat) : List Nat := match cls with | 5 => regionCells n | 6 => blockCells n | _ => [n]

/-- COMPAT_RESET (R662): the unit is reset; a fenced unit stays as it is. -/
def compatReset (s : State) (e : CompatWait) : State :=
  let fenced := match e.cls with | 5 => s.regionReason e.num != 0 | 6 => s.blockReason e.num != 0 | _ => s.cellReason e.num != 0
  if fenced || s.inReset e.cls e.num then s
  else
    let s := softReset s e.cls e.num true (match e.cls with | 5 => resetRegion e.num | 6 => resetBlock e.num | _ => resetCell e.num)
    raiseChip s 0x3302 0 0 0 0 [unitWord e.cls e.num, e.code]

/-- The compatibility resets that are due take place. -/
def compatRun (s : State) (due : CompatWait → Bool) : State :=
  let now := s.rst.compatWait.filter due
  now.foldl compatReset { s with rst := { s.rst with compatWait := s.rst.compatWait.filter fun e => !due e } }

/-- Those of F errors, at once (R662). -/
def compatNow (s : State) : State := compatRun s (·.fatal)

/-- Those due at a tick: of a J error once no job holds the unit (R662). -/
def compatResets (s : State) : State := compatRun s fun e => e.fatal || unheld s (compatCells e.cls e.num)

end Sys2Proof.Machine
end

