-- ==== Sys2Proof/Machine/Issue.lean ====
section
/-! DEFINITION. The checks at issue and the issue of one instruction (R167, R172, R173, R176 to R194, R298, R84). -/

namespace Sys2Proof.Machine

open Sys2Proof

/-- The three operand slots of an instruction. -/
abbrev Opnds := Option Opnd × Option Opnd × Option Opnd

/-- The operands that are there. -/
def opndList (o : Opnds) : List Opnd := [o.1, o.2.1, o.2.2].filterMap id

/-! ### Encoding checks, 4 to 7 of R187 -/

/-- A literal's fields are in range (R305, R314, R316, R330, R441, R442, R542). -/
def litOk (i : Ins) (k : Kind) (v : Nat) : Bool :=
  match i.op with
  | 0x30 => v < 2 ^ fmtWidth i.a
  | 0x31 => v < 2 ^ fmtWidth i.a
  | 0x33 => v < 2 ^ fmtWidth i.a
  | 0x38 => v < 2 ^ fmtWidth i.a
  | 0x36 => 1 ≤ bits v 8 0 && bits v 8 0 ≤ 256 && bits v 15 12 == 0 && !(bit v 11 && i.x)
  | 0x3B => v < 32 && (bit v 4 || v % 16 ≤ (if k = .V then 9 else 3))
  | 0x80 => v < 2 ^ 17
  | 0x81 => v < 16
  | 0x51 => v < 16 && v % 4 != 3
  | _ => true

/-- A descriptor's reserved bits are zero and its fields in range (R177, R179, R183, R185, R190, R227, R228, R477, R492). -/
def opndOk (i : Ins) (r : OpInfo) (k : Kind) (o : Opnd) : Bool :=
  let sl := match o.slot with | 0 => r.opd | 1 => r.opa | _ => r.opb
  if o.space == litSpace then litOk i k o.v
  else
    let wide := o.wide
    o.v &&& reservedMask o.space wide == 0 && (sl != .none || o.space == 0) && (sl != .low || i.op != 0x11 || o.v == 0) &&
    (match o.space with
     | 1 => if i.op == 0x22 || i.op == 0x70 then o.count == 0 else 1 ≤ o.count && o.count ≤ 64
     | 2 => o.sparsity != 3 && !(i.op == 0x20 && o.extEn)
     | 3 => (i.op == 0x21 || o.rows != 0) && !(i.op == 0x21 && o.extEn)
     | 4 => o.lenKib ≤ 384 && !(o.lenKib != 0 && [0x11, 0x14, 0x62, 0x74, 0x75].contains i.op)
     | 7 => 1 ≤ o.tkind && o.tkind ≤ 3
     | 8 => !(wide && o.extEn && (i.op == 0x51 || i.op == 0x80))
     | 9 => !wide || o.lenKib ≤ 384
     | _ => true)

/-- Check 4: reserved and unused fields are zero, fields in range (R176, R177, R283). -/
def check4 (i : Ins) (r : OpInfo) (k : Kind) (o : Opnds) : Bool :=
  (r.useA || i.a == 0) && (r.useB || i.b == 0) && (r.useD || i.d == 0) && (r.useScale || i.scale == 0) &&
  ((r.useRound && !(i.op == 0x3A && 3 ≤ i.fn)) || (!i.sr && !i.sat)) && (r.useX || r.isF || !i.x) &&
  (opndList o).all (opndOk i r k)

/-- A slot accepts its operand's space, and for a REG slot its kind (R180). -/
def slotAccepts (sl : OpSlot) (o : Opnd) : Bool :=
  match sl with
  | .none => o.space == 0
  | .lit => true
  | .sp l => l.contains o.space
  | .orLit => o.space == litSpace || o.space == 4
  | .reg e => o.space == 6 && o.isExtent == e
  | .wide w also => o.space == w || also == some o.space
  | .low => true

/-- Check 5. -/
def check5 (r : OpInfo) (o : Opnds) : Bool :=
  o.1.all (slotAccepts r.opd) && o.2.1.all (slotAccepts r.opa) && o.2.2.all (slotAccepts r.opb)

/-- The V arithmetic formats (R290). -/
def laneFmt (a : Nat) : Bool := a ≤ 4 || (8 ≤ a && a ≤ 10)
/-- FMT_D of V arithmetic (R291). -/
def laneDest (a d : Nat) : Bool := d == a || (d == 0 && isFloat a)
/-- The operand pairs of MM.SWEEP (R216). -/
def pairOk (a b : Nat) : Bool :=
  (1 ≤ a && a ≤ 7 && ((1 ≤ b && b ≤ 7) || b == 14 || b == 15)) || (8 ≤ a && a ≤ 13 && 8 ≤ b && b ≤ 13)
/-- The formats of a transposed MV source (R292). -/
def mvTransFmt (b : Nat) : Bool := (1 ≤ b && b ≤ 4) || (8 ≤ b && b ≤ 10)
/-- The scale block limits (R224). -/
def scaleFits (i : Ins) (sp : Nat) : Bool :=
  let kt := (geom i.a i.b i.shape sp).kt
  i.shape == 3 || (match i.scale with | 1 => kt ≤ 32 | 2 => kt ≤ 16 | _ => true)

/-- The format fields are valid for the opcode. -/
def formatsOk (i : Ins) (o : Opnds) : Bool :=
  let sp := (wbOf o).map (·.sparsity) |>.getD 0
  match i.op with
  | 0x20 => pairOk i.a i.b && scaleFits i sp
  | 0x21 => 1 ≤ i.a && i.a ≤ 13
  | 0x22 => pairOk i.a i.b && scaleFits i sp
  | 0x23 => i.d ≤ 7
  | 0x30 => laneFmt i.a && laneDest i.a i.d && i.b == (if i.x then 0 else i.a)
  | 0x31 => laneFmt i.a && laneDest i.a i.d && i.b == (if i.x then 0 else i.a)
  | 0x33 => laneFmt i.a && laneDest i.a i.d && i.b == (if i.x then 0 else i.a)
  | 0x32 => laneFmt i.a && laneDest i.a i.d && i.b == i.a
  | 0x34 => i.a ≤ 2 && i.d ≤ 4
  | 0x35 => i.a == 0 || i.a == 9 || i.a == 10
  | 0x36 => i.a == 0 || i.a == 9 || i.a == 10
  | 0x37 => (i.a == 0 || (8 ≤ i.a && i.a ≤ 10)) && i.d == 0
  | 0x38 => i.d == 0 && i.b == 0 &&
      (if i.fn < 4 then laneFmt i.a else if i.fn == 4 then 8 ≤ i.a && i.a ≤ 10 else i.a == 0)
  | 0x39 => i.a ≤ 13 && i.d ≤ 13 && !(i.x && i.a == 0 && i.d == 0)
  | 0x3A => if i.fn == 0 then laneFmt i.a && i.d == 0
      else if i.fn ≤ 2 then laneFmt i.a && laneDest i.a i.d else i.a == 0 && i.d == 0
  | 0x40 => i.b == 0
  | 0x41 => if o.2.2.any (·.trans) then mvTransFmt i.b else i.b == 0
  | 0x42 => if o.2.2.any (·.trans) then mvTransFmt i.b else i.b == 0
  | 0x70 => 1 ≤ i.a && i.a ≤ 4 && 1 ≤ i.b && i.b ≤ 4 && i.d == 0 && (i.scale == 0 || i.scale == 3)
  | 0x71 => 1 ≤ i.a && i.a ≤ 4 && 1 ≤ i.b && i.b ≤ 4 && i.d == 0 && (i.scale == 0 || i.scale == 3)
  | 0x72 => i.a == 0 && i.b == 0 && 1 ≤ i.d && i.d ≤ 4 && i.scale == 0
  | 0x73 => i.a == 0 && i.b == 0 && i.scale == 0 && (if i.x then i.d ≤ 4 else i.d == 0)
  | 0x74 => i.a == 0 && i.b == 0 && i.d == 0 && i.scale == 0
  | 0x75 => i.a == 0 && i.b == 0 && i.d == 0 && i.scale == 0
  | _ => true

/-- SR and SAT are valid (R283). -/
def roundOk (i : Ins) : Bool :=
  (!i.sat || i.d == 3 || i.d == 4) && (!i.sr || i.op != 0x23 || (1 ≤ i.d && i.d ≤ 7))

/-- TRANSPOSE is valid: not on a written operand, on an 8-bit or 16-bit format only (R179, R351, R379). -/
def transOk (i : Ins) (o : Opnd) : Bool :=
  !o.trans || (o.slot != 0 && i.op != 0x50 && (transWidth i o == 8 || transWidth i o == 16))

/-- Check 6. -/
def check6 (i : Ins) (r : OpInfo) (o : Opnds) : Bool :=
  formatsOk i o && (!r.useRound || roundOk i) && (opndList o).all (transOk i)

/-- Check 7: SHAPE or the function code (R226, R303, R306). -/
def check7 (i : Ins) (r : OpInfo) (o : Opnds) : Bool :=
  if r.isF then !(i.op == 0x34 && 6 ≤ i.fn)
  else if !r.useShape then i.shape == 0
  else i.shape != 3 &&
    !(i.shape == 2 && (wbOf o).any (fun w => w.sparsity == 1) && (i.op == 0x20 || i.op == 0x22) && packing i.a i.b == 1)

/-- The encoding checks in order: the first fault's code. -/
def encodingFault (i : Ins) (k : Kind) (lead : Bool) : Option Nat :=
  match opInfo i.op with
  | none => some 0x0101
  | some r =>
    let o := operands i r
    if !(match k with | .M => r.m | .V => r.v | .S => r.s) then some 0x0102
    else if i.op == 0x01 && !lead then some 0x0103
    else if !check4 i r k o then some 0x0104
    else if !check5 r o then some 0x0105
    else if !check6 i r o then some 0x0106
    else if !check7 i r o then some 0x0107 else none

/-! ### Resource checks, 8 to 13 of R187 -/

/-- What an instruction is issued with: its cell, its job, its virtual cell, the sheet bias. -/
structure Ctx where
  c : Nat
  j : Job
  v : VCell
  bias : Nat
  i : Ins
  o : Opnds
  who : Issuer
  deriving DecidableEq, Repr

/-- The OPD operand. -/
def Ctx.od (x : Ctx) : Opnd := x.o.1.getD ⟨0, 0, 0⟩
/-- The OPA operand. -/
def Ctx.oa (x : Ctx) : Opnd := x.o.2.1.getD ⟨1, 0, 0⟩
/-- The OPB operand. -/
def Ctx.ob (x : Ctx) : Opnd := x.o.2.2.getD ⟨2, 0, 0⟩

/-- The banks left in a cell's run (R241): those before the first one fenced. -/
def runBanks (s : State) (c : Nat) : List Nat :=
  (s.cell c).seq.banks.takeWhile fun b => !bit (s.cellPlan c).banksGone b

/-- The banks left in the run of the job that holds a cell: the one whose sheets it runs, or one that is switched out and keeps the
cell (R90, R241, R255). -/
def heldRun (s : State) (c : Nat) : Option (List Nat) :=
  if (s.cell c).seq.job != 0 then some (runBanks s c)
  else (s.jobs.findSome? fun j => j.kept.find? fun k => k.cell == c).map fun k =>
    k.banks.takeWhile fun b => !bit (s.cellPlan c).banksGone b

/-- Tiles available (R189, R191). -/
def tilesAvail (s : State) (c : Nat) : Nat := 16 * (runBanks s c).length

/-- Bytes of a virtual cell's declared stash. -/
def stashBytes (v : VCell) : Nat := v.stashGran * 16384

/-- The offset of a DEV operand with the bias (R178). -/
def devOffset (bias : Nat) (o : Opnd) : Nat := o.devOff + (if o.biasEn then bias else 0)

/-- Bytes of a DEV operand that check 9 tests (R183, R188, R416). -/
def devLen (i : Ins) (o : Opnds) : Nat :=
  match i.op with
  | 0x40 => (o.1.map (stashLen i o)).getD 0
  | 0x41 => (o.2.2.map (stashLen i o)).getD 0
  | _ => 64

/-- Check 9 of one operand: the segment and end offset of a failed access. -/
def segFault (j : Job) (bias : Nat) (i : Ins) (os : Opnds) (o : Opnd) : Option (Nat × Nat) :=
  if o.space != 8 then none
  else
    let fin := devOffset bias o + devLen i os
    match j.image.segs[o.seg]? with
    | none => some (o.seg, fin)
    | some g =>
      if g.len < fin || (if i.op == 0x41 then !g.writable else g.code) then some (o.seg, fin) else none

/-- Check 10 of one operand. -/
def cellFault (j : Job) (i : Ins) (o : Opnd) : Bool :=
  o.space == 9 && !(j.image.cells.any fun v => v.vcell == o.vcell && (i.op != 0x50 || !decide (kindOf v.vcell = .S)))

/-- Check 11 of one operand (R469, R321). -/
def tableFault (j : Job) (i : Ins) (o : Opnd) : Bool :=
  o.space == 7 && (!(j.image.tables.any fun t => t.kind == o.tkind && t.id == o.tid) ||
    (if i.op == 0x43 || i.op == 0x44 then o.tkind == 1 else o.tkind != 1))

/-- The committed image of a table. -/
def tableImage (s : State) (job kind id : Nat) : Option Bytes :=
  (s.tables.find? fun t => t.job == job && t.kind == kind && t.id == id).bind (·.image)

/-- A stash or CELL range leaves its declared stash, or starts unaligned for a transposed read (R347, R379). -/
def stashRangeBad (j : Job) (v : VCell) (i : Ins) (os : Opnds) (o : Opnd) : Bool :=
  let decl := if o.space == 9 then (j.image.cells.find? fun x => x.vcell == o.vcell) else some v
  let limit := (decl.map stashBytes).getD 0
  (o.space == 4 || o.space == 9) &&
    (limit < o.start + stashLen i os o || (o.trans && o.start % (32 * transWidth i o) != 0))

/-- A footprint beyond its buffer (R220, R222, R227, R228, R469). -/
def bufferBad (i : Ins) (os : Opnds) (o : Opnd) : Bool :=
  let sp := (wbOf os).map (·.sparsity) |>.getD 0
  let src := (os.2.1.map (stashLen i os)).getD 0
  match o.space with
  | 2 => 16384 < o.start + (if i.op == 0x20 then src else (wParts i.a i.b i.shape o.sparsity i.scale).len)
  | 3 => 65536 < o.start +
      (if i.op == 0x21 then src
       else if i.op == 0x70 then pad64 (cdiv (o.rows * 16 * fmtWidth i.a) 8)
       else (aParts i.a (geom i.a i.b i.shape sp).kt o.rows i.scale).len)
  | _ => false

/-- The length rules of single opcodes at check 12 (R231, R300, R313, R325, R347, R351, R472, R473). -/
def lengthBad (s : State) (j : Job) (v : VCell) (i : Ins) (os : Opnds) : Bool :=
  let len (o : Option Opnd) : Nat := (o.map (stashLen i os)).getD 0
  let kib (o : Option Opnd) : Nat := (o.map (·.lenKib)).getD 0
  let n := vCount (kib os.2.1) (vWidth i)
  let short (o : Option Opnd) (need : Nat) : Bool := o.any fun x => x.space == 4 && x.lenKib != 0 && 1024 * x.lenKib < need
  match i.op with
  | 0x23 => len os.1 < (os.2.1.map (·.count)).getD 0 * tileBytes i.d
  | 0x42 => short (os.1.map fun o => { o with space := 4 }) (len os.2.2)
  | 0x50 => (match os.2.2 with
      | some b => (if b.space == 1 then b.count * 1024 else stashLen i os b) != 1024 * max 1 (kib os.1)
      | none => false)
  | 0x43 => (match os.2.1, os.1 with
      | some t, some d =>
        let pairs := vCount (kib os.2.2) 64
        let rb := (tableImage s j.id t.tkind t.tid).elim 0 fun b => num b 8 4
        (d.lenKib != 0 && 1024 * d.lenKib < pairs * rb) || stashBytes v < d.start + pairs * rb
      | _, _ => false)
  | 0x71 =>
      let tiles := len os.2.1 / tileBytes i.a
      tiles == 0 || tiles % shapeW i.shape != 0
  | 0x72 => kib os.2.1 == 0 || kib os.2.1 % shapeW i.shape != 0 ||
      short os.1 (pad64 (kib os.2.1 * tileBytes i.d) + kib os.2.1 / shapeW i.shape * 1024)
  | 0x35 => 1024 < n || short os.1 (vOut i n (kib os.1))
  | 0x73 => short os.1 (mergeOut i os)
  | _ =>
    if 0x30 ≤ i.op && i.op ≤ 0x3A then short os.1 (vOut i n (kib os.1)) || short os.2.2 (vInB i n) else false

/-- Accumulator tiles an instruction needs (R190). -/
def tilesNeeded (i : Ins) (os : Opnds) : Nat :=
  match (opndList os).find? (fun o => o.space == 1) with
  | none => 0
  | some o =>
    if i.op == 0x22 || i.op == 0x70 then o.first + cdiv ((os.2.1.map (·.rows)).getD 0) 16 * shapeW i.shape
    else o.first + o.count

/-- The cairns an instruction names: its CAIRN operand, or the one of PL.ISSUE with SIGNAL_EN (R178, R441). -/
def cairnsNamed (i : Ins) (os : Opnds) : List Nat :=
  (((opndList os).filter fun o => o.space == 5).map (·.cairn)) ++
    (if i.op == 0x80 && bit i.opd 4 then [bits i.opd 16 5] else [])

/-- The resource checks in order: the first fault's code and the items it adds (R193). -/
def resourceFault (s : State) (c : Nat) (j : Job) (v : VCell) (bias : Nat) (i : Ins) (os : Opnds) : Option (Nat × List Nat) :=
  if (cairnsNamed i os).any fun n => j.params.cairnCount ≤ n then some (0x0108, [])
  else match (opndList os).findSome? (segFault j bias i os) with
    | some e => some (0x0109, e.1 :: item64 e.2)
    | none =>
      if (opndList os).any (cellFault j i) then some (0x010A, [])
      else if (opndList os).any (tableFault j i) then some (0x010B, [])
      else if (opndList os).any (fun o => stashRangeBad j v i os o || bufferBad i os o) || lengthBad s j v i os
      then some (0x010C, [])
      else
        let need := tilesNeeded i os
        if tilesAvail s c < need then some (0x010D, [need, tilesAvail s c]) else none

/-! ### Issue -/

/-- The value of predicate `n` of a cell's block; P0 reads 1 (R171). -/
def predOf (s : State) (c n : Nat) : Bool := n == 0 || bit (s.block (blockIndex c)).preds n

/-- The value of extent `n` of a cell's block (R174). -/
def extOf (s : State) (c n : Nat) : Nat := (sget (0 : Word) (s.block (blockIndex c)).extents n).toNat

/-- The extent that bounds an operand, if one does (R195, R233). -/
def bound (s : State) (c : Nat) (o : Opnd) : Option Nat := if o.extEn then some (extOf s c o.ext) else none

/-- The smaller of two bounds (R197). -/
def minBound (a b : Option Nat) : Option Nat :=
  match a, b with
  | some x, some y => some (min x y)
  | some x, none => some x
  | none, y => y

/-- Rows in play under a bound. -/
def clipTo (b : Option Nat) (n : Nat) : Nat := b.elim n fun e => min e n

/-- SHEETS_SINCE of a V or S cell: ticks, its region not gated, since its last passed proof, at most 64 (R332). -/
def sheetsSince (s : State) (c : Nat) : Nat :=
  min 64 ((s.region (regionOf c)).pw.liveTicks - (s.cell c).misc.prfBase)

/-- An automatic proof comes before the cell's next instruction (R332). -/
def proofDue (s : State) (c : Nat) : Bool := !decide (kindOf c = .M) && sheetsSince s c == 64

/-- The job a cell may issue for: it runs its sheet, has no ending, and the cell is not done, halted, waiting, or held by
an error record (R66, R165, R194, R494, R628); the part is not stopped (R613, R622). -/
def issuingJob (s : State) (c : Nat) : Option Job :=
  let q := (s.cell c).seq
  match s.job? q.job with
  | none => none
  | some j =>
    if q.job != 0 && j.phase = .running && j.ending.isNone && !q.done && !q.ended && !q.halted && q.wait.isNone && q.fetched
        && !heldAt s 0 c && !s.err.fatal && !s.thm.stopped
        && !(proofDue s c && !(s.region (regionOf c)).pw.gated) then some j else none

/-- An issue fault (R187, R192 to R194): a J record of the cell with INSTR set. -/
def issueFault (s : State) (who : Issuer) (code : Nat) (items : List Nat) : State :=
  raiseCell s code 2 who.cell (some who) items

/-- A region's wake begins (R571, R573). -/
def beginWake (s : State) (r : Nat) (demand : Bool) : State :=
  s.updPw r fun p => { p with wake := some 0, wakeAt := s.clk.ps, wakeCycle := s.clk.cycles, wakeDemand := demand }

/-- A gated region starts to wake on demand, once, and the miss is counted (R84). -/
def wakeOnDemand (s : State) (r : Nat) : State :=
  if !(s.region r).pw.gated || (s.region r).pw.wake.isSome then s
  else (beginWake s r true).countRegion 0x205 r 1

/-- An opcode that is work of its region: all but the sheet family. -/
def isWork (op : Nat) : Bool := 16 ≤ op

/-- One instruction has issued: the stream goes on. -/
def advance (s : State) (c : Nat) (work : Bool) : State :=
  s.updSeq c fun q => { q with index := q.index + 1, issued := q.issued || work }

/-- An instruction reads or writes its own cell's stash: an operand, or a record in the last lines (R352, R465, R543). -/
def usesStash (i : Ins) (o : Opnds) : Bool :=
  (opndList o).any (fun x => x.space == 4) || [0x50, 0x51, 0x70, 0x71].contains i.op

/-- The physical cell of a virtual cell of a job (R178). -/
def physOf (j : Job) (vc : Nat) : Option Nat := (j.image.cells.find? fun v => v.vcell == vc).map (·.pcell)

/-- Where a pair's row lies: a cell's stash (physical cell, byte offset), or device memory. -/
inductive RowAt where
  | stash (cell off : Nat)
  | dev (addr : Nat)
  deriving DecidableEq, Repr

/-- The row a pair names (R323, R324, R326); none where a check fails. `put` asks for a writable segment. -/
def locate (j : Job) (img : Bytes) (put : Bool) (p : Pair) : Option RowAt :=
  let kind := num img 0 1
  let count := num img 4 4
  let rb := num img 8 4
  let entry := if kind == 2 then p.1 % 65536 else p.1
  let e := num img (64 + 8 * entry) 8
  if count ≤ entry then none
  else if kind == 2 then
    let slot := p.1 / 65536
    match j.image.cells.find? fun v => v.vcell == bits e 12 0 with
    | none => none
    | some v =>
      let off := 64 * bits e 28 16 + slot * rb
      if bits e 47 32 ≤ slot || stashBytes v < off + rb then none else some (.stash v.pcell off)
  else match j.image.segs[bits e 47 40]? with
    | none => none
    | some g =>
      if g.len < bits e 39 0 + rb || (if put then !g.writable else g.code) then none else some (.dev (g.base + bits e 39 0))

/-- The table and data operands of MV.GATHER or MV.SCATTER. -/
def routeOpnds (i : Ins) (o : Opnds) : Option (Opnd × Opnd × Opnd) :=
  match o.1, o.2.1, o.2.2 with
  | some d, some a, some b => if i.op == 0x43 then some (a, d, b) else if i.op == 0x44 then some (d, a, b) else none
  | _, _, _ => none

/-- The live pairs of a gather or scatter: its list clipped by the extents of the list and of the data (R299, R302, R325). -/
def routeCount (s : State) (c : Nat) (rb : Nat) (data list : Opnd) : Nat :=
  clipTo (minBound (boundElems (bound s c list) 64) (if rb == 0 then none else boundElems (bound s c data) (8 * rb)))
    (vCount list.lenKib 64)

/-- The cells that a gather's or scatter's pairs name. -/
def routeCells (s : State) (c : Nat) (j : Job) (i : Ins) (o : Opnds) : List Nat :=
  match routeOpnds i o with
  | none => []
  | some (t, data, list) =>
    let img := (tableImage s j.id t.tkind t.tid).getD []
    let x := (s.cell c).stash
    let gran := (s.cell c).seq.gran
    (List.range (routeCount s c (num img 8 4) data list)).filterMap fun k =>
      let p := toPair (leNat (Ram.read x.data (stashPhys gran (list.start + 8 * k)) 8))
      if isSkip p then none
      else match locate j img (i.op == 0x44) p with
        | some (.stash d _) => some d
        | _ => none

/-- The cells whose plumbs an instruction's transfers cross: its own, those it names, those its pairs name. -/
def crossed (s : State) (c : Nat) (j : Job) (i : Ins) (o : Opnds) : List Nat :=
  (if usesStash i o then [c] else []) ++ ((opndList o).filterMap fun x => if x.space == 9 then physOf j x.vcell else none) ++
    routeCells s c j i o

/-- The bytes of the destination's stash that a job's RD.SUM under way will write. -/
def sumRange (s : State) (job : Nat) : Flight → Option (Nat × Nat)
  | .sum d off tag => (s.reds.find? fun g => g.job == job && g.dest == d && g.off == off && g.tag == tag).map fun g =>
      (64 * off, 64 * off + ((g.parts.map fun p => p.data.length).headD 0))
  | _ => none

/-- An instruction of cell `c` may touch the bytes `lo` to `hi - 1` of the stash of cell `t`: an operand reaches them (an operand of LEN 0
whose length its opcode leaves to the data counts to the end), or it reads the record of its own last line, or routes rows there. -/
def touches (c t : Nat) (j : Job) (v : VCell) (i : Ins) (o : Opnds) (rows : List Nat) (lo hi : Nat) : Bool :=
  ((opndList o).any fun x => ((x.space == 4 && t == c) || (x.space == 9 && physOf j x.vcell == some t)) && x.start < hi &&
    lo < x.start + (if x.lenKib == 0 && 0x30 ≤ i.op && i.op != 0x50 then stashBytes v else stashLen i o x)) ||
  (t == c && [0x50, 0x51, 0x70, 0x71].contains i.op && stashBytes v - 64 < hi) || rows.contains t

/-- The RD.SUM totals of the cell that an instruction must wait for: it would touch lines that a total is still to write, in its own
stash or another's (R168). -/
def awaitsSum (s : State) (c : Nat) (j : Job) (v : VCell) (i : Ins) (o : Opnds) : Bool :=
  (s.cell c).seq.flight.any fun f => match f with
    | .sum d _ _ => (physOf j d).any fun t =>
        (sumRange s j.id f).any fun r => touches c t j v i o (routeCells s c j i o) r.1 r.2
    | _ => false

/-- The regions a line passes: along the source row, then the column, then the riser (R338). -/
def route (a b : Nat) : List Nat :=
  let steps (p q : Nat) : List Nat := if p ≤ q then upto p (q - p + 1) else (upto q (p - q + 1)).reverse
  let layer := a / 16 * 16
  let row := a % 16 / 4
  ((steps (a % 4) (b % 4)).map fun x => layer + row * 4 + x) ++
  (((steps row (b % 16 / 4)).drop 1).map fun y => layer + y * 4 + b % 4) ++
  (if a / 16 == b / 16 then [] else [b])

/-- No unit that a move's lines cross holds its work for a record that waits: the crossbars of both blocks, the routers on the way
(R629). -/
def meshOpen (s : State) (c : Nat) (i : Ins) (ds : List Nat) : Bool :=
  !([0x40, 0x41, 0x42, 0x43, 0x44, 0x50].contains i.op) || (c :: ds).all fun d =>
    !heldAt s 1 (blockId (blockIndex d)) && (route (regionOf c) (regionOf d)).all fun r => !heldAt s 2 (r * 256)

/-- The stashes an instruction reaches can be reached: no half of a plumb carries data while it is under test (R374), the lines are
not awaiting a total (R168), and no unit on the way is held (R629). -/
def stashesOpen (s : State) (c : Nat) (j : Job) (v : VCell) (i : Ins) (o : Opnds) : Bool :=
  (crossed s c j i o).all (plumbOpen s) && !awaitsSum s c j v i o && meshOpen s c i (crossed s c j i o)

/-- Extents skip the whole instruction: it takes its issue cycle and does nothing else (R167, R196). -/
def skippedWhole (s : State) (c : Nat) (o : Opnds) : Bool := (opndList o).any fun x => x.bounded && extOf s c x.ext == 0

/-- The plumb failures of the command strike the instruction's transfers. -/
def strike (s : State) (c : Nat) (j : Job) (i : Ins) (o : Opnds) (who : Issuer) (ph : List Phys) : State :=
  if skippedWhole s c o then s else plumbFaults s (crossed s c j i o) (some who) ph

/-- The instruction's transfers go through: it makes none, or the stashes can be reached before and after the failures strike. A
transfer that fails on the last half left waits for the end of that half's test, and its instruction with it (R374, R375). -/
def goesThrough (s : State) (c : Nat) (j : Job) (v : VCell) (i : Ins) (o : Opnds) (who : Issuer) (ph : List Phys) : Bool :=
  skippedWhole s c o || (stashesOpen s c j v i o && stashesOpen (strike s c j i o who ph) c j v i o)

/-- The ISSUE trace record of an instruction, one of every 2^SAMPLE of the cell, in traced blocks (R717, R718). -/
def traceIssue (s : State) (c : Nat) (who : Issuer) : State :=
  let r := s.region (regionOf c)
  let n := (s.cell c).misc.issues
  let s := s.updMisc c fun m => { m with issues := (n + 1) % 32768 }
  if bit r.trcCtrl (16 + blockOf c) && n % 2 ^ bits r.trcCtrl 31 28 == 0 then
    traceRec s (regionOf c) 0 c [who.opcode, who.index, who.sheet]
  else s

/-- The row of opcode `op` at cell `c`: if the next instruction of the cell's stream has that opcode, it is checked and, if
its predicate holds, carried out by `act`; a skipped one takes its place in the stream only, and wakes no region. A reserved
opcode, and the end of the segment, fault under any row; the record of the end names opcode 0 and the segment's length as index,
with INSTR set (DESIGN CHOICE: no instruction stands there, and the spec does not say; log entry 41). -/
def issue (op c : Nat) (ph : List Phys) (s : State) (act : Ctx → State → State) : Host.Outcome State Fault Refusal :=
  let s := injectAll s ph
  match issuingJob s c with
  | none => .next s
  | some j =>
    let q := (s.cell c).seq
    match j.image.cells[q.vindex]? with
    | none => .next s
    | some v =>
      match q.stream[q.index]? with
      | none => .next (issueFault s ⟨c, v.vcell, 0, j.sheet, q.index, j.id⟩ 0x010E [])
      | some w =>
        let i := readIns w
        let who : Issuer := ⟨c, v.vcell, i.op, j.sheet, q.index, j.id⟩
        if i.op != op && (opInfo i.op).isSome then .next s
        else match encodingFault i (kindOf c) (v.vcell == j.image.lead) with
          | some code => .next (issueFault s who code [])
          | none =>
            if predOf s c i.pred == i.pneg then .next ((advance s c false).countCell 0x003 c 1)
            else
              let o := operands i ((opInfo i.op).getD { op := 0 })
              let bias := ((segmentOf j.image v j.sheet).map (·.2)).getD 0
              match resourceFault s c j v bias i o with
              | some (code, items) => .next (issueFault s who code items)
              | none =>
                let work := isWork i.op && !skippedWhole s c o
                if work && (s.region (regionOf c)).pw.gated then .next (wakeOnDemand s (regionOf c))
                else if !goesThrough s c j v i o who ph then
                  .next (if stashesOpen s c j v i o then strike s c j i o who ph else s)
                else
                  let s := strike s c j i o who ph
                  let s := traceIssue ((advance s c work).countCell 0x002 c 1) c who
                  .next (act ⟨c, j, v, bias, i, o, who⟩ s)

/-! ### Stash operands of an instruction -/

/-- The granule map of the issuing cell (R365). -/
def Ctx.gran (s : State) (x : Ctx) : List Nat := (s.cell x.c).seq.gran

/-- Transposes every 16 × 16 tile of `w`-byte elements (R378). -/
def transposeTiles (w : Nat) (b : Bytes) : Bytes :=
  (List.range (b.length / (256 * w))).flatMap fun t =>
    (List.range 256).flatMap fun k => slice b (t * 256 * w + (k % 16 * 16 + k / 16) * w) w

/-- Bytes with those from line `live` on read as zero (R196). -/
def maskLines (b : Bytes) (live : Nat) : Bytes := slice (b.take (live * 64)) 0 b.length

/-- Reads `len` bytes at a stash operand of the issuing cell: the lines in play, zeros beyond; transposed where the operand
says so; its blocks verified first where the instruction moves data (R195, R196, R378, R635). -/
def readOpnd (s : State) (x : Ctx) (o : Opnd) (len : Nat) (b : Option Nat) (verify : Bool) : Option Bytes × State :=
  let gran := x.gran s
  let live := clipTo b (cdiv len 64)
  let n := if o.trans && live != 0 then len else min len (live * 64)
  let (ok, s) := if verify then verifyRange s x.c gran o.start n (some x.who) else (true, s)
  if !ok then (none, s)
  else
    let (d, s) := readStash s x.c gran o.start n (some x.who)
    (d.map fun d =>
      let d := slice d 0 len
      maskLines (if o.trans then transposeTiles (transWidth x.i o / 8) d else d) live, s)

/-- Reads the lines in play of a stash operand for a move, block by block, each block verified first: the bytes of the blocks
read before a failure, and whether all were read (R635 to R637). -/
def readMove (s : State) (x : Ctx) (o : Opnd) (len : Nat) (b : Option Nat) : Bytes × Bool × State :=
  let gran := x.gran s
  let live := clipTo b (cdiv len 64)
  let n := if o.trans && live != 0 then len else live * 64
  let r := (blockPieces (n / 4096 + 2) o.start n).foldl (fun (r : Bytes × Bool × State) p =>
    if !r.2.1 then r
    else
      let (ok, s) := verifyBlock r.2.2 x.c gran (p.1 / 4096) 0 (some x.who)
      if !ok then (r.1, false, s)
      else match readStash s x.c gran p.1 p.2 (some x.who) with
        | (some d, s) => (r.1 ++ d, true, s)
        | (none, s) => (r.1, false, s)) ([], true, s)
  ((if o.trans then transposeTiles (transWidth x.i o / 8) r.1 else r.1).take (live * 64), r.2.1, r.2.2)

/-- Writes bytes at a stash operand of the issuing cell, to whole lines, the lines in play only (R196, R301). -/
def writeOpnd (s : State) (x : Ctx) (o : Opnd) (d : Bytes) (b : Option Nat) : State :=
  let ls := toLines d
  (writeLines s x.c (x.gran s) (o.start / 64) (ls.take (clipTo b ls.length)) (some x.who)).2

/-- The segment's BASE plus the offset of a DEV operand (R178). -/
def devAddr (x : Ctx) (o : Opnd) : Nat := ((x.j.image.segs[o.seg]?).map (·.base)).getD 0 + devOffset x.bias o

/-- The accessor of an instruction (R450, R624). -/
def Ctx.acc (x : Ctx) : Accessor := { who := some x.who, cell := some x.c, job := x.j.id, src := srcCell x.c }

/-- An operation of a cell is issued and not complete. -/
def addFlight (s : State) (c : Nat) (f : Flight) : State := s.updSeq c fun q => { q with flight := q.flight ++ [f] }

end Sys2Proof.Machine
end

