-- ==== Sys2Proof/Machine/Matrix.lean ====
section
/-! DEFINITION. The matrix rows: buffers, accumulator, sweeps with the check column, drains (R212 to R257). -/

namespace Sys2Proof.Machine

open Sys2Proof

/-! ### Buffers (R213, R252, R253) -/

/-- The words of a weight (`ab` false) or activation buffer that a read of `n` bytes touches are decoded; false where one
is uncorrectable. DESIGN CHOICE (log entry 68): the records' buffer item is 0 for weights and 1 for activations, their byte offset counts
over both weight halves, and a corrected word is written back. -/
def decodeBuf (s : State) (x : Ctx) (ab : Bool) (off n : Nat) : Bool × State :=
  let m := (s.cell x.c).mm
  (skeep (fun w => decide (off / 8 ≤ w) && decide (w < cdiv (off + n) 8)) (if ab then m.abBad else m.wbBad)).foldl
    (fun (r : Bool × State) e =>
      if !r.1 then r
      else if popcount 72 e.2 == 1 then
        let s := r.2.updMm x.c fun m =>
          if ab then { m with abBad := sdel m.abBad e.1 } else { m with wbBad := sdel m.wbBad e.1 }
        (true, raiseCell s 0x0206 0 x.c (some x.who) [b2n ab, e.1 * 8])
      else (false, compatNow (raiseCell r.2 0x0207 2 x.c (some x.who) [b2n ab, e.1 * 8]))) (true, s)

/-- Reads a buffer. -/
def readBuf (s : State) (x : Ctx) (ab : Bool) (off n : Nat) : Option Bytes × State :=
  let (ok, s) := decodeBuf s x ab off n
  let m := (s.cell x.c).mm
  if ok then (some (Ram.read (if ab then m.ab else m.wb) off n), s) else (none, s)

/-- Writes a buffer with fresh code words. -/
def writeBuf (s : State) (c : Nat) (ab : Bool) (off : Nat) (d : Bytes) : State :=
  let clean (m : Sparse Nat) : Sparse Nat := skeep (fun w => decide (w < off / 8) || decide (cdiv (off + d.length) 8 ≤ w)) m
  s.updMm c fun m =>
    if ab then { m with ab := Ram.write m.ab off d, abBad := clean m.abBad }
    else { m with wb := Ram.write m.wb off d, wbBad := clean m.wbBad }

/-- MM.LDW and MM.LDA: the lines in play of the stash operand go to the buffer (R227, R228, R635). -/
def loadBuf (s : State) (x : Ctx) (ab : Bool) (off : Nat) : State :=
  let b := bound s x.c x.oa
  let (d, _, s) := readMove s x x.oa (stashLen x.i x.o x.oa) b
  if d.isEmpty then s else writeBuf s x.c ab off d

/-- MM.LDW (R227). -/
def execMmLdw (c : Nat) (ph : List Phys) (s : State) : Host.Outcome State Fault Refusal :=
  issue 0x20 c ph s fun x s => loadBuf s x false (x.od.half * 16384 + x.od.start)

/-- MM.LDA (R228). -/
def execMmLda (c : Nat) (ph : List Phys) (s : State) : Host.Outcome State Fault Refusal :=
  issue 0x21 c ph s fun x s => loadBuf s x true x.od.start

/-! ### The accumulator (R189, R213, R241 to R243) -/

/-- Key of an element of a tile of the run (R241). -/
def accKey (run : List Nat) (tile elem : Nat) : Nat := ((run.getD (tile / 16) 0) * 16 + tile % 16) * 256 + elem

/-- Fences an accumulator bank and raises its record, with the generation that will hold the fence (R48, R242 to R244);
the last bank takes the cell with it (R29). A bank already fenced raises its record alone. -/
def fenceBank (s : State) (x : Ctx) (b : Nat) (record : State → Nat → State) : State :=
  let gen := nextGeneration s
  if bit (s.cellPlan x.c).banksGone b then record s gen
  else
    let s := record (s.updCellPlan x.c fun p => { p with banksGone := p.banksGone ||| 2 ^ b }) gen
    republish (if (s.cellPlan x.c).banksGone == 15 then fenceCellPlan s x.c 6 else s) gen

/-- An element corrected on read (R242): written back, counted, logged; the 16th of a bank in 1,048,576 cycles fences it. DESIGN CHOICE
(log entry 68): the tile item counts within its bank, 0 to 15. -/
def correctAcc (s : State) (x : Ctx) (key : Nat) : State :=
  let b := key / 4096
  let s := s.updMm x.c fun m =>
    let times := (m.corrTimes.filter fun e => s.clk.cycles < e.2 + 1048576) ++ [(b, s.clk.cycles)]
    { m with accBad := sdel m.accBad key, corrTimes := times, accCorrected := sat16 m.accCorrected 1, lastBank := b }
  let s := raiseCell s 0x0203 0 x.c (some x.who) [b, key / 256 % 16, key % 256]
  if 16 ≤ ((s.cell x.c).mm.corrTimes.filter fun e => e.1 == b).length && !bit (s.cellPlan x.c).banksGone b then
    fenceBank s x b fun s gen => raiseCell s 0x0204 1 x.c (some x.who) [b, tilesAvail s x.c, gen] 0 false true
  else s

/-- Reads an element; none where it is uncorrectable (R243). -/
def readAcc (s : State) (x : Ctx) (key : Nat) : Option Nat × State :=
  let m := (s.cell x.c).mm
  let bad : Nat := sget 0 m.accBad key
  let v := (sget (0 : Word) m.acc key).toNat
  if bad == 0 then (some v, s)
  else if popcount 39 bad == 1 then (some v, correctAcc s x key)
  else
    let b := key / 4096
    let s := s.updMm x.c fun m => { m with lastBank := b, uncorr := true }
    (none, compatNow (fenceBank s x b fun s gen =>
      raiseCell s 0x0205 2 x.c (some x.who) [b, key / 256 % 16, key % 256, gen] 0 false true))

/-- Writes an element. -/
def writeAcc (s : State) (c key v : Nat) : State :=
  s.updMm c fun m => { m with acc := sset (0 : Word) m.acc key (BitVec.ofNat 32 v), accBad := sdel m.accBad key }

/-- Adds to an element, or replaces it (R217, R218, R279, R280): FP32, or INT32 with its clamp counted. -/
def accumulate (s : State) (x : Ctx) (key : Nat) (int ovw : Bool) (out : Nat) (iout : Int) : Bool × State :=
  let put (s : State) (old : Nat) : State :=
    if int then
      let r := clamp32 ((if ovw then 0 else signed 32 old) + iout)
      let s := writeAcc s x.c key r.1
      if r.2 then s.updMisc x.c fun m => { m with intSat := sat16 m.intSat 1 } else s
    else writeAcc s x.c key (if ovw then out else addF32 old out)
  if ovw then (true, put s 0)
  else match readAcc s x key with
    | (some old, s) => (true, put s old)
    | (none, s) => (false, s)

/-! ### Weight tiles and rows -/

/-- A latched weight tile: per output column the stored weights with their logical positions, and the column's scale. -/
structure WTile where
  cols : List (List (Nat × Val))
  scales : List Val
  deriving DecidableEq, Repr

/-- An activation row in play: its output row, its elements, whether it is a zero row (R235), its scale. -/
structure ARow where
  m : Nat
  vals : List Val
  zeroRow : Bool
  scale : Val
  deriving DecidableEq, Repr

/-- A zero-point-adjusted element (R277). -/
def elemVal (f v zp : Nat) : Val :=
  if f == 10 then Val.ofInt ((v : Int) - zp) else if f == 12 then Val.ofInt ((v : Int) - (zp % 16 : Nat)) else decodeElem f v

/-- Logical reduction position of stored row `r` (R225). -/
def logicalPos (sp r idx : Nat) : Nat := if sp == 1 then 4 * (r / 2) + idx else if sp == 2 then 4 * r + idx else r

/-- A scale of an image: SQ8 with its second level (R221, R223, R273). -/
def imageScale (sc : Nat) (b : Bytes) (off k : Nat) (second : Nat) : Val :=
  match sc with
  | 1 => scaleVal 1 (num b (off + k) 1)
  | 2 => (scaleVal 2 (num b (off + 4 * (second + 1) + k) 1))
  | 3 => ofF32 (num b (off + 4 * k) 4)
  | _ => .fin false 1 0

/-- Escape codes of group `j` of a weight image, and its COUNT (R265 to R270). -/
def escapeGroup (f : Nat) (b : Bytes) (side j q : Nat) : Nat × Nat :=
  let w := fmtWidth f
  let esc := 2 ^ (w - 1)
  (((upto (256 * j) (min 256 (q - 256 * j))).filter fun n => elemAt b w n == esc).length, num b (side + 64 * j + 0x20) 1 % 32)

/-- The latch of a weight tile image (R220, R221, R225, R230, R268). `lim` is the reduction bound. -/
def latch (i : Ins) (sp : Nat) (b : Bytes) (lim : Option Nat) : WTile :=
  let g := geom i.a i.b i.shape sp
  let p := wParts i.a i.b i.shape sp i.scale
  let w := fmtWidth i.b
  let escaped := i.b == 14 || i.b == 15
  let esc := 2 ^ (w - 1)
  let weight (q n : Nat) : Val :=
    let v := elemAt b w q
    if escaped then
      if v == esc then
        let rank := ((upto (q / 256 * 256) (q % 256)).filter fun k => elemAt b w k == esc).length
        decodeFloat 1 (num b (p.side + 64 * (q / 256) + 2 * rank) 2)
      else Val.ofInt (signed w v)
    else elemVal i.b v (num b (p.zero + n) 1)
  { cols := (List.range g.nt).map fun n => (List.range g.rt).map fun r =>
      let q := r * g.nt + n
      let k := logicalPos sp r (if sp == 0 then 0 else elemAt (b.drop p.idx) 2 q)
      (k, if clipTo lim (k + 1) == k + 1 then weight q n else .zero)
    scales := (List.range g.nt).map fun n =>
      let v := imageScale i.scale b p.scale n 0
      if i.scale == 2 then v.mul (ofF32 (num b p.scale 4)) else v }

/-- The first group whose escapes differ from its side list's COUNT (R270): group, count found, COUNT. -/
def escapeFault (i : Ins) (sp : Nat) (b : Bytes) : Option (List Nat) :=
  if i.b != 14 && i.b != 15 then none
  else
    let g := geom i.a i.b i.shape sp
    let p := wParts i.a i.b i.shape sp i.scale
    (List.range (cdiv (g.rt * g.nt) 256)).findSome? fun j =>
      let e := escapeGroup i.b b p.side j (g.rt * g.nt)
      if e.1 != e.2 || 16 < e.2 then some [j, e.1, e.2] else none

/-- The activation rows of an image (R222, R223): `rb`, `zb`, `sb` its rows, zero points and scales. -/
def readRows (i : Ins) (e live rows : Nat) (rb zb sb : Bytes) : List ARow :=
  let w := fmtWidth i.a
  (List.range live).map fun m =>
    let zp := num zb m 1
    let vs := (List.range e).map fun k => elemVal i.a (elemAt rb w (m * e + k)) zp
    let sc := imageScale i.scale sb 0 m (rows - 1)
    ⟨m, vs, vs.all (·.isZero), if i.scale == 2 then sc.mul (ofF32 (num sb (4 * m) 4)) else sc⟩

/-! ### The check column (R245 to R251) -/

/-- The exact integer of a value without a fraction. -/
def Val.toInt : Val → Int
  | .fin n m e => scaled n m e 0
  | _ => 0

/-- The check weights of a column group: per reduction position c_k, and in float classes m_k, both as the latch path rounds
them; none at a position that holds no weight, whose term is zero whatever the activation (log entry 19). -/
abbrev CheckCol := List (Option (Val × Val))

/-- The check weights of every column group (R245, R247). -/
def checkWeights (int : Bool) (kt : Nat) (t : WTile) : List CheckCol :=
  (List.range (t.cols.length / 16)).map fun grp =>
    let es := ((t.cols.drop (16 * grp)).take 16).flatten
    (List.range kt).map fun k =>
      let vs := (es.filter fun e => e.1 == k).map (·.2)
      if vs.isEmpty then none
      else if int then some (Val.sum vs, .zero)
      else some (ofF32 (toF32 (Val.sum vs)), truncF32 (Val.sum (vs.map Val.abs)))

/-- C, S and B of a row and a column group, from the group's check weights (R245 to R247). -/
def checkSums (int : Bool) (cw : CheckCol) (row : ARow) (outs : List Val) (grp : Nat) : Val × Val × Val :=
  let sum := Val.sum ((outs.drop (16 * grp)).take 16)
  let terms := (row.vals.zip cw).filterMap fun e => e.2.map fun w => (e.1, w)
  let c := Val.sum (terms.map fun e => e.1.mul e.2.1)
  if int then (c, sum, .zero)
  else (ofF32 (toF32 c), sum, truncF32 (Val.sum (terms.map fun e => e.1.abs.mul e.2.2)))

/-- A comparison is not made (R248): a product is infinite or NaN, or S or C leaves FP32. -/
def uncompared (int : Bool) (c sum : Val) (outs : List Val) : Bool :=
  !int && (outs.any (fun v => !v.isFin) || !c.isFin || !(ofF32 (toF32 sum)).isFin)

/-- Tolerance T of a weight format (R256). -/
def tolOf (m : Matrix) (f : Nat) : Nat :=
  if f ≤ 6 then bits m.tol0 (5 * (f - 1) + 4) (5 * (f - 1))
  else if f == 7 then bits m.tol1 4 0 else if f == 14 then bits m.tol1 9 5 else bits m.tol1 14 10

/-- C and S disagree (R246, R247). -/
def mismatched (int : Bool) (tol : Nat) (c sum b : Val) : Bool :=
  if int then !c.eqv sum
  else (b.mul (.fin false 1 (-(tol : Int)))).lt (c.add sum.neg).abs

/-- A word for a detail item: FP32, or the low 32 bits of an integer. -/
def sumWord (int : Bool) (v : Val) : Nat := if int then (v.toInt % 2 ^ 32).toNat else toF32 v

/-- The physical fault that strikes an array cycle, if one does. -/
def cycleFault (ph : List Phys) (cyc : Nat) : Option Phys :=
  ph.find? fun p => match p with
    | .array k _ _ _ => k == cyc
    | .duplicate k _ _ _ => k == cyc
    | _ => false

/-- The column outputs of a row: exact sums of products, rounded once to FP32 in float classes (R217, R218). -/
def columnOuts (int : Bool) (t : WTile) (row : ARow) : List Val :=
  t.cols.map fun c =>
    let v := Val.sum (c.map fun e => (row.vals.getD e.1 .zero).mul e.2)
    if int then Val.ofInt v.toInt else ofF32 (toF32 v)

/-- What a sweep needs besides its tile and rows. -/
structure SweepCfg where
  int : Bool
  scaled : Bool
  ovw : Bool
  g : Geom
  /-- Accumulator tiles per group of 16 rows. -/
  span : Nat
  fmtB : Nat
  first : Nat
  run : List Nat
  ph : List Phys
  deriving DecidableEq, Repr

/-- Compares a row's outputs with the check column (R245 to R248): whether it is not compared, and the items of its first
mismatch: row, column group, C, S, B. -/
def compareRow (k : SweepCfg) (tol : Nat) (cw : List CheckCol) (row : ARow) (outs : List Val) : Bool × Option (List Nat) :=
  let gs := cw.zipIdx.map fun e => (e.2, checkSums k.int e.1 row outs e.2)
  if gs.any (fun e => uncompared k.int e.2.1 e.2.2.1 outs) then (true, none)
  else (false, (gs.find? fun e => mismatched k.int tol e.2.1 e.2.2.1 e.2.2.2).map fun e =>
    [row.m, e.1, sumWord k.int e.2.1, sumWord k.int e.2.2.1, sumWord k.int e.2.2.2])

/-- Compares the rows of an array cycle: how many are not compared, and the first mismatch. -/
def compareCycle (k : SweepCfg) (tol : Nat) (cw : List CheckCol) (rows : List ARow) (outs : List (List Val)) : Nat × Option (List Nat) :=
  let rs := (rows.zip outs).map fun e => compareRow k tol cw e.1 e.2
  ((rs.filter (·.1)).length, rs.findSome? (·.2))

/-- The outputs of a cycle with one column of its first row replaced. -/
def disturb (k : SweepCfg) (outs : List (List Val)) (col v : Nat) : List (List Val) :=
  match outs with
  | [] => []
  | o :: rest => o.set col (if k.int then Val.ofInt (signed 48 v) else ofF32 (v % 2 ^ 32)) :: rest

/-- The items of a disagreement of two copies on one row and column group of a cycle (R249). -/
def twinItems (k : SweepCfg) (cw : List CheckCol) (rows : List ARow) (outs : List (List Val)) (n grp : Nat) : Option (List Nat) :=
  (rows[n]?).map fun row =>
    let z := checkSums k.int (cw.getD grp []) row (outs.getD n []) grp
    [row.m, grp, sumWord k.int z.1, sumWord k.int z.2.1, sumWord k.int z.2.2]

/-- The tiles that a sweep writes are counted as its first array cycle starts (R251). -/
def countTiles (s : State) (c n : Nat) : State := s.updMm c fun m => { m with tilesSince := min 1024 (m.tilesSince + n) }

/-- A mismatch is counted (R251, R255). -/
def countMismatch (s : State) (c : Nat) : State :=
  s.updMm c fun m => { m with mismatches := sat16 m.mismatches 1, tilesSince := 0 }

/-- CHECK_FENCE (R251): the cell is fenced with reason 0x4; the last items are the tile updates since the previous mismatch and
the generation. -/
def checkFence (s : State) (x : Ctx) (items : List Nat) (since : Nat) : State :=
  fenceCell (raiseCell s 0x0202 1 x.c (some x.who) (items ++ [since, nextGeneration s]) 0 true true) x.c 4

/-- Sends a row's outputs through the scale stage to the accumulator. False where a read was uncorrectable. -/
def putRow (s : State) (x : Ctx) (k : SweepCfg) (t : WTile) (row : ARow) (outs : List Val) : Bool × State :=
  (outs.zipIdx).foldl (fun (r : Bool × State) e =>
    if !r.1 then r
    else
      let n := e.2
      let key := accKey k.run (k.first + row.m / 16 * k.span + n / 16) (row.m % 16 * 16 + n % 16)
      let out := if k.scaled then applyScale e.1 ((t.scales.getD n .zero).mul row.scale) else toF32 e.1
      accumulate r.2 x key (k.int && !k.scaled) k.ovw out e.1.toInt) (true, s)

/-- Sends the rows of an array cycle to the accumulator. -/
def putRows (s : State) (x : Ctx) (k : SweepCfg) (t : WTile) (rows : List ARow) (outs : List (List Val)) : Bool × State :=
  (rows.zip outs).foldl (fun (r : Bool × State) e => if !r.1 then r else putRow r.2 x k t e.1 e.2) (true, s)

/-- One array cycle: its check, the replay of a mismatching cycle, and its outputs (R245 to R251, log entry 18). False where the
sweep stops. -/
def sweepCycle (s : State) (x : Ctx) (k : SweepCfg) (t : WTile) (cw : List CheckCol) (cyc : Nat) (rows : List ARow) : Bool × State :=
  let tol := tolOf (s.cell x.c).mm k.fmtB
  let clean := rows.map (columnOuts k.int t)
  let f := cycleFault k.ph cyc
  let outs := match f with
    | some (.array _ col v _) => disturb k clean col v
    | _ => clean
  let r := compareCycle k tol cw rows outs
  let s := s.updMm x.c fun m => { m with skipped := sat32 m.skipped r.1 }
  let twin : Option (List Nat) := match f with
    | some (.duplicate _ row grp _) => twinItems k cw rows clean (row % max 1 rows.length) (grp % max 1 cw.length)
    | _ => none
  match twin.or r.2 with
  | none => putRows s x k t rows outs
  | some items =>
    let since := (s.cell x.c).mm.tilesSince
    let s := countMismatch s x.c
    if since < 1024 then (false, checkFence s x items since)
    else
      let s := s.countCell 0x007 x.c 1
      let (second, again) := match f with
        | some (.array _ _ _ again) => (if again then outs else clean, none)
        | some (.duplicate _ _ _ again) => (clean, if again then some items else none)
        | _ => (clean, none)
      match again.or (compareCycle k tol cw rows second).2 with
      | some items => (false, checkFence (countMismatch s x.c) x items 0)
      | none =>
        let s := s.updMm x.c fun m => { m with replayed := true }
        putRows (raiseCell s 0x0201 0 x.c (some x.who) items) x k t rows second

/-- A skipped zero row: with overwrite its elements become zero (R235). -/
def putZeroRow (s : State) (x : Ctx) (k : SweepCfg) (row : ARow) : State :=
  if !k.ovw then s
  else (List.range k.g.nt).foldl (fun s n =>
    writeAcc s x.c (accKey k.run (k.first + row.m / 16 * k.span + n / 16) (row.m % 16 * 16 + n % 16)) 0) s

/-- Accumulator tiles that a sweep over rows writes: those of the groups of 16 with a row that is not zero, and under overwrite of every
group; none without an array cycle (R235, R251). -/
def tilesWritten (ovw : Bool) (w : Nat) (rows : List ARow) : Nat :=
  let live := rows.filter fun r => !r.zeroRow
  if live.isEmpty then 0 else (((if ovw then rows else live).map fun r => r.m / 16).dedup).length * w

/-- One latched tile swept across its rows (R229, R235, R236, R245 to R251): false where the sweep stopped, at the zero rows
past which nothing is written. -/
def sweepTile (s : State) (x : Ctx) (k : SweepCfg) (t : WTile) (rows : List ARow) : Bool × State :=
  let live := rows.filter fun r => !r.zeroRow
  let per := if k.g.nt == 256 then 1 else k.g.p
  let n := cdiv live.length per
  let cw := checkWeights k.int k.g.kt t
  let s := (s.countCell 0x005 x.c n).countCell 0x006 x.c (rows.length - live.length)
  let r := (List.range n).foldl (fun (r : Bool × Nat × State) q =>
    if !r.1 then r
    else
      let now := (live.drop (q * per)).take per
      let (ok, s) := sweepCycle r.2.2 x k t cw q now
      (ok, (now.head?.map (·.m)).getD 0, s)) (true, 0, s)
  (r.1, (rows.filter fun y => y.zeroRow && (r.1 || decide (y.m < r.2.1))).foldl (fun s y => putZeroRow s x k y) r.2.2)

/-- MM.SWEEP (R229, R230). DESIGN CHOICE (log entry 68): it reads its whole activation image before its first array cycle, so an
uncorrectable word of a later row leaves nothing accumulated (R253). -/
def execMmSweep (c : Nat) (ph : List Phys) (s : State) : Host.Outcome State Fault Refusal :=
  issue 0x22 c ph s fun x s =>
    let i := x.i
    let sp := x.ob.sparsity
    let g := geom i.a i.b i.shape sp
    let rows := x.oa.rows
    let live := clipTo (minBound (bound s c x.od) (bound s c x.oa)) rows
    let lim := bound s c x.ob
    let s := s.countCell 0x004 c ((cdiv rows 16 - (if lim == some 0 then 0 else cdiv live 16)) * g.w)
    if live == 0 || lim == some 0 then s
    else
      let ap := aParts i.a g.kt rows i.scale
      match readBuf s x false (x.ob.half * 16384 + x.ob.start) (wParts i.a i.b i.shape sp i.scale).len with
      | (none, s) => s
      | (some wb, s) => match escapeFault i sp wb with
        | some items => raiseCell s 0x0301 2 c (some x.who) items
        | none => match readBuf s x true x.oa.start (cdiv (live * g.kt * fmtWidth i.a) 8) with
          | (none, s) => s
          | (some rb, s) => match readBuf s x true (x.oa.start + ap.zero) (if i.a == 10 || i.a == 12 then live else 0) with
            | (none, s) => s
            | (some zb, s) => match readBuf s x true (x.oa.start + ap.scale) (scaleBytes i.scale rows rows) with
              | (none, s) => s
              | (some sb, s) =>
                let k : SweepCfg := ⟨decide (8 ≤ i.a), i.scale != 0, i.x, g, g.w, i.b, x.od.first, runBanks s c, ph⟩
                let rs := readRows i g.kt live rows rb zb sb
                (sweepTile (countTiles s c (tilesWritten i.x g.w rs)) x k (latch i sp wb lim) rs).2

/-! ### MM.DRAIN, MM.CLR (R231, R232, R234) -/

/-- A NaN converted to a format without NaN (R284). -/
def nanConverted (s : State) (x : Ctx) (elem : Nat) : State :=
  raiseCell (s.updMisc x.c fun m => { m with nanCvt := sat16 m.nanCvt 1 }) 0x0302 0 x.c (some x.who) [elem]

/-- Logs the NaNs among converted elements, numbered from `base`. -/
def logNans (s : State) (x : Ctx) (base : Nat) (es : List Conv) : State :=
  (es.zipIdx).foldl (fun s e => if e.1.2 then nanConverted s x (base + e.2) else s) s

/-- Reads the first `m` elements of a row of a tile; none where an element is uncorrectable. -/
def readAccRow (s : State) (x : Ctx) (run : List Nat) (tile row m : Nat) : Option (List Nat) × State :=
  (List.range m).foldl (fun (r : Option (List Nat) × State) n =>
    match r.1 with
    | none => r
    | some l => match readAcc r.2 x (accKey run tile (row * 16 + n)) with
      | (some v, s) => (some (l ++ [v]), s)
      | (none, s) => (none, s)) (some [], s)

/-- Reads and converts the first `n` elements of the rows from tile `first` on, in order: their encodings, and the rows read. -/
def drainRows (s : State) (x : Ctx) (run : List Nat) (first n : Nat) : List Nat × Nat × State :=
  let i := x.i
  let r := (List.range (cdiv n 16)).foldl (fun (r : Bool × List Nat × Nat × State) k =>
    if !r.1 then r
    else match readAccRow r.2.2.2 x run (first + k / 16) (k % 16) (min 16 (n - 16 * k)) with
      | (none, s) => (false, r.2.1, r.2.2.1, s)
      | (some vs, s) =>
        if i.d == 0 then (true, r.2.1 ++ vs, r.2.2.1 + 1, s)
        else
          let (es, rng) := encodeAll i.d i.sat i.sr (vs.map ofF32) (s.cell x.c).misc.rng
          let s := s.updMisc x.c fun m => { m with rng := rng }
          (true, r.2.1 ++ es.map (·.1), r.2.2.1 + 1, logNans s x (16 * k) es)) (true, [], 0, s)
  (r.2.1, r.2.2.1, r.2.2.2)

/-- Zeroes rows of the accumulator from tile `first` on. -/
def clearRows (s : State) (c : Nat) (run : List Nat) (first n : Nat) : State :=
  (List.range n).foldl (fun s k => (List.range 16).foldl (fun s e =>
    writeAcc s c (accKey run (first + k / 16) (k % 16 * 16 + e)) 0) s) s

/-- Bytes written over a stash range that may end inside a line: the rest of that line keeps its bytes, or zeros where
nothing has written it (R386). -/
def mergeTail (s : State) (x : Ctx) (o : Opnd) (d : Bytes) : Bytes :=
  let n := d.length % 64
  if n == 0 then d
  else
    let pl := stashPhys (x.gran s) (o.start + d.length) / 64
    let old := if lineWritten s x.c pl then Ram.read (s.cell x.c).stash.data (pl * 64) 64 else List.replicate 64 0
    d ++ old.drop n

/-- Writes bytes at a stash operand. A last line that they cover in part is merged, so its block is verified before, as is every block
covered in part (R133, R234); blocks before one that fails stay written. -/
def writeMerged (s : State) (x : Ctx) (o : Opnd) (d : Bytes) : State :=
  if d.length % 64 == 0 then writeOpnd s x o d none
  else
    let gran := x.gran s
    let last := (o.start + d.length) / 4096
    let head := d.take (last * 4096 - o.start)
    let (ok, s) := writeLines s x.c gran (o.start / 64) (toLines head) (some x.who)
    if !ok then s
    else
      let (ok, s) := verifyBlock s x.c gran last 1 (some x.who)
      if !ok then s
      else (writeLines s x.c gran ((o.start + head.length) / 64) (toLines ((mergeTail s x o d).drop head.length)) (some x.who)).2

/-- Elements of MM.DRAIN in play: those of the rows that OPA's extent leaves, and of the stash lines that OPD's leaves; an element
that reaches into the last line is in play (R195, R196). -/
def drainElems (s : State) (x : Ctx) : Nat :=
  let all := 16 * clipTo (bound s x.c x.oa) (16 * x.oa.count)
  clipTo ((bound s x.c x.od).map fun e => cdiv (e * 512) (fmtWidth x.i.d)) all

/-- MM.DRAIN (R231, R234): the elements in play of the tiles, in row order; the stash lines in play are written. -/
def execMmDrain (c : Nat) (ph : List Phys) (s : State) : Host.Outcome State Fault Refusal :=
  issue 0x23 c ph s fun x s =>
    let all := 16 * x.oa.count
    let elems := drainElems s x
    let live := cdiv elems 16
    let s := s.countCell 0x004 c (cdiv (all - live + live % 16) 16 - b2n (live % 16 != 0))
    let run := runBanks s c
    let (es, n, s) := drainRows s x run x.oa.first elems
    let d := packElems (fmtWidth x.i.d) es
    let s := if n == 0 then s else writeMerged s x x.od (d.take (clipTo ((bound s c x.od).map (· * 64)) d.length))
    if x.i.x then clearRows s c run x.oa.first n else s

/-- MM.CLR (R232). -/
def execMmClr (c : Nat) (s : State) : Host.Outcome State Fault Refusal :=
  issue 0x24 c [] s fun x s =>
    clearRows s c (runBanks s c) x.od.first (clipTo (bound s c x.od) (16 * x.od.count))

end Sys2Proof.Machine
end

