-- ==== Sys2Proof/Machine/Vector.lean ====
section
/-! DEFINITION. The vector rows and proof tiles (R296 to R320, R330 to R336). -/

namespace Sys2Proof.Machine

open Sys2Proof

/-! ### Operands (R299 to R302, R305) -/

/-- The live element count N′ from the element widths of OPA, OPB and OPD (R302). -/
def liveCount (s : State) (x : Ctx) (wa wb wd : Nat) : Nat :=
  let n := vCount x.oa.lenKib wa
  let bb := if x.ob.space == 4 then boundElems (bound s x.c x.ob) wb else none
  clipTo (minBound (boundElems (bound s x.c x.oa) wa) (minBound bb (boundElems (bound s x.c x.od) wd))) n

/-- Reads the first `n` elements of `w` bits at a stash operand. -/
def readElems (s : State) (x : Ctx) (o : Opnd) (w n : Nat) : Option (List Nat) × State :=
  let tile := 32 * transWidth x.i o
  let len := if o.trans then cdiv (cdiv (n * w) 8) tile * tile else cdiv (n * w) 8
  let (d, s) := readOpnd s x o len none false
  (d.map fun b => (List.range n).map fun k => elemAt b w k, s)

/-- Tiles that the extents skip, counted (R196). -/
def skipTiles (s : State) (x : Ctx) (w live : Nat) : State :=
  let n := vCount x.oa.lenKib w
  s.countCell 0x004 x.c (cdiv (n * w) 8192 - cdiv (live * w) 8192)

/-- Writes results at OPD: whole lines, zeros beyond the last, none at or beyond OPD's extent (R195, R196, R301, R302). -/
def writeResults (s : State) (x : Ctx) (d : Bytes) : State :=
  if d.isEmpty then s else writeOpnd s x x.od d (bound s x.c x.od)

/-- Rounds values into FMT_D `f`, with the draws of SR (R288), logs the NaNs lost, and writes them. -/
def writeVals (s : State) (x : Ctx) (f : Nat) (vs : List Val) : State :=
  let (es, rng) := encodeAll f x.i.sat x.i.sr vs (s.cell x.c).misc.rng
  let s := s.updMisc x.c fun m => { m with rng := rng }
  logNans (writeResults s x (packElems (fmtWidth f) (es.map (·.1)))) x 0 es

/-- An element-wise instruction of one or two operands: `f` on the values. -/
def elementwise (s : State) (x : Ctx) (f : Val → Val → Val) : State :=
  let i := x.i
  let wa := fmtWidth i.a
  let n := liveCount s x wa wa (fmtWidth i.d)
  let s := skipTiles s x wa n
  if n == 0 then s
  else match readElems s x x.oa wa n with
    | (none, s) => s
    | (some as, s) =>
      let (bs, s) := if x.ob.space == litSpace then (some (List.replicate n x.ob.v), s) else readElems s x x.ob wa n
      match bs with
      | none => s
      | some bs => writeVals s x i.d (List.zipWith (fun a b => f (decodeElem i.a a) (decodeElem i.a b)) as bs)

/-- VX.ADD (R304). -/
def execVxAdd (c : Nat) (ph : List Phys) (s : State) : Host.Outcome State Fault Refusal :=
  issue 0x30 c ph s fun x s => elementwise s x Val.add

/-- VX.MUL (R304). -/
def execVxMul (c : Nat) (ph : List Phys) (s : State) : Host.Outcome State Fault Refusal :=
  issue 0x31 c ph s fun x s => elementwise s x Val.mul

/-- VX.MAX (R304). -/
def execVxMax (c : Nat) (ph : List Phys) (s : State) : Host.Outcome State Fault Refusal :=
  issue 0x33 c ph s fun x s => elementwise s x Val.max

/-- VX.FMA (R304): A × B + D, D read in FMT_D, one rounding. -/
def execVxFma (c : Nat) (ph : List Phys) (s : State) : Host.Outcome State Fault Refusal :=
  issue 0x32 c ph s fun x s =>
    let i := x.i
    let wa := fmtWidth i.a
    let n := liveCount s x wa wa (fmtWidth i.d)
    let s := skipTiles s x wa n
    if n == 0 then s
    else match readElems s x x.oa wa n with
      | (none, s) => s
      | (some as, s) => match readElems s x x.ob wa n with
        | (none, s) => s
        | (some bs, s) => match readElems s x x.od (fmtWidth i.d) n with
          | (none, s) => s
          | (some ds, s) =>
            let ab := List.zipWith (fun a b => (decodeElem i.a a).mul (decodeElem i.a b)) as bs
            writeVals s x i.d (List.zipWith (fun p d => p.add (decodeElem i.d d)) ab ds)

/-- The format code of a 32-bit word in VX.CVT: INT32 with X (R285). -/
def cvtFmt (x : Bool) (f : Nat) : Nat := if x && f == 0 then 16 else f

/-- VX.CVT (R285). -/
def execVxCvt (c : Nat) (ph : List Phys) (s : State) : Host.Outcome State Fault Refusal :=
  issue 0x39 c ph s fun x s =>
    let i := x.i
    let wa := fmtWidth i.a
    let n := liveCount s x wa wa (fmtWidth i.d)
    let s := skipTiles s x wa n
    if n == 0 then s
    else match readElems s x x.oa wa n with
      | (none, s) => s
      | (some as, s) => writeVals s x (cvtFmt i.x i.d) (as.map (decodeElem (cvtFmt i.x i.a)))

/-! ### Special functions (R306, R307) -/

/-- ln 2 in units of 2^-160. -/
def ln2Fix : Int := 693147180559945309417232121458176568075500134360255254 * 2 ^ 160 / 10 ^ 54

/-- 2 / √π in units of 2^-160. -/
def erfScale : Int := 1128379167095512573896158903121545171688101258658 * 2 ^ 160 / 10 ^ 48

/-- e^x, x in units of 2^-160 and within ±200, in units of 2^-400: 2^k times a Taylor sum of the rest. -/
def expFix (x : Int) : Int :=
  let k := (2 * x + ln2Fix) / (2 * ln2Fix)
  let r := x - k * ln2Fix
  let t := (List.range 40).foldr (fun n acc => 2 ^ 160 + acc * r / ((n + 1 : Int) * 2 ^ 160)) (2 ^ 160)
  t * 2 ^ (k + 600).toNat / 2 ^ 360

/-- log2 of m × 2^e, m not 0, in units of 2^-400: the exponent of the nearest power of two and 2 atanh z / ln 2 of the rest. -/
def log2Fix (m : Nat) (e : Int) : Int :=
  let n := Nat.log2 m
  let n := if 2 * 4 ^ n ≤ m * m then n + 1 else n
  let z : Int := ((m : Int) - 2 ^ n) * 2 ^ 160 / (m + 2 ^ n)
  let q := z * z / 2 ^ 160
  let h := (List.range 40).foldr (fun k acc => 2 ^ 160 / (2 * k + 1 : Int) + acc * q / 2 ^ 160) 0
  (e + n) * 2 ^ 400 + 2 * z * h * 2 ^ 240 / ln2Fix

/-- 1 / (1 + e^−x), x as in `expFix`, in units of 2^-400. -/
def sigmoidFix (x : Int) : Int := 2 ^ 800 / (2 ^ 400 + expFix (-x))

/-- erf x, x in units of 2^-160 and within ±6, in units of 2^-400: 2/√π × e^(−x²) × Σ 2^n x^(2n+1) / (2n+1)!!. -/
def erfFix (x : Int) : Int :=
  let w := x * x / 2 ^ 160
  let t := (List.range 200).foldr (fun n acc => 2 ^ 160 + acc * (2 * w) / ((2 * n + 3 : Int) * 2 ^ 160)) (2 ^ 160)
  x * t * erfScale / 2 ^ 320 * expFix (-w) / 2 ^ 160

/-- The value of e^x, log2 x, sigmoid or erf at (−1)^neg × m × 2^e, in units of 2^-400. -/
def sfuValue (code : Nat) (neg : Bool) (m : Nat) (e : Int) : Int :=
  let x := scaled neg m e (-160)
  let within (n : Int) := max (-n * 2 ^ 160) (min (n * 2 ^ 160) x)
  match code with
  | 0 => expFix (within 200)
  | 1 => log2Fix m e
  | 4 => sigmoidFix (within 200)
  | _ => erfFix (within 6)

/-- The error R306 allows, in units of 2^-400: 2 ulp of the value, for erf of |x| < 2^-4 at least 2^-26. -/
def sfuBound (code m : Nat) (e y : Int) : Int :=
  let u : Int := if y = 0 then -149 else max (floorLog y.natAbs 1 - 423) (-149)
  let b : Int := 2 * 2 ^ (u + 400).toNat
  if code == 5 && (Val.fin false m e).lt (.fin false 1 (-4)) then max b (2 ^ 374) else b

/-- Whether an FP32 encoding lies within `b` of `y`; an infinity where the values in reach round past the range. -/
def sfuNear (w : Nat) (y b : Int) : Bool :=
  match ofF32 w with
  | .nan => false
  | .inf n => n == decide (y < 0) && decide ((2 ^ 128 - 2 ^ 103) * 2 ^ 400 ≤ (y.natAbs : Int) + b)
  | .fin n m e => decide ((scaled n m e (-400) - y).natAbs ≤ b)

/-- The FP32 result of a special function on an FP32 encoding. Of the encodings within the error of R306, which one e^x, log2,
sigmoid and erf give is a free value, a function of the input (R307; log entry 3); e^0 is 1, as R474's identity needs. -/
def sfuFn (code v : Nat) : Nat :=
  let a := ofF32 v
  match code with
  | 2 => recip a
  | 3 => rsqrt a
  | _ => match a with
    | .nan => nanOf 0
    | .inf neg =>
      (match code with
       | 0 => if neg then 0 else 0x7F800000
       | 1 => if neg then nanOf 0 else 0x7F800000
       | 4 => if neg then 0 else 0x3F800000
       | _ => if neg then 0xBF800000 else 0x3F800000)
    | .fin neg m e =>
      if code == 1 && m == 0 then 0xFF800000
      else if code == 0 && m == 0 then 0x3F800000
      else if code == 1 && neg then nanOf 0
      else
        let y := sfuValue code neg m e
        let w := (Config.sfu code v).toNat
        if sfuNear w y (sfuBound code m e y) then w else encodeRat 0 false none (decide (y < 0)) y.natAbs 1 (-400)

/-- VX.SFU (R306). -/
def execVxSfu (c : Nat) (ph : List Phys) (s : State) : Host.Outcome State Fault Refusal :=
  issue 0x34 c ph s fun x s =>
    let i := x.i
    let wa := fmtWidth i.a
    let n := liveCount s x wa wa (fmtWidth i.d)
    let s := skipTiles s x wa n
    if n == 0 then s
    else match readElems s x x.oa wa n with
      | (none, s) => s
      | (some as, s) => writeVals s x i.d (as.map fun v => ofF32 (sfuFn i.fn (toF32 (decodeElem i.a v))))

/-! ### Keys and pairs (R311 to R316) -/

/-- A key's place in the order of R311: 0 FP32, 9 signed, 10 unsigned. -/
def keyRank (f k : Nat) : Nat :=
  match f with
  | 9 => (k + 2 ^ 31) % 2 ^ 32
  | 10 => k
  | _ =>
    let mag := k % 2 ^ 31
    if 0x7F800000 < mag then 2 ^ 32 else if bit k 31 then 2 ^ 31 - 1 - mag else 2 ^ 31 + mag

/-- A pair goes before another that came after it in the input: by key, up or down, then payload, then position (R312). -/
def pairFirst (f : Nat) (down : Bool) (a b : Pair) : Bool :=
  let x := keyRank f a.1
  let y := keyRank f b.1
  if x == y then a.2 ≤ b.2 else if down then y < x else x < y

/-- Inserts a pair into an ordered list, in front of the pairs that came after it. -/
def insertPair (f : Nat) (down : Bool) (p : Pair) : List Pair → List Pair
  | [] => [p]
  | q :: qs => if pairFirst f down p q then p :: q :: qs else q :: insertPair f down p qs

/-- Orders pairs (R312). -/
def sortPairs (f : Nat) (down : Bool) (ps : List Pair) : List Pair := ps.foldr (insertPair f down) []

/-- The bytes of pairs. -/
def pairBytes (ps : List Pair) : Bytes := ps.flatMap fun p => leBytes 4 p.1 ++ leBytes 4 p.2

/-- VX.SORT (R313). -/
def execVxSort (c : Nat) (ph : List Phys) (s : State) : Host.Outcome State Fault Refusal :=
  issue 0x35 c ph s fun x s =>
    let n := liveCount s x 64 64 64
    let s := skipTiles s x 64 n
    if n == 0 then s
    else match readElems s x x.oa 64 n with
      | (none, s) => s
      | (some vs, s) => writeResults s x (pairBytes (sortPairs x.i.a x.i.x (vs.map toPair)))

/-- The pairs of the top-k list at OPD (R315), whose lines at or beyond OPD's extent read as zero (R196); none after an error. -/
def readTopList (s : State) (x : Ctx) : Option (List Pair) × State :=
  match readOpnd s x x.od 64 (bound s x.c x.od) false with
  | (none, s) => (none, s)
  | (some h, s) =>
    let n := num h 0 2 % 512
    if 256 < n then (none, raiseCell s 0x0404 2 x.c (some x.who) [n])
    else match readOpnd s x x.od (64 + 8 * n) (bound s x.c x.od) false with
      | (none, s) => (none, s)
      | (some d, s) => (some ((List.range n).map fun k => toPair (num d (64 + 8 * k) 8)), s)

/-- Skip pairs that fill a line; their ROW is an unstated value, taken free (R316, R321; log entry 2). -/
def skipPairs (s : State) (n : Nat) : List Pair × State :=
  (List.range n).foldl (fun r _ => let (w, s) := r.2.fresh; (r.1 ++ [(0xFFFFFFFF, w.toNat)], s)) ([], s)

/-- VX.TOPK (R314 to R316). -/
def execVxTopk (c : Nat) (ph : List Phys) (s : State) : Host.Outcome State Fault Refusal :=
  issue 0x36 c ph s fun x s =>
    let lit := x.i.opb
    let w := if bit lit 10 then 32 else 64
    let k := bits lit 8 0
    let down := !bit lit 9
    let route := bit lit 11
    let n := liveCount s x w w 64
    let s := skipTiles s x w n
    if n == 0 then s
    else match readElems s x x.oa w n with
      | (none, s) => s
      | (some vs, s) =>
        let base := if route then 0 else bits lit 31 16 * 1024
        let ps := if bit lit 10 then (vs.zipIdx).map fun e => (e.1, (base + e.2) % 2 ^ 32) else vs.map toPair
        let (old, s) := if x.i.x then readTopList s x else (some [], s)
        match old with
        | none => s
        | some old =>
          let best := (sortPairs x.i.a down (old ++ ps)).take k
          if route then
            let rs := best.map fun p => (p.2 % 65536, bits lit 31 16)
            let (fill, s) := skipPairs s ((8 - best.length % 8) % 8)
            writeResults s x (pairBytes (rs ++ fill))
          else writeResults s x (leBytes 64 best.length ++ pairBytes best)

/-! ### Hashing (R317) -/

/-- The Stavsan mixer. -/
def mixer (v : Nat) : Nat :=
  let w := 2 ^ 32
  let x := v ^^^ 0xA3C51D27
  let x := (x ^^^ (x / 2 ^ 16)) * 0x6A5D39E9 % w
  let x := (x ^^^ (x / 2 ^ 13)) * 0x3B9F5A4B % w
  x ^^^ (x / 2 ^ 16)

/-- VX.HASH (R317). -/
def execVxHash (c : Nat) (ph : List Phys) (s : State) : Host.Outcome State Fault Refusal :=
  issue 0x37 c ph s fun x s =>
    let wa := fmtWidth x.i.a
    let n := liveCount s x wa wa 32
    let s := skipTiles s x wa n
    if n == 0 then s
    else match readElems s x x.oa wa n with
      | (none, s) => s
      | (some vs, s) =>
        writeResults s x (vs.flatMap fun v => leBytes 4 (if x.i.x then mixer v else crc32c (leBytes (wa / 8) v)))

/-! ### Bitmaps (R318, R319) -/

/-- A comparison of VX.BMAP: EQ, NE, LT, GE. -/
def compareVal (fn : Nat) (a b : Val) : Bool :=
  match fn with
  | 0 => a.eqv b
  | 1 => !a.eqv b
  | 2 => a.lt b
  | _ => b.lt a || a.eqv b
/-- The set bitmap of INSET: lines beyond its extent read as zero (R195, R196, R318). -/
def readSet (s : State) (x : Ctx) : Option (List Nat) × State :=
  let n := if x.i.a == 8 then 65536 else 256
  let (d, s) := readOpnd s x x.ob (if x.ob.trans then cdiv n 8192 * 1024 else n / 8) (bound s x.c x.ob) false
  (d.map fun b => (List.range n).map fun k => elemAt b 1 k, s)

/-- VX.BMAP (R318). -/
def execVxBmap (c : Nat) (ph : List Phys) (s : State) : Host.Outcome State Fault Refusal :=
  issue 0x38 c ph s fun x s =>
    let i := x.i
    let wa := vWidth i
    let n := liveCount s x wa 1 1
    let s := skipTiles s x wa n
    if n == 0 then s
    else match readElems s x x.oa wa n with
      | (none, s) => s
      | (some as, s) =>
        if i.fn < 4 then
          writeResults s x (packElems 1 (as.map fun v => b2n (compareVal i.fn (decodeElem i.a v) (decodeElem i.a i.opb))))
        else match (if i.fn == 4 then readSet s x else readElems s x x.ob 1 n) with
          | (none, s) => s
          | (some bs, s) =>
            let one (a b : Nat) : Nat :=
              match i.fn with
              | 5 => a * b
              | 6 => max a b
              | _ => a * (1 - b)
            writeResults s x (packElems 1 (if i.fn == 4 then as.map fun v => bs.getD v 0 else List.zipWith one as bs))

/-! ### Reductions (R308, R309) -/

/-- Counts per bucket (R308). -/
def histogram (buckets : Nat) (ps : List Pair) : List Nat :=
  (List.range buckets).map fun b => (ps.filter fun p => !isSkip p && p.1 % 65536 == b).length

/-- RANK: LOC bits [31:16] become the number of earlier pairs with equal LOC bits [15:0]; skip pairs are copied. -/
def rankPairs (ps : List Pair) : List Pair :=
  (ps.zipIdx).map fun e =>
    if isSkip e.1 then e.1
    else
      let k := ((ps.take e.2).filter fun q => !isSkip q && q.1 % 65536 == e.1.1 % 65536).length
      (k % 65536 * 65536 + e.1.1 % 65536, e.1.2)

/-- VX.RED (R308). DESIGN CHOICE (log entry 68): an extent on OPD of HIST or HISTL bounds the pairs that count at 32 or 512 bits a pair, as
the extent of any OPD does under R302, and the bucket lines at or beyond it are not written. -/
def execVxRed (c : Nat) (ph : List Phys) (s : State) : Host.Outcome State Fault Refusal :=
  issue 0x3A c ph s fun x s =>
    let i := x.i
    let wa := vWidth i
    let wd := match i.fn with | 1 => fmtWidth i.d | 2 => fmtWidth i.d | 5 => 512 | 6 => 64 | _ => 32
    let n := liveCount s x wa wa wd
    let s := skipTiles s x wa n
    if n == 0 then s
    else match readElems s x x.oa wa n with
      | (none, s) => s
      | (some vs, s) =>
        match i.fn with
        | 0 => writeVals s x 0 [Val.sum (vs.map (decodeElem i.a))]
        | 1 => writeVals s x i.d [(vs.drop 1).foldl (fun m v => m.max (decodeElem i.a v)) (decodeElem i.a (vs.headD 0))]
        | 2 => writeVals s x i.d [(vs.drop 1).foldl (fun m v => m.min (decodeElem i.a v)) (decodeElem i.a (vs.headD 0))]
        | 3 => writeResults s x (leBytes 4 (vs.foldl (· + ·) 0))
        | 4 =>
          let buckets := if x.od.lenKib == 0 then 16 else 256 * x.od.lenKib
          writeResults s x ((histogram buckets (vs.map toPair)).flatMap (leBytes 4))
        | 5 =>
          let buckets := if x.od.lenKib == 0 then 16 else 16 * x.od.lenKib
          writeResults s x ((histogram buckets (vs.map toPair)).flatMap (leBytes 64))
        | 6 => writeResults s x (pairBytes (rankPairs (vs.map toPair)))
        | _ => writeResults s x (vs.flatMap fun b => leBytes 4 (if b == 1 then 0 else 0x7F800000))

/-! ### Proof tiles (R330 to R333) -/

/-- Proofs of a cell kind. -/
def proofCount (c : Nat) : Nat := if kindOf c = .V then 10 else 4

/-- A proof passes: PRF_STATUS and PRF_COUNT (R336). -/
def proofPassed (s : State) (c n : Nat) : State :=
  let live := (s.region (regionOf c)).pw.liveTicks
  s.updMisc c fun m => { m with prfLast := n, prfPass := true, prfBase := live, prfCount := sat32 m.prfCount 1 }

/-- Runs proof `n` of a cell (R331, R333). -/
def runProof (s : State) (c n : Nat) (who : Option Issuer) (ph : List Phys) : State :=
  match ph.findSome? fun p => match p with | .proof w again => some (w, again) | _ => none with
  | none => proofPassed s c n
  | some (_, false) =>
    raiseCell ((proofPassed s c n).updMisc c fun m => { m with prfRetried := true }) 0x0401 0 c who [n]
  | some (w, true) =>
    let s := s.updMisc c fun m => { m with prfLast := n, prfPass := false }
    let s := raiseCell s 0x0402 1 c who [n, w, nextGeneration s] (s.cell c).seq.job true true
    fenceCell s c 5

/-- The cell's next proof in rotation (R330). -/
def nextProof (s : State) (c : Nat) : Nat × State :=
  let n := (s.cell c).misc.prfNext
  (n, s.updMisc c fun m => { m with prfNext := (n + 1) % proofCount c })

/-- VX.PROOF (R330). -/
def execVxProof (c : Nat) (ph : List Phys) (s : State) : Host.Outcome State Fault Refusal :=
  issue 0x3B c ph s fun x s =>
    let (n, s) := if bit x.i.opb 4 then nextProof s c else (x.i.opb % 16, s)
    runProof s c n (some x.who) ph

/-- PROOF_AUTO (R332): the automatic proof of a V or S cell that is good, in a region that is awake. -/
def execProofAuto (c : Nat) (ph : List Phys) (s : State) : Host.Outcome State Fault Refusal :=
  let s := injectAll s ph
  if !s.goodCell c || !proofDue s c || (s.region (regionOf c)).pw.gated || s.err.fatal || s.thm.stopped then .next s
  else
    let (n, s) := nextProof s c
    .next (runProof s c n none ph)

end Sys2Proof.Machine
end

