-- ==== Sys2Proof/Machine/Moves.lean ====
section
/-! DEFINITION. Moves, gather and scatter, and in-network reduction (R321 to R329, R337 to R363, R415 to R419). -/

namespace Sys2Proof.Machine

open Sys2Proof

/-! ### Completions (R66, R350, R418, R758) -/

/-- A halted cell whose issued operations have all completed is done (R194, R758). -/
def settle (s : State) (c : Nat) : State :=
  let q := (s.cell c).seq
  if q.halted && q.flight.isEmpty && !q.done then (s.updSeq c fun q => { q with done := true, doneAt := s.clk.cycles }).noteDone else s

/-- Removes the first entry that passes. -/
def dropFlight (p : Flight → Bool) : List Flight → List Flight
  | [] => []
  | f :: fs => if p f then fs else f :: dropFlight p fs

/-- The oldest operation of a kind of a cell completes: trace and removal (R717). -/
def completeMove (s : State) (c op : Nat) (p : Flight → Option (Nat × Nat)) : State :=
  let q := (s.cell c).seq
  match q.flight.findSome? p with
  | none => s
  | some (bytes, dest) =>
    let s := s.updSeq c fun q => { q with flight := dropFlight (fun f => (p f).isSome) q.flight }
    settle (traceRec s (regionOf c) 4 c [op, bytes, dest]) c

/-- MV_LOAD_COMPLETE (R418). -/
def execMvLoadComplete (c : Nat) (s : State) : Host.Outcome State Fault Refusal :=
  .next (completeMove s c 0x40 fun f => match f with | .load n => some (n, c) | _ => none)

/-- MV_STORE_COMPLETE (R418). -/
def execMvStoreComplete (c : Nat) (s : State) : Host.Outcome State Fault Refusal :=
  .next (completeMove s c 0x41 fun f => match f with | .store n => some (n, c) | _ => none)

/-- MV_PUT_COMPLETE (R350). -/
def execMvPutComplete (c : Nat) (s : State) : Host.Outcome State Fault Refusal :=
  .next (completeMove s c 0x42 fun f => match f with | .put d n => some (n, d) | _ => none)

/-! ### Lines on the way (R338, R342, R349) -/

/-- The router, if any, that fails on a line's way between two regions, and its port (R342). -/
def routerOn (ph : List Phys) (a b : Nat) : Option (Nat × Nat) :=
  ph.findSome? fun p => match p with
    | .router r port => if (route a b).contains r then some (r, port) else none
    | _ => none

/-- The router that fails on a line's way between two cells. Lines within a block cross none (R337). -/
def badRouter (ph : List Phys) (a b : Nat) : Option (Nat × Nat) :=
  if blockIndex a == blockIndex b then none else routerOn ph (regionOf a) (regionOf b)

/-- The first line whose CRC fails at its destination, if one does (R349). -/
def badLine (ph : List Phys) (n : Nat) : Option Nat :=
  ph.findSome? fun p => match p with | .lineCrc k => if k < n then some k else none | _ => none

/-- MOVE_CHECK (R349, R417), raised by the unit that verifies the line: a destination cell, a stack controller, an adding crossbar.
Items: source cell, destination cell, line offset. -/
def moveCheck (s : State) (level unit : Nat) (who : Issuer) (src dst line : Nat) : State :=
  raise s { code := 0x0502, sev := 2, level, unit, job := who.job, det := who.words ++ [src, dst, line], instr := true }

/-! ### MV.LOAD, MV.STORE, MV.PUT (R346 to R350, R416 to R418) -/

/-- Reads device memory for a cell, block by block: the bytes read before a failure, and whether all were read. -/
def readDev (s : State) (a n : Nat) (acc : Accessor) : Bytes × Bool × State :=
  (blockPieces (n / 4096 + 2) a n).foldl (fun (r : Bytes × Bool × State) p =>
    if !r.2.1 then r
    else match readMem r.2.2 p.1 p.2 acc with
      | (.ok d, s) => (r.1 ++ d, true, s)
      | (.error _, s) => (r.1, false, s)) ([], true, s)

/-- MV.LOAD (R416, R417). The source cell of a MOVE_CHECK is open: a load has none (log entry 2). -/
def execMvLoad (c : Nat) (ph : List Phys) (s : State) : Host.Outcome State Fault Refusal :=
  issue 0x40 c ph s fun x s =>
    let len := stashLen x.i x.o x.od
    let live := clipTo (minBound (bound s c x.od) (bound s c x.oa)) (len / 64)
    let s := s.countCell 0x004 c (cdiv len 1024 - cdiv live 16)
    if live == 0 then s
    else
      let (d, ok, s) := readDev s (devAddr x x.oa) (live * 64) x.acc
      let s := s.countRegion 0x201 (regionOf c) (d.length / 64)
      let bad := badLine ph (d.length / 64)
      let (okW, s) := writeLines s c (x.gran s) (x.od.start / 64) (toLines (d.take (bad.getD live * 64))) (some x.who)
      match bad with
      | some k =>
        let (w, s) := s.fresh
        moveCheck s 0 c x.who w.toNat c (x.od.start / 64 + k)
      | none => if ok && okW then addFlight s c (.load (live * 64)) else s

/-- MV.STORE (R416, R417). The stack controller verifies its lines; the destination cell of a MOVE_CHECK is open: a store has none
(log entry 2). -/
def execMvStore (c : Nat) (ph : List Phys) (s : State) : Host.Outcome State Fault Refusal :=
  issue 0x41 c ph s fun x s =>
    let len := stashLen x.i x.o x.ob
    let b := minBound (bound s c x.ob) (bound s c x.od)
    let s := s.countCell 0x004 c (cdiv len 1024 - cdiv (clipTo b (cdiv len 64)) 16)
    let (d, ok, s) := readMove s x x.ob len b
    let bad := badLine ph (d.length / 64)
    let d := d.take (bad.getD d.length * 64)
    let s := s.countRegion 0x202 (regionOf c) (d.length / 64)
    match writeMem s (devAddr x x.od) d x.acc with
    | (.error _, s) => s
    | (.ok _, s) => match bad with
      | some k =>
        let (w, s) := s.fresh
        moveCheck s 3 (chipUnit 1 (((resolve s (devAddr x x.od + 64 * k)).map (·.1)).getD 0)) x.who c w.toNat k
      | none => if ok && !d.isEmpty then addFlight s c (.store d.length) else s

/-- MV.PUT (R346 to R350). -/
def execMvPut (c : Nat) (ph : List Phys) (s : State) : Host.Outcome State Fault Refusal :=
  issue 0x42 c ph s fun x s =>
    match physOf x.j x.od.vcell with
    | none => s
    | some dst =>
      let len := stashLen x.i x.o x.ob
      let b := minBound (bound s c x.ob) (bound s c x.od)
      let s := s.countCell 0x004 c (cdiv len 1024 - cdiv (clipTo b (cdiv len 64)) 16)
      let (d, ok, s) := readMove s x x.ob len b
      match if d.isEmpty then none else badRouter ph c dst with
      | some (r, port) => routerFault s r port (some x.who)
      | none =>
        let n := d.length / 64
        let s := s.count 0x101 none (some (blockIndex c)) (some (regionOf c)) n
        let s := if blockIndex c == blockIndex dst then s else s.countRegion 0x203 (regionOf c) n
        let bad := badLine ph n
        let (okW, s) := writeLines s dst (s.cell dst).seq.gran (x.od.start / 64) (toLines (d.take (bad.getD n * 64))) (some x.who)
        match bad with
        | some k => moveCheck s 0 dst x.who c dst (x.od.start / 64 + k)
        | none => if ok && okW && n != 0 then addFlight s c (.put dst d.length) else s

/-! ### Gather and scatter (R321 to R329) -/

/-- Reads a row, its blocks verified (R329, R635). -/
def readRow (s : State) (x : Ctx) (rb : Nat) : RowAt → Option Bytes × State
  | .stash c off =>
    let gran := (s.cell c).seq.gran
    let (ok, s) := verifyRange s c gran off rb (some x.who)
    if ok then readStash s c gran off rb (some x.who) else (none, s)
  | .dev a => match readMem s a rb x.acc with
    | (.ok d, s) => (some d, s.countRegion 0x201 (regionOf x.c) (rb / 64))
    | (.error _, s) => (none, s)

/-- Writes a row; false where it failed. -/
def writeRow (s : State) (x : Ctx) (d : Bytes) : RowAt → Bool × State
  | .stash c off => writeLines s c (s.cell c).seq.gran (off / 64) (toLines d) (some x.who)
  | .dev a => match writeMem s a d x.acc with
    | (.ok _, s) => (true, s.countRegion 0x202 (regionOf x.c) (d.length / 64))
    | (.error _, s) => (false, s)

/-- The first live pair that fails R326: its index. -/
def routeFault (j : Job) (img : Bytes) (put : Bool) (src : Nat) (ps : List Pair) : Option Nat :=
  ((ps.zipIdx).find? fun e => !isSkip e.1 &&
    ((locate j img put e.1).isNone || (put && src < (e.1.2 + 1) * num img 8 4))).map (·.2)

/-- What MV.GATHER and MV.SCATTER share: the pairs are read and checked, then `act` moves the rows (R325, R326). -/
def routed (s : State) (x : Ctx) (t data : Opnd) (put : Bool) (act : State → Bytes → List Pair → State) : State :=
  let img := (tableImage s x.j.id t.tkind t.tid).getD []
  let rb := num img 8 4
  let n := routeCount s x.c rb data x.ob
  if n == 0 then s
  else match readOpnd s x x.ob (8 * n) none true with
    | (none, s) => s
    | (some d, s) =>
      let ps := (List.range n).map fun k => toPair (num d (8 * k) 8)
      match routeFault x.j img put (stashLen x.i x.o data) ps with
      | some k =>
        let p := ps.getD k (0, 0)
        raiseCell s 0x0403 2 x.c (some x.who) [k, p.1, p.2, t.tkind, t.tid]
      | none => act s img (ps.filter fun p => !isSkip p)

/-- MV.GATHER (R325). -/
def execMvGather (c : Nat) (ph : List Phys) (s : State) : Host.Outcome State Fault Refusal :=
  issue 0x43 c ph s fun x s => routed s x x.oa x.od false fun s img ps =>
    let rb := num img 8 4
    ((ps.zipIdx).foldl (fun (r : Bool × State) e =>
      if !r.1 then r
      else match (locate x.j img false e.1).elim (none, r.2) (readRow r.2 x rb) with
        | (none, s) => (false, s)
        | (some d, s) => writeLines s c (x.gran s) (x.od.start / 64 + e.2 * rb / 64) (toLines d) (some x.who)) (true, s)).2

/-- MV.SCATTER (R325, R327). -/
def execMvScatter (c : Nat) (ph : List Phys) (s : State) : Host.Outcome State Fault Refusal :=
  issue 0x44 c ph s fun x s => routed s x x.od x.oa true fun s img ps =>
    let rb := num img 8 4
    (ps.foldl (fun (r : Bool × State) p =>
      if !r.1 then r
      else match readRow r.2 x rb (.stash c (x.oa.start + p.2 * rb)) with
        | (none, s) => (false, s)
        | (some d, s) => (locate x.j img true p).elim (false, s) (writeRow s x d)) (true, s)).2

/-! ### RD.SUM (R351 to R359) -/

/-- The bits of an RD.SUM that all members must share: X and the destination descriptor. -/
def sumBits (i : Ins) : Nat := b2n i.x * 2 ^ 64 + i.opd * 2 ^ 32 + i.opa

/-- The header passes its own check (R352, R353). -/
def headerGood (j : Job) (v : VCell) (h : Bytes) : Bool :=
  let w := num h 4 4
  bits w 15 12 == 0 && bits w 31 27 == 0 && num h 10 2 == 0 && (slice h 12 52).all (· == 0) &&
  ((groupMembers h).all fun m => j.image.cells.any fun c => c.vcell == m && !decide (kindOf m = .S)) &&
  (groupMembers h).contains v.vcell

/-- Parts of a group in fold order. -/
def foldOrder (ps : List Contribution) : List Contribution :=
  ps.foldr (fun p acc => acc.takeWhile (fun q => q.vcell < p.vcell) ++ [p] ++ acc.dropWhile (fun q => q.vcell < p.vcell)) []

/-- The members that a unit combines, in fold order: those of its virtual cells (`f`) among the parts that have come, once every member
that some header names there has (R353, R354; log entry 46). -/
def combined (f : Nat → Bool) (ps : List Contribution) : List Contribution :=
  let here := ps.filter fun p => f p.vcell
  if here.any fun p => ((groupMembers p.header).filter f).all fun m => here.any fun q => q.vcell == m then foldOrder here else []

/-- The first member, in fold order, whose contribution differs from that of the first (R353). -/
def firstDiffer : List Contribution → Option Contribution
  | [] => none
  | p :: ps => ps.find? fun q => q.header != p.header || q.bits != p.bits || q.data.length != p.data.length

/-- How many groups are in progress at a crossbar, and at a router. -/
def atXbar (reds : List RedGroup) (b : Nat) : Nat := (reds.filter fun g => g.xbars.contains b).length
/-- The same at a router. -/
def atRouter (reds : List RedGroup) (r : Nat) : Nat := (reds.filter fun g => g.routers.contains r).length

/-- The parts whose block sums have left the crossbars, and those whose region sums have left the routers. -/
def RedGroup.atRegion (g : RedGroup) : List Contribution := g.parts.filter fun p => g.blocksOut.contains (blockIndex p.cell)
/-- The parts whose region sums have come to the destination's router. -/
def RedGroup.atDest (g : RedGroup) : List Contribution := g.parts.filter fun p => g.regionsOut.contains (regionOf p.cell)

/-- Every region sum of the group has come to the destination's router: the total can be formed. -/
def RedGroup.summed (g : RedGroup) : Bool := !(combined (fun _ => true) g.atDest).isEmpty

/-- What a group's progress yields: the group, and the level, unit and member of a contribution that differs. -/
abbrev Progress := RedGroup × Option (Nat × Nat × Contribution)

/-- The first lines of a block come to its crossbar, which holds at most 8 groups in progress (R359). -/
def enterXbar (reds : List RedGroup) (g : RedGroup) (b : Nat) : RedGroup :=
  if g.xbars.contains b || g.blocksOut.contains b || 8 ≤ atXbar reds b then g else { g with xbars := g.xbars ++ [b] }

/-- A crossbar sums its block's members and sends the sum to its region's router, if that has room (R354, R359). -/
def leaveXbar (reds : List RedGroup) (x : Progress) (b : Nat) : Progress :=
  let g := x.1
  let ps := g.parts.filter fun p => blockIndex p.cell == b
  let cs := combined (fun v => v / 16 == (ps.headD ⟨0, [], 0, 0, 0, [], 0⟩).vcell / 16) ps
  if x.2.isSome || cs.isEmpty then x
  else match firstDiffer cs with
    | some p => (g, some (1, blockId b, p))
    | none =>
      let r := b / 12
      if !g.routers.contains r && 8 ≤ atRouter reds r then x
      else ({ g with xbars := g.xbars.filter (· != b), blocksOut := g.blocksOut ++ [b], routers := (g.routers ++ [r]).dedup }, none)

/-- A router sums its region's blocks and sends the sum to the destination's router, if that has room. -/
def leaveRouter (reds : List RedGroup) (d : Nat) (x : Progress) (r : Nat) : Progress :=
  let g := x.1
  let ps := g.atRegion.filter fun p => regionOf p.cell == r
  let cs := combined (fun v => v / 256 == (ps.headD ⟨0, [], 0, 0, 0, [], 0⟩).vcell / 256) ps
  if x.2.isSome || g.regionsOut.contains r || cs.isEmpty then x
  else match firstDiffer cs with
    | some p => (g, some (2, r * 256, p))
    | none =>
      if !g.routers.contains d && 8 ≤ atRouter reds d then x
      else ({ g with routers := ((g.routers.filter (· != r)) ++ [d]).dedup, regionsOut := g.regionsOut ++ [r] }, none)

/-- A group goes as far as its lines and the units' room let it; the destination's router, of region `d`, compares the region sums. -/
def progress (reds : List RedGroup) (d : Nat) (g : RedGroup) : Progress :=
  let g := ((g.parts.map fun p => blockIndex p.cell).dedup).foldl (enterXbar reds) g
  let x := g.xbars.foldl (leaveXbar reds) (g, none)
  let x := x.1.routers.foldl (leaveRouter reds d) x
  if x.2.isSome then x
  else (x.1, (firstDiffer (combined (fun _ => true) x.1.atDest)).map fun p => (2, d * 256, p))

/-- A group is over: its RD.SUMs leave their cells. -/
def dropGroup (s : State) (g : RedGroup) : State :=
  g.parts.foldl (fun s p =>
    settle (s.updSeq p.cell fun q => { q with flight := dropFlight (fun f => decide (f = .sum g.dest g.off g.tag)) q.flight }) p.cell)
    { s with reds := s.reds.filter fun y => decide (y ≠ g) }

/-- REDUCE_GROUP (R353). -/
def reduceGroup (s : State) (who : Issuer) (level unit dest off tag member : Nat) : State :=
  raise s { code := 0x0501, sev := 2, level, unit, job := who.job, det := who.words ++ [dest, off, tag, member], instr := true }

/-- The RD.SUM that a contribution comes from. -/
def sumIssuer (job : Nat) (p : Contribution) : Issuer := ⟨p.cell, p.vcell, 0x50, p.sheet, p.index, job⟩

/-- Every group goes on, the oldest first. Of one whose members differ nothing further is sent or written; its record describes the
RD.SUM of the first differing member (log entry 46). -/
def netStep (s : State) : State :=
  let r := (List.range s.reds.length).foldl (fun (r : List RedGroup × List (RedGroup × Nat × Nat × Contribution)) k =>
    match r.1[k]? with
    | none => r
    | some g =>
      let d := (((s.job? g.job).bind fun j => physOf j g.dest).getD 0) / 256
      let (h, bad) := progress r.1 d g
      (r.1.set k h, r.2 ++ (bad.map fun b => (h, b)).toList)) (s.reds, [])
  r.2.foldl (fun s e =>
    reduceGroup (dropGroup s e.1) (sumIssuer e.1.job e.2.2.2) e.2.1 e.2.2.1 e.1.dest e.1.off e.1.tag e.2.2.2.vcell) { s with reds := r.1 }

/-- The lines an RD.SUM contributes (R351): from the stash, or raw from the accumulator. -/
def contribution (s : State) (x : Ctx) : Option Bytes × State :=
  let b := minBound (bound s x.c x.ob) (bound s x.c x.od)
  if x.ob.space == 4 then
    let (d, ok, s) := readMove s x x.ob (stashLen x.i x.o x.ob) b
    (if ok then some d else none, s)
  else
    let live := clipTo b (16 * x.ob.count)
    let (es, n, s) := drainRows s { x with i := { x.i with d := 0 } } (runBanks s x.c) x.ob.first (16 * live)
    (if n == live then some (packElems 32 es) else none, s)

/-- RD.SUM (R351 to R353, R356): reads its header, checks it, and sends its contribution, whose lines the first unit that adds them
verifies (the crossbar of the cell's block raises MOVE_CHECK: DEDUCED, log entry 46) and whose sums cross the routers to the
destination's (R354). One that extents skip whole does nothing and joins no group (R167, R172). -/
def execRdSum (c : Nat) (ph : List Phys) (s : State) : Host.Outcome State Fault Refusal :=
  issue 0x50 c ph s fun x s =>
    let lines := if x.ob.space == 4 then stashLen x.i x.o x.ob / 64 else 16 * x.ob.count
    let s := s.countCell 0x004 c (cdiv lines 16 - cdiv (clipTo (minBound (bound s c x.ob) (bound s c x.od)) lines) 16)
    if skippedWhole s c x.o then s
    else match readStash s c (x.gran s) (stashBytes x.v - 64) 64 (some x.who) with
    | (none, s) => s
    | (some h, s) =>
      let dest := x.od.vcell
      let off := bits x.od.v 12 0
      let tag := num h 8 2
      if !headerGood x.j x.v h then reduceGroup s x.who 0 c dest off tag x.v.vcell
      else match contribution s x with
        | (none, s) => s
        | (some d, s) =>
          let p : Contribution := ⟨c, d, x.j.sheet, x.who.index, x.v.vcell, h, sumBits x.i⟩
          let dst := (physOf x.j dest).getD c
          let is (g : RedGroup) : Bool := g.job == x.j.id && g.dest == dest && g.off == off && g.tag == tag &&
            !g.parts.any fun q => q.vcell == x.v.vcell
          match badLine ph (d.length / 64), routerOn ph (regionOf c) (regionOf dst) with
          | some k, _ => moveCheck s 1 (blockId (blockIndex c)) x.who c dst (off + k)
          | none, some (r, port) => routerFault s r port (some x.who)
          | none, none =>
            let reds := match s.reds.find? is with
              | none => s.reds ++ [{ dest, off, tag, job := x.j.id, header := h, opcodeBits := sumBits x.i, parts := [p] }]
              | some g => s.reds.map fun y => if y = g then { y with parts := y.parts ++ [p] } else y
            netStep (addFlight { s with reds } c (.sum dest off tag))

/-- A left fold of word lists: each addition FP32, or INT32 with its clamps counted. -/
def foldWords (int : Bool) (ls : List (List Nat)) : List Nat × Nat :=
  match ls with
  | [] => ([], 0)
  | l :: rest => rest.foldl (fun (r : List Nat × Nat) w =>
      let es := List.zipWith (fun a b => if int then clamp32 (signed 32 a + signed 32 b) else (addF32 a b, false)) r.1 w
      (es.map (·.1), r.2 + (es.filter (·.2)).length)) (l, 0)

/-- Clamps of a region's adders are counted (R355). -/
def addClamps (s : State) (r n : Nat) : State := s.updRegion r fun x => { x with redSat := sat16 x.redSat n }

/-- The words of a contribution. -/
def partWords (p : Contribution) : List Nat := (List.range (p.data.length / 4)).map fun k => num p.data (4 * k) 4

/-- The sum of one virtual block (R354, step 1), and of one virtual region (step 2). -/
def regionSum (int : Bool) (ps : List Contribution) (r : Nat) : List Nat × Nat :=
  let blocks := (List.range 12).filterMap fun b =>
    let l := ps.filter fun p => p.vcell / 16 == r * 16 + b
    if l.isEmpty then none else some (foldWords int (l.map partWords))
  let t := foldWords int (blocks.map (·.1))
  (t.1, t.2 + ((blocks.map (·.2)).foldl (· + ·) 0))

/-- The regions a group's lines are added in: its members' and the destination's. -/
def groupRegions (j : Job) (g : RedGroup) : List Nat :=
  (((physOf j g.dest).getD 0 / 256) :: g.parts.map fun p => p.cell / 256).dedup

/-- A cell issued the first of two contributions before the second. -/
def sentBefore (p q : Contribution) : Bool := p.sheet < q.sheet || (p.sheet == q.sheet && p.index < q.index)

/-- Member `m` of both groups issued `y`'s RD.SUM before `g`'s. -/
def sumBefore (y g : RedGroup) (m : Nat) : Bool :=
  (g.parts.find? fun q => q.vcell == m).any fun q => (y.parts.find? fun p => p.vcell == m).any fun p => sentBefore p q

/-- The members that a group shares with each other open group of its job issue the two in one relative order; where they do
not, the group never completes (R358). -/
def sameOrder (s : State) (g : RedGroup) : Bool :=
  s.reds.all fun y => y.job != g.job || decide (y = g) ||
    (let shared := (groupMembers g.header).filter (groupMembers y.header).contains
     shared.all (sumBefore y g) || shared.all fun m => !sumBefore y g m)

/-- An adder disagreement strikes a group's sums (R357): logged, or chip-fatal. `blocks` and `regs` are the group's; the records name
the RD.SUM of its first member in fold order (R624). -/
def adderFaults (s : State) (who : Issuer) (blocks regs : List Nat) (ph : List Phys) : Bool × State :=
  ph.foldl (fun (r : Bool × State) p => match p with
    | .adder router u line again =>
      if !r.1 || !(if router then regs else blocks).contains u then r
      else
        let ev : Ev := { code := (if router then 0x2201 else 0x1201) + b2n again, sev := if again then 3 else 0,
                         level := if router then 2 else 1, unit := if router then u * 256 else blockId u,
                         job := who.job, det := who.words ++ [if router then u else blockId u, line], instr := true }
        (!again, raise r.2 ev)
    | _ => r) (true, s)

/-- The failure of a unit that adds sums, if one strikes a group's (R342, R356): a router on a region sum's way, or a sum line whose CRC
fails where a router adds it. The record describes the RD.SUM of the group's first member in fold order (R624). -/
def sumsFail (ph : List Phys) (regs : List Nat) (d : Nat) (who : Issuer) (dst off lines : Nat) (s : State) : Option State :=
  match regs.findSome? fun r => routerOn ph r d with
  | some (r, port) => some (routerFault s r port (some who))
  | none => ph.findSome? fun p => match p with
    | .sumCrc r k => if regs.contains r && decide (k < lines) then some (moveCheck s 2 (r * 256) who who.cell dst (off + k)) else none
    | _ => none

/-- A complete group's total in fold order, with the clamps of its adders counted (R354, R355). -/
def groupTotal (s : State) (j : Job) (ps : List Contribution) (int : Bool) (c : Nat) : Bytes × State :=
  let vrs := (List.range 32).filter fun r => ps.any fun p => p.vcell / 256 == r
  let sums := vrs.map fun r => (r, regionSum int ps r)
  let s := sums.foldl (fun s e => addClamps s ((regionMap j.image e.1).getD 0) e.2.2) s
  let total := foldWords int (sums.map fun e => e.2.1)
  (packElems 32 total.1, addClamps s (regionOf c) total.2)

/-- The total of group `g` of job `j` is formed and written at cell `c`, unless an adder, a router or a line fails. -/
def writeTotal (s : State) (j : Job) (g : RedGroup) (c : Nat) (who : Issuer) (ph : List Phys) : State :=
  let ps := foldOrder g.parts
  let regs := groupRegions j g
  let lines := ((ps.headD ⟨c, [], 0, 0, 0, [], 0⟩).data.length) / 64
  match sumsFail ph regs (regionOf c) who c g.off lines s with
  | some s => s
  | none =>
    let (ok, s) := adderFaults s who (g.parts.map fun p => blockIndex p.cell) regs ph
    if !ok then s
    else
      let (d, s) := groupTotal s j ps (bit g.opcodeBits 64) c
      let s := g.parts.foldl (fun s p =>
        s.count 0x102 none (some (blockIndex p.cell)) (some (regionOf p.cell)) (p.data.length / 64)) s
      let bad := badLine ph (d.length / 64)
      let (_, s) := writeLines s c (s.cell c).seq.gran g.off (toLines (d.take (bad.getD (d.length / 64) * 64))) (some who)
      match bad with
      | some k => moveCheck s 0 c who who.cell c (g.off + k)
      | none => s

/-- RD_SUM_TOTAL_WRITTEN (R354 to R356): the total of a group whose sums have all come to the destination's router is formed in fold
order and written at its destination cell, once the plumb there can carry it (R374); every RD.SUM of the group completes, and waiting
groups go on (R359). -/
def execRdSumTotalWritten (c off tag : Nat) (ph : List Phys) (s : State) : Host.Outcome State Fault Refusal :=
  let s := netStep (injectAll s ph)
  match s.reds.find? fun g => g.off == off && g.tag == tag && g.summed &&
      sameOrder s g && (s.job? g.job).any fun j => physOf j g.dest == some c with
  | none => .next s
  | some g =>
    match s.job? g.job with
    | none => .next s
    | some j =>
      let who := sumIssuer j.id ((foldOrder g.parts).headD ⟨c, [], 0, 0, 0, [], 0⟩)
      let s := if plumbOpen s c then plumbFaults s [c] (some who) ph else s
      if !plumbOpen s c then .next s
      else .next (netStep (dropGroup (writeTotal s j g c who ph) g))

end Sys2Proof.Machine
end

