-- ==== Sys2Proof/Machine/CairnOps.lean ====
section
/-! DEFINITION. The cairn rows, their timeout and the deadlock detector (R492 to R494, R501 to R511). -/

namespace Sys2Proof.Machine

open Sys2Proof

/-- The absolute number of a cairn of the job (R178). -/
def absCairn (j : Job) (n : Nat) : Nat := j.params.cairnBase + n

/-- CA.SIGNAL (R492, R493, R501): it waits to be sent behind the cell's earlier operations. -/
def execCaSignal (c : Nat) (s : State) : Host.Outcome State Fault Refusal :=
  issue 0x60 c [] s fun x s => addFlight s c (.signal (absCairn x.j x.od.cairn) x.i.opb x.i.x x.who.index)

/-- A signal that finds the group queue full waits (R503). -/
def groupFull (s : State) (j : Job) (group : Bool) : Bool :=
  group && j.params.group && decide (64 ≤ s.syn.groupQ.length)

/-- A signal is sent: onto the wires; a group signal also into the queue for the other members, unless its job lacks
GROUP (R501, R502). -/
def sendSignal (s : State) (who : Issuer) (j : Job) (cairn amount : Nat) (group : Bool) : State :=
  let c := who.cell
  if group && !j.params.group then raiseCell s 0x3206 2 c (some who) [c]
  else
    let s := if group then
        { s with syn := { s.syn with groupQ := s.syn.groupQ ++ [(j.id, cairn - j.params.cairnBase, amount)] } }
      else s
    traceRec (sendAddition s cairn amount (srcCell c)) (regionOf c) 2 c [cairn, amount]

/-- The virtual cell that a cell serves. -/
def vcellOf (s : State) (j : Job) (c : Nat) : Nat := ((j.image.cells[(s.cell c).seq.vindex]?).map (·.vcell)).getD 0

/-- CA_SIGNAL_SEND (R493): the cell's oldest operation is a signal; it goes onto the wires, or into the group queue. -/
def execCaSignalSend (c : Nat) (s : State) : Host.Outcome State Fault Refusal :=
  let q := (s.cell c).seq
  match q.flight, s.job? q.job with
  | .signal cairn amount group index :: rest, some j =>
    if groupFull s j group then .next s
    else
      let s := s.updSeq c fun q => { q with flight := rest }
      .next (settle (sendSignal s ⟨c, vcellOf s j c, 0x60, j.sheet, index, j.id⟩ j cairn amount group) c)
  | _, _ => .next s

/-- CA.WAIT (R492, R494): it completes where the region's copy holds the value; else the cell sleeps. -/
def execCaWait (c : Nat) (ph : List Phys) (s : State) : Host.Outcome State Fault Refusal :=
  issue 0x61 c ph s fun x s =>
    let n := absCairn x.j x.oa.cairn
    let s := scanCairn s n (regionOf c)
    let w : Wait := ⟨n, x.i.opb, s.clk.cycles⟩
    if waitHolds s (regionOf c) w then wakeCell s c w
    else if (s.cell c).seq.halted then s
    else s.updSeq c fun q => { q with wait := some w }

/-- CA.READ (R492, R494): one line, word 0 the region copy's value. One that its extent skips whole reads nothing (R167). -/
def execCaRead (c : Nat) (ph : List Phys) (s : State) : Host.Outcome State Fault Refusal :=
  issue 0x62 c ph s fun x s =>
    let n := absCairn x.j x.oa.cairn
    if skippedWhole s c x.o then s else
    let s := scanCairn s n (regionOf c)
    if !cairnSound s n (regionOf c) then s
    else writeOpnd s x x.od (leBytes 4 (cairnVal s n (regionOf c)) ++ List.replicate 60 0) (bound s c x.od)

/-- CAIRN_TIMEOUT (R505, R506): a CA.WAIT reaches its job's timeout, unless DEADLOCK_MODE turns the timeout off. A condition that
holds then completes the wait (R498). -/
def execCairnTimeout (c : Nat) (s : State) : Host.Outcome State Fault Refusal :=
  let q := (s.cell c).seq
  match q.wait, s.job? q.job with
  | some w, some j =>
    if j.params.deadlockMode == 1 then .next s
    else
      let s := scanCairn (s.untilCycle (w.since + waitTimeout j)) w.cairn (regionOf c)
      if (s.cell c).seq.wait.isNone then .next s
      else if waitHolds s (regionOf c) w then .next (wakeCell s c w)
      else
        let s := { s with syn := { s.syn with timeout := true } }
        .next (raiseCell s 0x3201 2 c (some ⟨c, vcellOf s j c, 0x61, j.sheet, q.index - 1, j.id⟩)
          [c, w.cairn, w.cairn - j.params.cairnBase, w.value, cairnVal s w.cairn (regionOf c)])
  | _, _ => .next s

/-! ### The deadlock detector (R507 to R511) -/

/-- The cells of a job that are neither done nor halted. -/
def busyCells (s : State) (j : Job) : List Nat :=
  (jobCells j).filter fun c => let q := (s.cell c).seq; q.job == j.id && !q.done && !q.halted

/-- A wait of a cell whose condition does not hold at its region's copy. -/
def vainWait (s : State) (c : Nat) : Bool :=
  (s.cell c).seq.wait.any fun w => !waitHolds s (regionOf c) w

/-- A begun descriptor is not complete: its record may still be held back (R133, R500). -/
def unfinished : DescPhase → Bool
  | .begun => true
  | .finished _ _ _ => true
  | .naming _ => true
  | _ => false

/-- A job is stuck at a sample (R507). -/
def stuckNow (s : State) (j : Job) : Bool :=
  let busy := busyCells s j
  let hi := j.params.cairnBase + j.params.cairnCount
  decide (j.phase = .running) && j.ending.isNone && !busy.isEmpty && busy.all (vainWait s) &&
  !(s.syn.inFlight.any fun e => decide (j.params.cairnBase ≤ e.1) && decide (e.1 < hi)) &&
  !((jobCells j).any fun c => (s.cell c).seq.flight.any fun f => match f with | .signal _ _ _ _ => true | _ => false) &&
  !(s.syn.groupQ.any fun e => e.1 == j.id) &&
  !(s.hif.descs.any fun d => dJob d.raw == j.id && [2, 3, 4].contains (dType d.raw) && dFlag d.raw 11 && unfinished d.phase)

/-- A waiter as a word of SYN_DL_WAITER (R510, R514). -/
def waiterWord (s : State) (c : Nat) : Nat :=
  c + 2 ^ 15 + ((s.cell c).seq.wait.map (·.cairn)).getD 0 * 65536

/-- Numbers in ascending order. -/
def ascending (l : List Nat) : List Nat :=
  l.foldr (fun a acc => acc.takeWhile (· < a) ++ a :: acc.dropWhile (· < a)) []

/-- DEADLOCK (R508 to R510): the record, and the latch while it is free. -/
def deadlock (s : State) (j : Job) : State :=
  let cs := ascending (busyCells s j)
  let ws := cs.map (waiterWord s)
  let s := if s.syn.latched then s
    else { s with syn := { s.syn with latched := true, dlJob := j.id, dlWaiters := min 255 cs.length,
                                      dlGroup := j.params.group, dlWaiter := ws.take 16 } }
  raiseChip s 0x3202 2 9 0 j.id ([j.id, cs.length] ++ ((ws.take 4) ++ List.replicate 4 0).take 4) false true

/-- A wait of the job meets its timeout in this core cycle: CAIRN_TIMEOUT comes alone (R511). -/
def timesOut (s : State) (j : Job) : Bool :=
  j.params.deadlockMode == 2 && (jobCells j).any fun c => (s.cell c).seq.wait.any fun w => decide (w.since + waitTimeout j ≤ s.clk.cycles)

/-- The roles of a member's neighbours in a topology (R535): 1 NEXT, 2 PREV, 3 TWIN. -/
def groupRoles (topology : Nat) : List Nat := match topology with | 0 => [1, 2] | 1 => [3] | 2 => [1, 2, 3] | _ => []

/-- The member that a role's neighbour must be (R535). -/
def neighbourOf (topology ringSize m role : Nat) : Option Nat :=
  let base := if topology == 2 then m / 16 * 16 else 0
  let k := if topology == 2 then m % 16 else m
  if !(groupRoles topology).contains role then none
  else match role with
    | 1 => some (base + (k + 1) % ringSize)
    | 2 => some (base + (k + ringSize - 1) % ringSize)
    | _ => some (if topology == 1 then 1 - m else m ^^^ 16)

/-- The most recent state field of the neighbour of a role, whichever port brought it (R527). -/
def neighbourField (s : State) (role : Nat) : Option Nat :=
  (neighbourOf s.grp.topology s.grp.ringSize s.sht.member role).bind fun m => sget none s.grp.nbr m

/-- The wait bit: every job with GROUP that runs here is stuck (R509). -/
def waitBit (s : State) : Bool := s.jobs.all fun j => !(j.params.group && decide (j.phase = .running)) || stuckNow s j

/-- BUSY of the member (R530). -/
def ownBusy (s : State) : Nat :=
  if !waitBit s then 0
  else min 15 (1 + ((groupRoles s.grp.topology).map fun r =>
    ((neighbourField s r).map fun f => bits f 24 21).getD 0).foldl min 15)

/-- One job at a sample: two samples in a row, and for a group job BUSY 15 at both, are a deadlock (R508, R509, R530). `at0` is the state
that every job is judged by. -/
def sampleJob (at0 : State) (s : State) (j : Job) : State :=
  let now := stuckNow at0 j && (!j.params.group || ownBusy at0 == 15)
  let s' := s.updJob j.id fun x => { x with stuck := now }
  if now && j.stuck && (j.params.deadlockMode == 1 || j.params.deadlockMode == 2) && !timesOut at0 j then deadlock s' j
  else s'

/-- DEADLOCK_SAMPLE (R507): at the next multiple of 4,096 core cycles. -/
def execDeadlockSample (s : State) : Host.Outcome State Fault Refusal :=
  let s := s.untilCycle ((s.clk.cycles / 4096 + 1) * 4096)
  .next (s.jobs.foldl (sampleJob s) s)

end Sys2Proof.Machine
end

