-- ==== Sys2Proof/Machine/Kv.lean ====
section
/-! DEFINITION. KV page tables and the TABLE descriptor (R138 to R140, R322 to R324, R453 to R464). -/

namespace Sys2Proof.Machine

open Sys2Proof

/-! ### The image of a KV page table (R455 to R458) -/

/-- The header of a KV page table. -/
structure KvHead where
  nSeq : Nat
  nPool : Nat
  nList : Nat
  layers : Nat
  heads : Nat
  dim : Nat
  fmt : Nat
  seg : Nat
  offPool : Nat
  offList : Nat
  deriving DecidableEq, Repr

/-- Reads the header (R455). -/
def kvHead (b : Bytes) : KvHead :=
  let g := num b 0x10 4
  { nSeq := bits (num b 4 4) 12 0, nPool := bits (num b 8 4) 20 0, nList := bits (num b 0xC 4) 23 0, layers := bits g 7 0,
    heads := bits g 14 8, dim := bits g 24 16, fmt := bits g 28 25, seg := num b 0x14 1, offPool := num b 0x18 4,
    offList := num b 0x1C 4 }

/-- A sequence entry (R456). -/
structure KvSeq where
  first : Nat
  count : Nat
  setLen : Bool
  initLen : Nat
  freeze : Nat
  deriving DecidableEq, Repr

/-- Reads sequence entry `n`. -/
def kvSeq (b : Bytes) (n : Nat) : KvSeq :=
  let o := 0x40 + 16 * n
  ⟨num b o 4, num b (o + 4) 2, bit (num b (o + 4) 4) 16, num b (o + 8) 4, num b (o + 12) 4⟩

/-- A page as a list entry names it (R457, R458): its pool entry, first token, offset in the segment, size in tokens and
references. -/
structure KvPage where
  pool : Nat
  first : Nat
  off : Nat
  tokens : Nat
  refs : Nat
  deriving DecidableEq, Repr

/-- The page of list entry `k`. -/
def kvPage (b : Bytes) (h : KvHead) (k : Nat) : KvPage :=
  let e := num b (h.offList + 8 * k) 8
  let p := bits e 23 0
  let q := num b (h.offPool + 16 * p) 8
  ⟨p, bits e 63 32, bits q 39 0, 16 * 2 ^ bits q 42 40, num b (h.offPool + 16 * p + 8) 2⟩

/-- The pages of a sequence, in order. -/
def kvPages (b : Bytes) (n : Nat) : List KvPage :=
  let e := kvSeq b n
  (upto e.first e.count).map (kvPage b (kvHead b))

/-- The cover of a sequence (R456); 0 beyond the entries. -/
def kvCover (b : Bytes) (n : Nat) : Nat :=
  if n < (kvHead b).nSeq then ((kvPages b n).map (·.tokens)).foldl (· + ·) 0 else 0

/-- The page of a position (R457). -/
def kvAt (b : Bytes) (n pos : Nat) : Option KvPage :=
  if kvCover b n ≤ pos then none else ((kvPages b n).filter fun p => p.first ≤ pos).getLast?

/-- Bytes of a page (R454). -/
def kvPageLen (h : KvHead) (tokens : Nat) : Nat :=
  cdiv (2 * h.layers * h.heads * tokens * h.dim * fmtWidth h.fmt / 8) 4096 * 4096

/-- Bytes of a 16 × 16 tile of a page. -/
def kvTileLen (h : KvHead) : Nat := 32 * fmtWidth h.fmt

/-- Offset in its segment of the tile of 16 tokens from `pos` and dimension tile `dt`, of a layer and head (R454). -/
def kvTile (h : KvHead) (p : KvPage) (layer head : Nat) (value : Bool) (pos dt : Nat) : Nat :=
  let blockLen := p.tokens * h.dim * fmtWidth h.fmt / 8
  p.off + ((layer * h.heads + head) * 2 + b2n value) * blockLen + ((pos - p.first) / 16 * (h.dim / 16) + dt) * kvTileLen h

/-! ### The rules of a new version (R459, R464) -/

/-- Header fields in range, reserved bits zero, sections inside the image. -/
def kvHeadOk (b : Bytes) (h : KvHead) : Bool :=
  let g := num b 0x10 4
  num b 0 4 == 1 && num b 4 4 < 2 ^ 13 && num b 8 4 < 2 ^ 21 && num b 0xC 4 < 2 ^ 24 && g < 2 ^ 29 && !bit g 15 &&
  num b 0x14 4 < 256 && (slice b 0x20 32).all (· == 0) && decide (1 ≤ h.nSeq) && decide (h.nSeq ≤ 4096) && decide (1 ≤ h.nPool) &&
  decide (h.nPool ≤ 2 ^ 20) && decide (1 ≤ h.layers) && decide (1 ≤ h.heads) && decide (h.heads ≤ 64) && h.dim % 16 == 0 &&
  decide (16 ≤ h.dim) && decide (h.dim ≤ 256) && decide (1 ≤ h.fmt) && decide (h.fmt ≤ 4) && h.offPool % 64 == 0 &&
  h.offList % 64 == 0 && decide (0x40 + 16 * h.nSeq ≤ b.length) && decide (h.offPool + 16 * h.nPool ≤ b.length) &&
  decide (h.offList + 8 * h.nList ≤ b.length)

/-- The sequence, list and pool entries keep their rules. `limit` is the class's limit of a cover (R482). -/
def kvBodyOk (b : Bytes) (h : KvHead) (segLen limit : Nat) : Bool :=
  let lists := (List.range h.nList).map fun k => num b (h.offList + 8 * k) 8
  lists.all (fun e => bits e 31 24 == 0 && decide (bits e 23 0 < h.nPool)) &&
  (List.range h.nPool).all (fun p =>
    let q := num b (h.offPool + 16 * p) 8
    let r := num b (h.offPool + 16 * p + 8) 8
    q < 2 ^ 43 && r < 65536 && bits q 39 0 % 4096 == 0 &&
    decide (bits q 39 0 + kvPageLen h (16 * 2 ^ bits q 42 40) ≤ segLen) &&
    r == (lists.filter fun e => bits e 23 0 == p).length) &&
  (List.range h.nSeq).all (fun n =>
    let e := kvSeq b n
    let ps := kvPages b n
    num b (0x40 + 16 * n + 4) 4 < 2 ^ 17 && decide (e.first + e.count ≤ h.nList) &&
    (ps.zipIdx.all fun x => x.1.first == ((ps.take x.2).map (·.tokens)).foldl (· + ·) 0) &&
    decide (kvCover b n ≤ limit) && decide (e.initLen ≤ kvCover b n))

/-- LEN of a sequence (R461). -/
def kvLen (t : TableSt) (n : Nat) : Nat := sget 0 t.lens n

/-- A position lies at the same device addresses in two pages, for every layer, head and dimension: the pages are of one size, and its
row of tiles is in one place (R454). -/
def samePlace (h : KvHead) (p q : KvPage) (pos : Nat) : Bool :=
  let row (x : KvPage) : Nat := x.off + (pos - x.first) / 16 * (h.dim / 16) * kvTileLen h
  p.tokens == q.tokens && row p == row q && p.first % 16 == q.first % 16

/-- The freeze rule of a version against the committed one (R464): positions from FREEZE_LEN up to the committed cover keep
their addresses, row of tiles by row of tiles. -/
def freezeOk (t : TableSt) (b : Bytes) : Bool :=
  (List.range (kvHead b).nSeq).all fun n =>
    let e := kvSeq b n
    e.setLen || (decide (e.freeze ≤ kvLen t n) &&
      match t.image with
      | none => true
      | some old =>
        decide (kvCover old n ≤ kvCover b n) &&
        ((if n < (kvHead old).nSeq then kvPages old n else []).all fun p =>
          (upto (max p.first e.freeze / 16) ((p.first + p.tokens) / 16 - max p.first e.freeze / 16)).all fun k =>
            let pos := max (16 * k) (max p.first e.freeze)
            (kvAt b n pos).any fun q => samePlace (kvHead b) p q pos))

/-- The header fields that a new version keeps (R459). -/
def sameShape (old new : KvHead) : Bool :=
  old.layers == new.layers && old.heads == new.heads && old.dim == new.dim && old.fmt == new.fmt && old.seg == new.seg

/-- The limit of a cover in the job's class (R482). -/
def classLimit (inter : Bool) : Nat := if inter then 131072 else 2097152

/-- A KV page table passes R459. -/
def kvOk (j : Job) (t : TableSt) (b : Bytes) : Bool :=
  let h := kvHead b
  kvHeadOk b h &&
  (match j.image.segs[h.seg]? with
   | some g => g.writable && kvBodyOk b h g.len (classLimit j.interactive)
   | none => false) &&
  (match t.image with | some old => sameShape (kvHead old) h | none => true) && freezeOk t b

/-- A route or remap table passes R322. -/
def routeOk (kind : Nat) (b : Bytes) : Bool :=
  let n := num b 4 4
  num b 0 1 == kind && !(kind == 2 && 65536 < n) && decide (64 + 8 * n ≤ b.length)

/-! ### TABLE (R138 to R140) -/

/-- TABLE fields: SRC, LEN, KIND, TABLE_ID, SRC_HOST. -/
def tblSrc (b : Bytes) : Nat := num b 0x20 8
/-- LEN. -/
def tblLen (b : Bytes) : Nat := num b 0x28 4
/-- KIND. -/
def tblKind (b : Bytes) : Nat := num b 0x2C 1
/-- TABLE_ID. -/
def tblId (b : Bytes) : Nat := num b 0x2D 2
/-- SRC_HOST. -/
def tblHost (b : Bytes) : Bool := bit (num b 0x2F 1) 0

/-- The declaration that a TABLE's job makes of its table. -/
def tblDecl (s : State) (d : Desc) : Option TableDecl :=
  (s.job? (dJob d.raw)).bind fun j => j.image.tables.find? fun t => t.kind == tblKind d.raw && t.id == tblId d.raw

/-- The checks of a TABLE before its image is read. -/
def tableStatus (s : State) (d : Desc) : Option Nat :=
  let b := d.raw
  if !headerOk b || tblLen b % 64 != 0 || tblKind b == 0 || 3 < tblKind b || 1 < num b 0x2F 1
      || !(b.drop 0x30).all (· == 0) || (dJob b == 0 && tblKind b == 1) then some 0x11
  else match jobStatus s d (s.ring d.ring).priv with
    | some x => some x
    | none => match cairnStatus s d with
      | some x => some x
      | none =>
        if !tblHost b && !rangeOk s d (·.read) (tblSrc b) (tblLen b) then some 0x13
        else if dJob b != 0 && !((tblDecl s d).any fun t => tblLen b ≤ t.maxLen) then some 0x11 else none

/-- Bytes of the table store in use (R460). -/
def storeUsed (s : State) : Nat :=
  (s.tables.map fun t => (t.image.map (·.length)).getD 0 + (t.shadow.map fun x => x.1.length).getD 0).foldl (· + ·) 0

/-- The table of a TABLE. -/
def isTable (d : Desc) (t : TableSt) : Bool := t.job == dJob d.raw && t.kind == tblKind d.raw && t.id == tblId d.raw

/-- The image passes the rules of its kind, and its shadow fits in the store beside what stays there. -/
def tableImageOk (s : State) (d : Desc) (t : TableSt) (b : Bytes) : Bool :=
  (match tblKind d.raw, s.job? (dJob d.raw) with
   | 1, some j => kvOk j t b
   | k, _ => routeOk k b) &&
  decide (storeUsed s - (t.shadow.map fun x => x.1.length).getD 0 + b.length ≤ 64 * 2 ^ 20)

/-- Writes the shadow and its commit flag; a shadow that waited is replaced (R140). -/
def putShadow (s : State) (d : Desc) (b : Bytes) : State :=
  let old := (s.tables.find? (isTable d)).getD { job := dJob d.raw, kind := tblKind d.raw, id := tblId d.raw }
  let new := { old with shadow := some (b, d.ring, d.count)
                        superseded := old.superseded ++ (old.shadow.map fun x => [(x.2.1, x.2.2)]).getD [] }
  let s := { s with tables := (s.tables.filter fun t => !isTable d t) ++ [new] }
  updDesc s d fun x => { x with phase := .begun }

/-- A TABLE begins: its image is read and checked, and the shadow is written. A failed read or check installs nothing. -/
def beginTable (s : State) (d : Desc) (src : HostData) : State :=
  let slot := d.count % ringSize (s.ring d.ring)
  let acc : Accessor := { job := dJob d.raw, src := srcDesc d.ring slot }
  let (data, s) : Except Nat Bytes × State :=
    if tblHost d.raw then
      (match src with
       | some b => (.ok (slice b 0 (tblLen d.raw)), s)
       | none => (.error 0x32, hostFail s 1 d.ring slot (tblSrc d.raw)))
    else match readMem s (tblSrc d.raw) (tblLen d.raw) acc with
      | (.ok b, s) => (.ok b, s)
      | (.error f, s) => (.error f, s)
  match data with
  | .error e => complete s d e 0
  | .ok b =>
    let t := (s.tables.find? (isTable d)).getD { job := dJob d.raw, kind := tblKind d.raw, id := tblId d.raw }
    if tableImageOk s d t b then putShadow s d b else complete s d 0x11 0

/-- TABLE (R139): checks the descriptor, and begins it if it may. -/
def execTable (ring : Nat) (src : HostData) (ph : List Phys) (s : State) : Host.Outcome State Fault Refusal :=
  let s := injectAll s ph
  match unbegun s ring with
  | none => .next s
  | some d =>
    if dType d.raw != 4 || d.phase ≠ .fetched then .next s
    else if s.err.fatal then .next (fatalEnd s d)
    else match tableStatus s d with
      | some st => .next (complete s d st 0)
      | none =>
        let s := scanWait s d
        if mayBegin s d then .next (beginTable s d src)
        else .next (updDesc s d fun x => { x with phase := .waiting, waitFrom := some s.clk.cycles })

/-- The lengths after a switch (R461): each entry with SET_LEN takes INIT_LEN. -/
def switchLens (b : Bytes) (lens : Sparse Nat) : Sparse Nat :=
  (List.range (kvHead b).nSeq).foldl (fun m n => let e := kvSeq b n; if e.setLen then sset 0 m n e.initLen else m) lens

/-- A table's shadow becomes the committed version at a tick, and its descriptors complete (R139, R140). -/
def switchTable (s : State) (t : TableSt) : State :=
  match t.shadow with
  | none => s
  | some (b, ring, count) =>
    let new := { t with image := some b, shadow := none, superseded := [],
                        lens := if t.kind == 1 then switchLens b t.lens else t.lens }
    let s := { s with tables := s.tables.map fun x => if x.job == t.job && x.kind == t.kind && x.id == t.id then new else x }
    let fin (st : Nat) (s : State) (e : Nat × Nat) : State :=
      match s.hif.descs.find? fun d => d.ring == e.1 && d.count == e.2 with
      | some d => completeOk s d st 0
      | none => s
    fin 0 (t.superseded.foldl (fin 1) s) (ring, count)

/-- Every pending table switches. -/
def switchTables (s : State) : State := s.tables.foldl switchTable s

end Sys2Proof.Machine
end

