-- ==== Sys2Proof/Machine/Attention.lean ====
section
/-! DEFINITION. The attention rows (R465 to R482). -/

namespace Sys2Proof.Machine

open Sys2Proof

/-! ### The attention record (R465, R466) -/

/-- The attention record. -/
structure AttRec where
  seq : Nat
  layer : Nat
  head : Nat
  mask : Nat
  qmode : Bool
  kvFirst : Nat
  kBase : Nat
  qPos : Nat
  freshN : Nat
  g : Nat
  freshK : Nat
  freshV : Nat
  tree : Nat
  scaleK : Nat
  scaleV : Nat
  deriving DecidableEq, Repr

/-- Reads the record (R465). -/
def attRec (b : Bytes) : AttRec :=
  let w := num b 0 4
  let n := num b 0x10 4
  let o := num b 0x14 4
  { seq := bits w 11 0, layer := bits w 19 12, head := bits w 25 20, mask := bits w 27 26, qmode := bit w 28,
    kvFirst := num b 4 4, kBase := num b 8 4, qPos := num b 0xC 4, freshN := bits n 5 0, g := bits n 12 8,
    freshK := 64 * bits o 12 0, freshV := 64 * bits o 28 16, tree := 64 * bits (num b 0x18 4) 12 0,
    scaleK := num b 0x1C 4, scaleV := num b 0x20 4 }

/-- The first word of the record with a reserved bit set. -/
def attReserved (b : Bytes) : Option Nat :=
  if 2 ^ 29 ≤ num b 0 4 then some 0
  else if bits (num b 0x10 4) 7 6 != 0 || 2 ^ 13 ≤ num b 0x10 4 then some 0x10
  else if bits (num b 0x14 4) 15 13 != 0 || 2 ^ 29 ≤ num b 0x14 4 then some 0x14
  else if 2 ^ 13 ≤ num b 0x18 4 then some 0x18
  else (upto 9 7).findSome? fun k => if num b (4 * k) 4 != 0 then some (4 * k) else none

/-- Bytes of a fresh row (R467). -/
def freshRow (h : KvHead) : Nat := h.dim * fmtWidth h.fmt / 8

/-- What AT.SCORE and AT.PV work on: the record, the table's committed image and header, LEN. -/
structure Att where
  r : AttRec
  img : Bytes
  h : KvHead
  len : Nat
  deriving DecidableEq, Repr

/-- The row groups G of AT.PV. -/
def pvGroups (x : Ctx) : Nat := stashLen x.i x.o x.oa / tileBytes x.i.a / shapeW x.i.shape

/-- The record word that R466 finds wrong, in the order of its list; `pv` for AT.PV. A case without a word of the record
answers 0xFFFF_FFFF. -/
def attFault (x : Ctx) (pv : Bool) (b : Bytes) (a : Att) : Option Nat :=
  let r := a.r
  let h := a.h
  let limit := stashBytes x.v
  match attReserved b with
  | some w => some w
  | none =>
    if h.nSeq ≤ r.seq then some 0
    else if h.layers ≤ r.layer || h.heads ≤ r.head then some 0
    else if r.g == 0 || 16 < r.g || 32 < r.freshN then some 0x10
    else if r.kvFirst % 16 != 0 then some 4
    else if r.mask == 3 || (r.mask == 2 && r.qmode) then some 0
    else if !r.qmode && decide (r.g * r.freshN < (if pv then 0 else x.oa.rows)) then some 0x10
    else if x.i.b != h.fmt then some 0xFFFFFFFF
    else if limit < (if pv then r.freshV else r.freshK) + r.freshN * freshRow h then some 0x14
    else if r.mask == 2 && limit < r.tree + 128 then some 0x18
    else if !pv && 65536 < x.oa.start + pad64 (x.oa.rows * h.dim * fmtWidth x.i.a / 8) then some 0xFFFFFFFF
    else if pv && x.od.count != pvGroups x * (h.dim / 16) then some 0xFFFFFFFF else none

/-- ATT_RECORD (R466): the record word and the table. -/
def attRecordBad (s : State) (x : Ctx) (word : Nat) : State :=
  raiseCell s 0x0706 2 x.c (some x.who) [word, x.ob.tid]

/-- Reads and checks the attention record. -/
def readAtt (s : State) (x : Ctx) (pv : Bool) : Option Att × State :=
  match readStash s x.c (x.gran s) (stashBytes x.v - 128) 64 (some x.who) with
  | (none, s) => (none, s)
  | (some b, s) =>
    match s.tables.find? fun t => t.job == x.j.id && t.kind == 1 && t.id == x.ob.tid with
    | none => (none, attRecordBad s x 0xFFFFFFFF)
    | some t => match t.image with
      | none => (none, attRecordBad s x 0xFFFFFFFF)
      | some img =>
        let r := attRec b
        let a : Att := ⟨r, img, kvHead img, kvLen t r.seq⟩
        match attFault x pv b a with
        | some w => (none, attRecordBad s x w)
        | none => (some a, s)

/-! ### The positions of a span (R467) -/

/-- A valid position. -/
def Att.valid (a : Att) (p : Nat) : Bool := decide (p < a.len + a.r.freshN)

/-- The elements of a tile of the committed version for 16 positions from `pos`, fetched where one of them lies below LEN. -/
def fetchTile (s : State) (x : Ctx) (a : Att) (value : Bool) (pos dt : Nat) : Option (Option Bytes) × State :=
  if a.len ≤ pos then (some none, s)
  else match kvAt a.img a.r.seq pos with
    | none => (some none, s)
    | some p =>
      let base := ((x.j.image.segs[a.h.seg]?).map (·.base)).getD 0
      let s := s.updMm x.c fun m => { m with fetchTiles := sat32 m.fetchTiles 1 }
      match readMem s (base + kvTile a.h p a.r.layer a.r.head value pos dt) (kvTileLen a.h) x.acc with
      | (.ok b, s) => (some (some b), s.countRegion 0x201 (regionOf x.c) (kvTileLen a.h / 64))
      | (.error _, s) => (none, s)

/-- Fetches the tiles of a span: (16-token group, dimension tile), group after group; none where a fetch failed. -/
def fetchSpan (s : State) (x : Ctx) (a : Att) (value : Bool) (w : Nat) : Option (List (List (Option Bytes))) × State :=
  (List.range w).foldl (fun (r : Option (List (List (Option Bytes))) × State) g =>
    match r.1 with
    | none => r
    | some acc =>
      let t := (List.range (a.h.dim / 16)).foldl (fun (q : Option (List (Option Bytes)) × State) dt =>
        match q.1 with
        | none => q
        | some l => match fetchTile q.2 x a value (a.r.kvFirst + 16 * g) dt with
          | (none, s) => (none, s)
          | (some e, s) => (some (l ++ [e]), s)) (some [], r.2)
      (t.1.map fun l => acc ++ [l], t.2)) (some [], s)

/-- The value of dimension `d` at the `n`-th position of the span: from a page, from the fresh rows, or 0 (R467, R473). -/
def spanVal (a : Att) (tiles : List (List (Option Bytes))) (fresh : Bytes) (value : Bool) (n d : Nat) : Val :=
  let p := a.r.kvFirst + n
  let w := fmtWidth a.h.fmt
  if p < a.len then
    match (tiles.getD (n / 16) []).getD (d / 16) none with
    | some t => decodeElem a.h.fmt (elemAt t w (if value then n % 16 * 16 + d % 16 else d % 16 * 16 + n % 16))
    | none => .zero
  else if a.valid p then decodeElem a.h.fmt (elemAt fresh w ((p - a.len) * a.h.dim + d))
  else .zero

/-- Reads the fresh rows of the instruction. -/
def readFresh (s : State) (x : Ctx) (a : Att) (value : Bool) : Option Bytes × State :=
  let n := a.r.freshN * freshRow a.h
  if n == 0 then (some [], s)
  else readStash s x.c (x.gran s) (if value then a.r.freshV else a.r.freshK) n (some x.who)

/-! ### Stores of fresh rows (R462, R471) -/

/-- The first fresh position that may not be stored: its error. -/
def storeFault (s : State) (x : Ctx) (a : Att) : Option State :=
  (upto a.len a.r.freshN).findSome? fun p =>
    match kvAt a.img a.r.seq p with
    | none => some (raiseCell s 0x0701 2 x.c (some x.who) [a.r.seq, p, kvCover a.img a.r.seq])
    | some q => if 2 ≤ q.refs then some (raiseCell s 0x0702 2 x.c (some x.who) [a.r.seq, q.pool]) else none

/-- The writes of the fresh rows, (device address, bytes), one per element. -/
def freshWrites (x : Ctx) (a : Att) (value : Bool) (fresh : Bytes) : List (Nat × Bytes) :=
  let w := fmtWidth a.h.fmt / 8
  let base := ((x.j.image.segs[a.h.seg]?).map (·.base)).getD 0
  (List.range a.r.freshN).flatMap fun k =>
    let p := a.len + k
    match kvAt a.img a.r.seq p with
    | none => []
    | some q => (List.range a.h.dim).map fun d =>
        let t := (p - q.first) % 16
        let e := if value then t * 16 + d % 16 else d % 16 * 16 + t
        (base + kvTile a.h q a.r.layer a.r.head value p (d / 16) + e * w, slice fresh ((k * a.h.dim + d) * w) w)

/-- Writes elements block by block: each block is read and verified, merged, and written with a fresh check (R471). -/
def mergeWrites (s : State) (acc : Accessor) (ws : List (Nat × Bytes)) : State :=
  (((ws.map fun e => e.1 / 4096).dedup).foldl (fun (r : Bool × State) b =>
    if !r.1 then r
    else match readMem r.2 (b * 4096) 4096 acc with
      | (.error _, s) => (false, s)
      | (.ok d, s) =>
        let d := (ws.filter fun e => e.1 / 4096 == b).foldl (fun d e =>
          let o := e.1 % 4096
          d.take o ++ e.2 ++ d.drop (o + e.2.length)) d
        match writeMem s (b * 4096) d acc with
        | (.ok _, s) => (true, s)
        | (.error _, s) => (false, s)) (true, s)).2

/-- Stores the fresh rows where X asks for it. -/
def storeFresh (s : State) (x : Ctx) (a : Att) (value : Bool) (fresh : Bytes) : State :=
  if !x.i.x then s
  else mergeWrites (s.updMm x.c fun m => { m with storeRows := sat32 m.storeRows a.r.freshN }) x.acc
    (freshWrites x a value fresh)

/-- Weight buffer half 1 holds unspecified bytes after AT.SCORE and AT.PV (R470; free values, log entry 2). -/
def spoilHalf (s : State) (c : Nat) : State :=
  let d := (List.range 4096).flatMap fun k => leBytes 4 (Config.freeWord (s.freeCtr + k)).toNat
  writeBuf { s with freeCtr := s.freeCtr + 4096 } c false 16384 d

/-! ### AT.SCORE and AT.PV (R470, R473) -/

/-- Shifts the array faults of an instruction to those of a tile that starts at array cycle `n`. -/
def shiftFaults (n : Nat) (ph : List Phys) : List Phys :=
  ph.filterMap fun p => match p with
    | .array k col v again => if n ≤ k then some (.array (k - n) col v again) else none
    | .duplicate k row grp again => if n ≤ k then some (.duplicate (k - n) row grp again) else none
    | _ => none

/-- Sweeps a list of latched tiles in turn, the first writing, the others adding: the rows of tile `q` are `rows q`. False
where a sweep stopped. -/
def sweepAll (s : State) (x : Ctx) (k : SweepCfg) (tiles : List WTile) (rows : Nat → List ARow) : Bool × State :=
  (tiles.zipIdx).foldl (fun (r : Bool × State) e =>
    if !r.1 then r
    else
      let all := rows e.2
      let live := if e.2 == 0 then all else all.filter fun y => !y.zeroRow
      let cyc := cdiv ((all.filter fun y => !y.zeroRow).length) (if k.g.nt == 256 then 1 else k.g.p)
      sweepTile r.2 x { k with ovw := e.2 == 0, ph := shiftFaults (e.2 * cyc) k.ph } e.1 live) (true, s)

/-- A score is masked (R468): query row `m`, position `p`. -/
def maskedScore (a : Att) (tree : Bytes) (m p : Nat) : Bool :=
  let r := a.r
  let i := m / r.g
  let q := if r.qmode then r.qPos + i else r.kBase + a.len + i
  !a.valid p ||
  (match r.mask with
   | 1 => decide (q < r.kBase + p)
   | 2 => decide (a.len ≤ p) && !bit (num tree (4 * i) 4) (p - a.len)
   | _ => false)

/-- Writes −∞ to the masked scores and to the rows beyond ROWS of the last group (R470). -/
def writeMasked (s : State) (x : Ctx) (a : Att) (k : SweepCfg) (tree : Bytes) (inPlay : Nat → Bool) : State :=
  (List.range (16 * cdiv x.oa.rows 16)).foldl (fun s m =>
    if !inPlay m then s
    else (List.range (16 * k.span)).foldl (fun s n =>
      if x.oa.rows ≤ m || maskedScore a tree m (a.r.kvFirst + n) then
        writeAcc s x.c (accKey k.run (k.first + m / 16 * k.span + n / 16) (m % 16 * 16 + n % 16)) 0xFF800000
      else s) s) s

/-- The scores of the span: the sweeps over the reduction tiles. -/
def scoreSweep (s : State) (x : Ctx) (a : Att) (k : SweepCfg) (vals : Nat → Nat → Val) (qs : List (List Val)) : Bool × State :=
  let g := k.g
  let scale := if x.i.scale == 3 then ofF32 a.r.scaleK else .fin false 1 0
  let tiles : List WTile := (List.range (a.h.dim / g.kt)).map fun q =>
    { cols := (List.range g.nt).map fun n => (List.range g.kt).map fun r => (r, vals n (q * g.kt + r))
      scales := List.replicate g.nt scale }
  let rows (q : Nat) : List ARow := (qs.zipIdx).map fun e =>
    ⟨e.2, (e.1.drop (q * g.kt)).take g.kt, e.1.all (·.isZero), .fin false 1 0⟩
  sweepAll (countTiles s x.c (tilesWritten true k.span (rows 0))) x k tiles rows

/-- The work of AT.SCORE once its record is good and its operands are read. -/
def scoreBody (s : State) (x : Ctx) (a : Att) (ph : List Phys) (live : Nat) (inPlay : Nat → Bool) (fresh tree qb : Bytes) : State :=
  let i := x.i
  let g := geom i.a i.b i.shape 0
  match fetchSpan s x a false g.w with
  | (none, s) => s
  | (some tiles, s) =>
    let k : SweepCfg := ⟨false, i.scale == 3, true, g, g.w, i.b, x.od.first, runBanks s x.c, ph⟩
    let qs := (List.range live).map fun m => (List.range a.h.dim).map fun d =>
      decodeElem i.a (elemAt qb (fmtWidth i.a) (m * a.h.dim + d))
    let (ok, s) := if a.valid a.r.kvFirst then scoreSweep s x a k (spanVal a tiles fresh false) qs else (true, s)
    let s := spoilHalf s x.c
    if ok then storeFresh (writeMasked s x a k tree inPlay) x a false fresh else s

/-- AT.SCORE (R470). -/
def execAtScore (c : Nat) (ph : List Phys) (s : State) : Host.Outcome State Fault Refusal :=
  issue 0x70 c ph s fun x s =>
    let b := minBound (bound s c x.od) (bound s c x.oa)
    let live := clipTo b x.oa.rows
    let s := s.countCell 0x004 c ((cdiv x.oa.rows 16 - cdiv live 16) * shapeW x.i.shape)
    if b == some 0 then s
    else match readAtt s x false with
      | (none, s) => s
      | (some a, s) => match (if x.i.x then storeFault s x a else none) with
        | some s => s
        | none => match readFresh s x a false with
          | (none, s) => s
          | (some fresh, s) =>
            match (if a.r.mask == 2 then readStash s c (x.gran s) a.r.tree 128 (some x.who) else (some [], s)) with
            | (none, s) => s
            | (some tree, s) => match readBuf s x true x.oa.start (live * a.h.dim * fmtWidth x.i.a / 8) with
              | (none, s) => s
              | (some qb, s) => scoreBody s x a ph live (fun m => b.all fun e => decide (m < e)) fresh tree qb

/-- The sweeps of AT.PV: for each dimension tile, the token tiles of the span. -/
def pvSweep (s : State) (x : Ctx) (a : Att) (k : SweepCfg) (w live : Nat) (vals : Nat → Nat → Val) (pb : Bytes) : Bool × State :=
  let i := x.i
  let elem (m n : Nat) : Val := decodeElem i.a (elemAt pb (fmtWidth i.a) ((m / 16 * w + n / 16) * 256 + m % 16 * 16 + n % 16))
  let rows := (List.range live).map fun m => (List.range (16 * w)).map fun n => elem m n
  let scale := if i.scale == 3 then ofF32 a.r.scaleV else .fin false 1 0
  let part (t : Nat) : List ARow := (rows.zipIdx).map fun e => ⟨e.2, (e.1.drop (16 * t)).take 16, e.1.all (·.isZero), .fin false 1 0⟩
  let s := countTiles s x.c (tilesWritten true k.span (part 0))
  (List.range (a.h.dim / 16)).foldl (fun (r : Bool × State) dt =>
    if !r.1 then r
    else
      let tiles : List WTile := (List.range w).map fun t =>
        { cols := (List.range 16).map fun n => (List.range 16).map fun y => (y, vals (16 * t + y) (16 * dt + n))
          scales := List.replicate 16 scale }
      sweepAll r.2 x { k with first := k.first + dt, ph := shiftFaults (dt * w * cdiv live k.g.p) k.ph } tiles part) (true, s)

/-- The work of AT.PV once its record is good and its operands are read. -/
def pvBody (s : State) (x : Ctx) (a : Att) (ph : List Phys) (live : Nat) (fresh pb : Bytes) : State :=
  let i := x.i
  let w := shapeW i.shape
  match fetchSpan s x a true w with
  | (none, s) => s
  | (some tiles, s) =>
    let run := runBanks s x.c
    let k : SweepCfg := ⟨false, i.scale == 3, true, geom i.a i.b 0 0, a.h.dim / 16, i.b, x.od.first, run, ph⟩
    let (ok, s) :=
      if a.valid a.r.kvFirst then pvSweep s x a k w live (spanVal a tiles fresh true) pb
      else (true, (List.range live).foldl (fun s m => (List.range a.h.dim).foldl (fun s d =>
        writeAcc s x.c (accKey run (x.od.first + m / 16 * (a.h.dim / 16) + d / 16) (m % 16 * 16 + d % 16)) 0) s) s)
    let s := spoilHalf s x.c
    if ok then storeFresh s x a true fresh else s

/-- AT.PV (R473). -/
def execAtPv (c : Nat) (ph : List Phys) (s : State) : Host.Outcome State Fault Refusal :=
  issue 0x71 c ph s fun x s =>
    let rows := 16 * pvGroups x
    let live := clipTo (bound s c x.od) rows
    let s := s.countCell 0x004 c ((cdiv rows 16 - cdiv live 16) * shapeW x.i.shape)
    if live == 0 || bound s c x.oa == some 0 then s
    else match readAtt s x true with
      | (none, s) => s
      | (some a, s) => match (if x.i.x then storeFault s x a else none) with
        | some s => s
        | none => match readFresh s x a true with
          | (none, s) => s
          | (some fresh, s) => match readOpnd s x x.oa (stashLen x.i x.o x.oa) (bound s c x.oa) false with
            | (none, s) => s
            | (some pb, s) => pvBody s x a ph live fresh pb

/-! ### AT.SOFTMAX (R472) -/

/-- A difference rounded to FP32, and e^x of it as an FP32 encoding. -/
def expDiff (a b : Val) : Nat := sfuFn 0 (toF32 (a.add b.neg))

/-- −∞. -/
def negInf : Val := .inf true

/-- The maximum of a row, as in VX.RED MAX. -/
def rowMax (vs : List Val) : Val := (vs.drop 1).foldl Val.max (vs.headD .zero)

/-- The probabilities of a row before rounding, with its maximum. -/
def rowProbs (vs : List Val) : Val × List Val :=
  let m := rowMax vs
  (m, if m = negInf then vs.map fun _ => .zero else vs.map fun v => ofF32 (expDiff v m))

/-- A stats tile: per row its maximum and its sum; row 0 also holds G (R472, R474). -/
def statsTile (g : Nat) (rows : List (Nat × Nat)) : Bytes :=
  (rows.zipIdx).flatMap fun e =>
    leBytes 4 e.1.1 ++ leBytes 4 e.1.2 ++ leBytes 4 (if e.2 == 0 then g else 0) ++ List.replicate 52 0

/-- The lines in play of an instruction's stash operands: the smallest extent governs (R195, R197; log entry 22). -/
def linesIn (s : State) (x : Ctx) : Option Nat :=
  minBound (bound s x.c x.od) (minBound (bound s x.c x.oa) (if x.ob.space == 4 then bound s x.c x.ob else none))

/-- Elements of `w` bits at OPD's start that the lines in play hold, in part or whole: the others are not written and take no draw
(R196, R288). -/
def elemsIn (b : Option Nat) (w n : Nat) : Nat := clipTo (b.map fun e => cdiv (e * 512) w) n

/-- What AT.SOFTMAX makes of `n` score tiles: the bytes at OPD, probabilities then stats tiles; the probabilities written as
converted, `ne` of them; the generator after them (R288, R472). DESIGN CHOICE (log entry 68): with SR 1 the stats words round to nearest
and take no draw. -/
def softmax (i : Ins) (n ne : Nat) (b : Bytes) (rng : Nat) : Bytes × List Conv × Nat :=
  let w := shapeW i.shape
  let g := n / w
  let score (grp r k : Nat) : Val := ofF32 (num b (4 * ((grp * w + k / 16) * 256 + r * 16 + k % 16)) 4)
  let rows := (List.range (16 * g)).map fun m => rowProbs ((List.range (16 * w)).map (score (m / 16) (m % 16)))
  let prob (e : Nat) : Val :=
    let t := e / 256
    ((rows.getD (t / w * 16 + e % 256 / 16) (.zero, [])).2).getD (t % w * 16 + e % 16) .zero
  let (es, rng) := encodeAll i.d i.sat i.sr ((List.range ne).map prob) rng
  let out := es.map (·.1)
  let sum (m : Nat) : Nat := toF32 (Val.sum ((List.range (16 * w)).map fun k =>
    decodeElem i.d (out.getD ((m / 16 * w + k / 16) * 256 + m % 16 * 16 + k % 16) 0)))
  let stats := (List.range g).flatMap fun grp => statsTile g ((List.range 16).map fun r =>
    (toF32 (rows.getD (grp * 16 + r) (.zero, [])).1, sum (grp * 16 + r)))
  let p := packElems (fmtWidth i.d) out
  (p ++ List.replicate (pad64 (32 * fmtWidth i.d * n) - p.length) 0 ++ stats, es, rng)

/-- AT.SOFTMAX (R472). -/
def execAtSoftmax (c : Nat) (ph : List Phys) (s : State) : Host.Outcome State Fault Refusal :=
  issue 0x72 c ph s fun x s =>
    let n := x.oa.lenKib
    let e := linesIn s x
    if e == some 0 then s.countCell 0x004 c n
    else match readOpnd s x x.oa (1024 * n) e false with
      | (none, s) => s
      | (some b, s) =>
        let (d, es, rng) := softmax x.i n (elemsIn e (fmtWidth x.i.d) (256 * n)) b (s.cell c).misc.rng
        let s := s.updMisc c fun m => { m with rng := rng }
        logNans (writeOpnd s x x.od d e) x 0 es

/-! ### AT.MERGE (R474) -/

/-- One row of a partial state: its maximum, its sum, its outputs. -/
structure PartRow where
  m : Val
  l : Val
  o : List Val
  deriving DecidableEq, Repr

/-- Row `r` of a state of G groups and dimension D. -/
def partRow (b : Bytes) (g dim r : Nat) : PartRow :=
  let st := 64 * r
  ⟨ofF32 (num b st 4), ofF32 (num b (st + 4) 4), (List.range dim).map fun d =>
    ofF32 (num b (1024 * g + 4 * ((r / 16 * (dim / 16) + d / 16) * 256 + r % 16 * 16 + d % 16)) 4)⟩

/-- The merge of two rows: m and l, rounded once to FP32, and the exact outputs. -/
def mergeRow (a b : PartRow) : Nat × Nat × List Val :=
  let m := a.m.max b.m
  if m = negInf then (0xFF800000, 0, a.o.map fun _ => .zero)
  else
    let fa := ofF32 (expDiff a.m m)
    let fb := ofF32 (expDiff b.m m)
    (toF32 m, toF32 ((a.l.mul fa).add (b.l.mul fb)),
      List.zipWith (fun p q => (p.mul fa).add (q.mul fb)) a.o b.o)

/-- Divides outputs, rounded to FP32, by the sums of their rows and rounds them, drawing for each with SR. -/
def normalise (i : Ins) (es : List (Val × Nat)) (rng : Nat) : List Conv × Nat :=
  es.foldl (fun (r : List Conv × Nat) e =>
    let rng := if i.sr then rngDraw r.2 else r.2
    let q := if (ofF32 e.2).isZero then encodeElem i.d i.sat none .zero
      else divVal i.d i.sat (if i.sr then some rng else none) (ofF32 (toF32 e.1)) (ofF32 e.2)
    (r.1 ++ [q], rng)) ([], rng)

/-- Writes what AT.MERGE computed in the lines in play: the state, whose outputs are rounded to FP32 (with SR stochastically, the stats
to nearest; log entry 22), or the normalised outputs. A result that leaves the declared stash, or a non-zero LEN that it passes, faults
BUFFER_RANGE (R300). -/
def writeMerge (s : State) (x : Ctx) (e : Option Nat) (g dim : Nat) (rows : List (Nat × Nat × List Val)) : State :=
  let i := x.i
  let row (r : Nat) : Nat × Nat × List Val := rows.getD r (0, 0, [])
  let order : List (Nat × Nat) := (List.range (g * dim * 16)).map fun e =>
    let t := e / 256
    (t / (dim / 16) * 16 + e % 256 / 16, t % (dim / 16) * 16 + e % 16)
  let outs := order.map fun p => ((row p.1).2.2.getD p.2 .zero, (row p.1).2.1)
  let fits (n : Nat) : Bool := decide (x.od.start + pad64 n ≤ stashBytes x.v) &&
    (x.od.lenKib == 0 || decide (pad64 n ≤ 1024 * x.od.lenKib))
  if i.x then
    let (es, rng) := normalise i (outs.take (elemsIn e (fmtWidth i.d) outs.length)) (s.cell x.c).misc.rng
    if !fits (cdiv (outs.length * fmtWidth i.d) 8) then issueFault s x.who 0x010C []
    else
      let s := s.updMisc x.c fun m => { m with rng := rng }
      logNans (writeOpnd s x x.od (packElems (fmtWidth i.d) (es.map (·.1))) e) x 0 es
  else
    let stats := (List.range g).flatMap fun k => statsTile g ((List.range 16).map fun r => ((row (k * 16 + r)).1, (row (k * 16 + r)).2.1))
    let (es, rng) := encodeAll 0 i.sat i.sr ((outs.take (elemsIn (e.map (· - 16 * g)) 32 outs.length)).map (·.1)) (s.cell x.c).misc.rng
    if !fits (1024 * g + 4 * outs.length) then issueFault s x.who 0x010C []
    else writeOpnd (s.updMisc x.c fun m => { m with rng := rng }) x x.od (stats ++ packElems 32 (es.map (·.1))) e

/-- AT.MERGE (R474). -/
def execAtMerge (c : Nat) (ph : List Phys) (s : State) : Host.Outcome State Fault Refusal :=
  issue 0x73 c ph s fun x s =>
    let la := stashLen x.i x.o x.oa
    let lb := stashLen x.i x.o x.ob
    let e := linesIn s x
    if e == some 0 then s.countCell 0x004 c (la / 1024)
    else match readOpnd s x x.oa la e false with
      | (none, s) => s
      | (some a, s) => match readOpnd s x x.ob lb e false with
        | (none, s) => s
        | (some b, s) =>
          let ga := num a 8 4
          let gb := num b 8 4
          if ga != gb || la != lb then raiseCell s 0x0707 2 c (some x.who) [ga, gb]
          else
            let g := min ga (la / 1024)
            let dim := 16 * (la / 1024 / ga - 1)
            writeMerge s x e g dim ((List.range (16 * g)).map fun r => mergeRow (partRow a g dim r) (partRow b g dim r))

/-! ### Speculative verification (R477 to R480) -/

/-- The parent of a node. -/
def parentOf (b : Bytes) (i : Nat) : Nat := num b (0x40 + i) 1
/-- The candidate of a node. -/
def candOf (b : Bytes) (i : Nat) : Nat := num b (0x80 + 4 * i) 4
/-- The verified token after a node. -/
def verifyOf (b : Bytes) (i : Nat) : Nat := num b (0x100 + 4 * i) 4

/-- The first node that breaks the rules of a tree record, with its parent (R477). -/
def treeFault (b : Bytes) : Option (Nat × Nat) :=
  let n := num b 0 1 % 64
  let f := num b 1 1 % 64
  if n == 0 || 32 < n || f == 0 || n < f then some (0, parentOf b 0)
  else ((List.range n).find? fun i =>
    let p := parentOf b i
    if i == 0 then p != 0xFF else if i < f then p != i - 1 else i ≤ p).map fun i => (i, parentOf b i)

/-- The nodes on the way from a node to the root, itself among them; `fuel` bounds it. -/
def ancestors (b : Bytes) : Nat → Nat → List Nat
  | 0, _ => []
  | f + 1, i => if i == 0 then [0] else i :: ancestors b f (parentOf b i)

/-- The tree mask (R478). -/
def treeMask (b : Bytes) : Bytes :=
  (List.range 32).flatMap fun i =>
    leBytes 4 (if i < num b 0 1 % 64 then ((ancestors b 32 i).map (2 ^ ·)).foldl (· + ·) 0 else 0)

/-- The accepted nodes (R479, step 1). -/
def accepted (b : Bytes) : List Nat :=
  (List.range (num b 0 1 % 64)).foldl (fun acc i =>
    if i == 0 || i < num b 1 1 % 64 then acc ++ [i]
    else if acc.contains (parentOf b i) && candOf b i == verifyOf b (parentOf b i) then acc ++ [i] else acc) []

/-- The path from a node through lowest-numbered accepted children (R479, step 2); `fuel` bounds it. -/
def treePath (b : Bytes) (acc : List Nat) : Nat → Nat → List Nat
  | 0, _ => []
  | f + 1, i => i :: match acc.find? fun k => k != 0 && parentOf b k == i with
    | some k => treePath b acc f k
    | none => []

/-- The acceptance vector (R479). -/
def acceptance (b : Bytes) : Bytes :=
  let path := treePath b (accepted b) 32 0
  let m := path.length
  let c := ((path.zipIdx).takeWhile fun e => e.1 == e.2).length
  let bonus := verifyOf b (path.getLastD 0)
  let next := (path.drop c).map (candOf b) ++ [bonus]
  leBytes 4 (num b 4 4 % 4096) ++ leBytes 4 (m + c * 256) ++ leBytes 4 bonus ++
    leBytes 4 ((path.map (2 ^ ·)).foldl (· + ·) 0) ++ leBytes 4 (m - c + 1) ++ List.replicate 44 0 ++
    slice ((path.map fun p => (BitVec.ofNat 8 p : Byte)) ++ List.replicate (32 - m) 0xFF) 0 32 ++ List.replicate 32 0 ++
    slice (next.flatMap (leBytes 4)) 0 128

/-- AT.TREE (R478, R479). -/
def execAtTree (c : Nat) (ph : List Phys) (s : State) : Host.Outcome State Fault Refusal :=
  issue 0x74 c ph s fun x s =>
    let e := linesIn s x
    if e == some 0 then s.countCell 0x004 c 1
    else match readOpnd s x x.oa 384 e false with
      | (none, s) => s
      | (some b, s) => match treeFault b with
        | some f => raiseCell s 0x0705 2 c (some x.who) [f.1, f.2]
        | none => writeOpnd s x x.od (if x.i.x then acceptance b else treeMask b) e

/-- The length that AT.ROLLBACK asks for (R480): LEN gains C or VALUE, or becomes VALUE. -/
def rollbackLen (x : Bool) (b : Bytes) (len : Nat) : Nat :=
  if !x then len + num b 5 1 % 64
  else if bit (num b 0 4) 31 then num b 4 4 else len + num b 4 4

/-- AT.ROLLBACK (R480, R464): its line, the checks, the new LEN. -/
def rollback (s : State) (x : Ctx) (b : Bytes) : State :=
  let n := num b 0 2 % 4096
  let t := (s.tables.find? fun t => t.job == x.j.id && t.kind == 1 && t.id == x.od.tid).getD ⟨x.j.id, 1, x.od.tid, none, none, [], []⟩
  let len := kvLen t n
  let new := rollbackLen x.i.x b len
  let cover := (t.image.map fun i => kvCover i n).getD 0
  let freeze := match t.shadow with
    | some (i, _, _) => if n < (kvHead i).nSeq && !(kvSeq i n).setLen then (kvSeq i n).freeze else 0
    | none => 0
  let bad (code : Nat) (items : List Nat) : State := raiseCell s code 2 x.c (some x.who) items
  if x.i.x && bit (num b 0 4) 31 && decide (len < new) then bad 0x0709 [n, len, new]
  else if classLimit x.j.interactive < new then bad 0x0703 [n, new]
  else if cover < new then bad 0x0701 [n, new, cover]
  else if new < freeze then bad 0x0704 [n, freeze]
  else { s with tables := s.tables.map fun y =>
    if y.job == t.job && y.kind == 1 && y.id == t.id then { y with lens := sset 0 y.lens n new } else y }

/-- AT.ROLLBACK (R480). -/
def execAtRollback (c : Nat) (ph : List Phys) (s : State) : Host.Outcome State Fault Refusal :=
  issue 0x75 c ph s fun x s =>
    if bound s c x.oa == some 0 then s.countCell 0x004 c 1
    else match readOpnd s x x.oa 64 none false with
      | (none, s) => s
      | (some b, s) => rollback s x b

end Sys2Proof.Machine
end

