-- ==== Sys2Proof/Machine/Plot.lean ====
section
/-! DEFINITION. Plot sequences: decoding, strokes, results, PLOT_FENCE; the begin of a waiting descriptor
(R116, R135 to R137, R141, R404, R426 to R449). -/

namespace Sys2Proof.Machine

open Sys2Proof

/-! ### Commands to plot units (R404) -/

/-- PLOAD: sequence words into the operand buffer of one context. -/
def StackCmd.pLoad (pc : Nat) (inter : Bool) (words : Bytes) : StackCmd := .plot 1 pc (2 ^ 64 - 1) inter 0 words
/-- PSTROKE: the units of a mask start a stroke in a context with a word budget. -/
def StackCmd.pStroke (pc mask : Nat) (inter : Bool) (budget : Nat) : StackCmd := .plot 2 pc mask inter budget []
/-- PHOLD: the stroke ends. -/
def StackCmd.pHold (pc : Nat) : StackCmd := .plot 3 pc (2 ^ 64 - 1) false 0 []
/-- PRESULT: the units of a mask write their result blocks. -/
def StackCmd.pResult (pc mask : Nat) (inter : Bool) : StackCmd := .plot 4 pc mask inter 0 []
/-- PCLEAR: one context of every unit is cleared. -/
def StackCmd.pClear (pc : Nat) (inter : Bool) : StackCmd := .plot 5 pc (2 ^ 64 - 1) inter 0 []
/-- PSTAT: every unit returns its status word. -/
def StackCmd.pStat (pc : Nat) : StackCmd := .plot 6 pc (2 ^ 64 - 1) false 0 []
/-- PFENCE: one unit is fenced. -/
def StackCmd.pFence (pc unit : Nat) : StackCmd := .plot 7 pc (2 ^ unit) false 0 []

/-! ### Commands of a sequence (R431, R432) -/

/-- A command line. -/
structure PlotCmd where
  op : Nat
  kind : Nat
  func : Nat
  maskop : Nat
  resLine : Nat
  width : Nat
  k : Nat
  col : Nat
  aux : Nat
  operLine : Nat
  operLines : Nat
  litA : Nat
  litB : Nat
  clean : Bool
  deriving DecidableEq, Repr

/-- Reads command `n` of a sequence (R432). -/
def plotCmd (lines : Bytes) (n : Nat) : PlotCmd :=
  let b := slice lines (64 * (n + 1)) 64
  let w := num b 0 4
  let x := num b 4 4
  { op := bits w 7 0, kind := bits w 11 8, func := bits w 15 12, maskop := bits w 17 16, resLine := bits w 23 18,
    width := bits x 15 0, k := bits x 22 16, col := num b 8 8, aux := num b 0x10 8, operLine := num b 0x18 2,
    operLines := num b 0x1A 2, litA := num b 0x20 8, litB := num b 0x28 8,
    clean := w < 2 ^ 24 && x < 2 ^ 23 && num b 0x1C 4 == 0 && (slice b 0x30 16).all (· == 0) }

/-- Bytes of a scalar element (R434). -/
def scalarWidth (kind : Nat) : Nat := if kind ≤ 1 then 1 else if kind ≤ 3 then 2 else if kind ≤ 5 then 4 else if kind ≤ 7 then 8
  else if kind ≤ 9 then 2 else 4

/-- Lines a command writes to the result block (R433). -/
def resLines (c : PlotCmd) : Nat :=
  match c.op with
  | 2 => 1 + cdiv c.k 8
  | 3 => 1
  | 4 => 1
  | 5 => c.k
  | _ => 0

/-- The columns a command reads: (device address, bytes per row). -/
def cmdColumns (c : PlotCmd) : List (Nat × Nat) :=
  match c.op with
  | 2 => (c.col, c.width) :: (if c.func == 2 then [(c.aux, 4)] else [])
  | 1 => [(c.col, scalarWidth c.kind)]
  | 4 => [(c.col, scalarWidth c.kind)]
  | 6 => [(c.col, scalarWidth c.kind)]
  | _ => []

/-- A command is well formed in a sequence of `n` lines (R432 to R437, R440). -/
def cmdOk (n : Nat) (c : PlotCmd) : Bool :=
  let need := if c.op == 1 && c.func == 5 then 1 else if c.op == 1 && c.func == 6 then 2
    else if c.op == 2 then cdiv c.width 64 else 0
  c.clean && decide (1 ≤ c.op) && decide (c.op ≤ 6) &&
  (if c.op == 1 || c.op == 6 then c.resLine == 0 else decide (1 ≤ c.resLine) && decide (c.resLine + resLines c ≤ 64)) &&
  (match c.op with
   | 1 => decide (c.kind ≤ 10) && decide (c.func ≤ 6) && !(c.func == 5 && 2 ≤ c.kind) &&
       !(c.func == 6 && (c.litA == 0 || 16 < c.litA))
   | 2 => [2, 3, 9, 11].contains c.kind && decide (c.func ≤ 2) && c.width % 32 == 0 && decide (32 ≤ c.width) &&
       decide (c.width ≤ 8192) && decide (1 ≤ c.k) && decide (c.k ≤ 64)
   | 4 => c.kind ≤ 5 || (8 ≤ c.kind && c.kind ≤ 10)
   | 5 => decide (2 ≤ c.k) && decide (c.k ≤ 63)
   | 6 => decide (c.kind ≤ 10)
   | _ => true) &&
  (c.aux == 0 || (c.op == 2 && c.func == 2)) &&
  (need == 0 || c.operLines == need) && (c.operLines == 0 || decide (c.operLine + c.operLines ≤ n))

/-- The commands of a sequence. -/
def plotCmds (q : PlotSeq) : List PlotCmd := (List.range q.nCmd).map (plotCmd q.lines)

/-- Rows per unit R (R429). -/
def unitRows (q : PlotSeq) : Nat := 4096 * q.rCode

/-- The units of the table. -/
def plotUnitsOf (q : PlotSeq) : List Nat := upto q.unitBase q.unitCount

/-- The header is well formed (R431). -/
def headOk (h : Bytes) : Bool :=
  let u := num h 8 4
  num h 0 2 == 1 && decide (1 ≤ num h 2 2) && decide (num h 2 2 ≤ 32) && num h 6 2 == 0 && decide (num h 2 2 + 1 ≤ num h 4 2) &&
  decide (num h 4 2 ≤ 1024) && bits u 15 12 == 0 && u < 2 ^ 29 && decide (1 ≤ bits u 28 16) && decide (bits u 28 16 ≤ 4096) &&
  decide (bits u 11 0 + bits u 28 16 ≤ 4096) && decide (1 ≤ num h 0xC 4) && decide (num h 0xC 4 ≤ 8) &&
  (slice h 0x20 32).all (· == 0)

/-- Result lines of two commands do not overlap. -/
def resApart (a b : PlotCmd) : Bool :=
  resLines a == 0 || resLines b == 0 || decide (a.resLine + resLines a ≤ b.resLine) || decide (b.resLine + resLines b ≤ a.resLine)

/-- The slabs of a column or a result area, stack-local: none where it is not in the stack at a multiple of 16 MiB, or leaves
it (R430, R440). -/
def slabs (s : State) (n q addr w : Nat) : Option (List Nat) :=
  match resolve s addr with
  | none => none
  | some (k, l) =>
    if k != n || l % 2 ^ 24 != 0 || 96 * 2 ^ 30 < l + q * w * 2 ^ 24 then none
    else some ((List.range (q * w)).map fun i => l + i * 2 ^ 24)

/-- The device ranges that a table's units use of slabs lie in windows with a permission; the first that does not. -/
def slabBounds (s : State) (j : Job) (n : Nat) (q : PlotSeq) (perm : Window → Bool) (ls : List Nat) : Option Nat :=
  (ls.map fun l => unresolve s n (l + q.unitBase * 4096)).find? fun a => !inWindow j perm a (q.unitCount * 4096)

/-- Why a sequence does not decode (R440). -/
inductive PlotBad where
  | stack
  | bounds (addr : Nat)
  | reject (cmd : Option Nat)
  | mem (f : MemFail)
  deriving DecidableEq, Repr

/-- The first bound that a decoded sequence breaks: columns in PLOT windows, results and UPDATE columns in windows with both
WRITE and PLOT. -/
def boundsFault (s : State) (j : Job) (n : Nat) (q : PlotSeq) (resAddr : Nat) : Option Nat :=
  let cols := (plotCmds q).flatMap fun c => (cmdColumns c).map fun e => (e, c.op == 6)
  let one (e : (Nat × Nat) × Bool) : Option Nat :=
    slabBounds s j n q (fun w => w.plot && (!e.2 || w.write)) ((slabs s n q.rCode e.1.1 e.1.2).getD [])
  match cols.findSome? one with
  | some a => some a
  | none => slabBounds s j n q (fun w => w.plot && w.write) ((slabs s n 1 resAddr 1).getD [])

/-- Decodes a sequence whose lines have been read: the checks of R440 from the third on. -/
def decodeLines (s : State) (n : Nat) (j : Job) (src : PlotFrom) (len : Option Nat) (b : Bytes) : Except PlotBad PlotSeq :=
  let q : PlotSeq := { serial := (s.stack n).serial + 1, job := j.id, src, lines := b, nCmd := num b 2 2,
                       unitBase := bits (num b 8 4) 11 0, unitCount := bits (num b 8 4) 28 16, rCode := num b 0xC 4 % 16,
                       rowBase := num b 0x10 4, tag := num b 0x14 4,
                       result := ((resolve s (num b 0x18 8)).map (·.2)).getD 0 }
  if !headOk b || len.any (· != 64 * num b 4 2) then .error (.reject none)
  else match (plotCmds q).findIdx? fun c => !cmdOk (num b 4 2) c with
    | some k => .error (.reject (some k))
    | none =>
      if !allPairs resApart (plotCmds q) then .error (.reject none)
      else match (plotCmds q).findIdx? fun c => (cmdColumns c).any fun e => (slabs s n q.rCode e.1 e.2).isNone with
        | some k => .error (.reject (some k))
        | none =>
          if (slabs s n 1 (num b 0x18 8) 1).isNone || (plotUnitsOf q).any (s.stackPlan n).badUnits.contains then .error (.reject none)
          else match boundsFault s j n q (num b 0x18 8) with
            | some a => .error (.bounds a)
            | none => .ok q

/-- Decodes a sequence (R440): the stack, the place of the sequence, then its lines. `inside a k` says whether `k` bytes at `a`
lie where the sequence may lie; `len` is the descriptor's SEQ_LEN. -/
def decodeSeq (s : State) (n : Nat) (j : Job) (src : PlotFrom) (addr : Nat) (len : Option Nat) (inside : Nat → Bool)
    (acc : Accessor) : Except PlotBad PlotSeq × State :=
  if n < 8 || 11 < n || (s.stackPlan n).fenced then (.error .stack, s)
  else if !inside (len.getD 64) then (.error (.bounds addr), s)
  else match readMem s addr 64 acc with
    | (.error f, s) => (.error (.mem f), s)
    | (.ok h, s) =>
      let k := 64 * num h 4 2
      if len.isNone && !inside k then (.error (.bounds addr), s)
      else if !headOk h || len.any (· != k) then (.error (.reject none), s)
      else match readMem s addr k acc with
        | (.error f, s) => (.error (.mem f), s)
        | (.ok b, s) => (decodeLines s n j src len b, s)

/-- The class queue of a job on a stack. -/
def plotQueue (s : State) (n : Nat) (inter : Bool) : List PlotSeq := if inter then (s.stack n).interQ else (s.stack n).bulkQ

/-- Queues a decoded sequence (R443). -/
def queueSeq (s : State) (n : Nat) (inter : Bool) (q : PlotSeq) : State :=
  s.updStack n fun x =>
    if inter then { x with serial := q.serial, interQ := x.interQ ++ [q] } else { x with serial := q.serial, bulkQ := x.bulkQ ++ [q] }

/-! ### PLOT (R135 to R137) -/

/-- PLOT fields. -/
def plotAddr (b : Bytes) : Nat := num b 0x20 8
/-- SEQ_LEN. -/
def plotLen (b : Bytes) : Nat := num b 0x28 4
/-- STACK. -/
def plotStack (b : Bytes) : Nat := num b 0x2C 1 % 16

/-- The checks of a PLOT before its sequence is decoded. -/
def plotStatus (s : State) (d : Desc) : Option Nat :=
  let b := d.raw
  if !headerOk b || plotAddr b % 64 != 0 || 16 ≤ num b 0x2C 4 || !(b.drop 0x30).all (· == 0) then some 0x11
  else match jobStatus s d false with
    | some x => some x
    | none => cairnStatus s d

/-- A PLOT may begin: its conditions hold and its class queue has room (R116, R443). -/
def plotMayBegin (s : State) (d : Desc) : Bool :=
  mayBegin s d && decide ((plotQueue s (plotStack d.raw) (interDesc s d)).length < 32)

/-- A PLOT begins: its sequence is decoded and queued, or the descriptor completes (R136, R440). -/
def beginPlot (s : State) (d : Desc) : State :=
  match s.job? (dJob d.raw) with
  | none => complete s d 0x12 0
  | some j =>
    let n := plotStack d.raw
    let acc : Accessor := { job := j.id, src := srcDesc d.ring (d.count % ringSize (s.ring d.ring)) }
    let a := plotAddr d.raw
    match decodeSeq s n j (.desc d.ring d.count) a (some (plotLen d.raw)) (inWindow j (·.read) a) acc with
    | (.ok q, s) => updDesc (queueSeq s n j.interactive q) d fun x => { x with phase := .begun }
    | (.error .stack, s) => complete s d 0x11 0
    | (.error (.bounds _), s) => complete s d 0x13 0
    | (.error (.reject _), s) => complete s d 0x50 0
    | (.error (.mem f), s) => complete s d f 0

/-- PLOT (R135): checks the descriptor, and begins it if it may. -/
def execPlot (ring : Nat) (ph : List Phys) (s : State) : Host.Outcome State Fault Refusal :=
  let s := injectAll s ph
  match unbegun s ring with
  | none => .next s
  | some d =>
    if dType d.raw != 3 || d.phase ≠ .fetched then .next s
    else if s.err.fatal then .next (fatalEnd s d)
    else match plotStatus s d with
      | some st => .next (complete s d st 0)
      | none =>
        let s := scanWait s d
        if plotMayBegin s d then .next (beginPlot s d)
        else .next (updDesc s d fun x => { x with phase := .waiting, waitFrom := some s.clk.cycles })

/-- DESCRIPTOR_BEGIN (R116): the waiting descriptor of a ring begins when its conditions hold. A job begins at its own tick. -/
def execDescriptorBegin (ring : Nat) (src : HostData) (ph : List Phys) (s : State) : Host.Outcome State Fault Refusal :=
  let s := injectAll s ph
  match unbegun s ring with
  | none => .next s
  | some d =>
    let s := scanWait s d
    if d.phase ≠ .waiting || !mayBegin s d then .next s
    else match dType d.raw with
      | 2 => .next (dispatch s)
      | 3 => .next (if plotMayBegin s d then beginPlot s d else s)
      | 4 => .next (beginTable s d src)
      | _ => .next s

/-! ### PL.ISSUE (R441) -/

/-- The instruction that a cell would issue next. -/
def nextIns (s : State) (c : Nat) : Option Ins := ((s.cell c).seq.stream[(s.cell c).seq.index]?).map readIns

/-- PL.ISSUE waits while its class queue is full. -/
def plotHeld (s : State) (c : Nat) : Bool :=
  match nextIns s c, issuingJob s c with
  | some i, some j => i.op == 0x80 && predOf s c i.pred != i.pneg && decide (32 ≤ (plotQueue s (bits i.opd 3 0) j.interactive).length)
  | _, _ => false

/-- The error of a PL.ISSUE whose sequence does not decode: PLOT_SEQ_REJECT or PLOT_BOUNDS. The reason code, and the command
index of a fault of no command, are not given: free values (log entry 2). -/
def plotReject (s : State) (n : Nat) (who : Issuer) (e : PlotBad) : State :=
  let ev (s : State) (code : Nat) (items : List Nat) : State :=
    raise s { code, sev := 2, level := 3, unit := chipUnit 1 n, job := who.job, det := who.words ++ items, instr := true }
  match e with
  | .bounds a => ev s 0x4015 (n :: item64 a)
  | .mem _ => s
  | .reject (some k) => let (r, s) := s.fresh; ev s 0x4014 [n, k, r.toNat]
  | _ => let (k, s) := s.fresh; let (r, s) := s.fresh; ev s 0x4014 [n, k.toNat, r.toNat]

/-- PL.ISSUE (R441). -/
def execPlIssue (c : Nat) (ph : List Phys) (s : State) : Host.Outcome State Fault Refusal :=
  if plotHeld s c then .next (injectAll s ph)
  else issue 0x80 c ph s fun x s =>
    let n := bits x.i.opd 3 0
    let a := devAddr x x.oa
    let sig := if bit x.i.opd 4 then some (absCairn x.j (bits x.i.opd 16 5)) else none
    let inside (k : Nat) : Bool := match x.j.image.segs[x.oa.seg]? with
      | some g => !g.code && decide (devOffset x.bias x.oa + k ≤ g.len)
      | none => false
    match decodeSeq s n x.j (.cell c sig x.j.sheet x.who.index) a none inside x.acc with
    | (.ok q, s) => queueSeq s n x.j.interactive q
    | (.error e, s) => plotReject s n x.who e

/-! ### The work of a unit (R435 to R439) -/

/-- Stack-local address of byte `i` of a unit's part of a column (R429). -/
def unitByte (base u i : Nat) : Nat := base + i / 4096 * 2 ^ 24 + u * 4096 + i % 4096

/-- Row `l` of a `w`-byte column in a unit. -/
def rowBytes (d : Ram) (base u w l : Nat) : Bytes := (upto (l * w) w).map fun i => Ram.get d (unitByte base u i)

/-- The blocks of a unit's part of a column. -/
def unitBlocks (base u slabsN : Nat) : List Nat := (List.range slabsN).map fun k => (unitByte base u (k * 4096)) / 4096

/-- The value of a scalar element of a KIND (R434). -/
def scalarVal (kind v : Nat) : Val :=
  match kind with
  | 8 => decodeFloat 2 v
  | 9 => decodeFloat 1 v
  | 10 => decodeFloat 0 v
  | _ =>
    let w := 8 * scalarWidth kind
    if kind % 2 == 1 then Val.ofInt (signed w v) else Val.ofInt ((v % 2 ^ w : Nat) : Int)

/-- The function of a PRED on an element (R435). -/
def predFn (c : PlotCmd) (oper : Bytes) (v : Nat) : Bool :=
  let x := scalarVal c.kind v
  let a := scalarVal c.kind c.litA
  match c.func with
  | 4 => compareVal 3 x a && x.lt (scalarVal c.kind c.litB)
  | 5 => bit (num oper (v / 8) 1) (v % 8)
  | 6 => (List.range c.litA).any fun k => x.eqv (scalarVal c.kind (num oper (8 * k) 8))
  | f => compareVal f x a

/-- The key of a vector row (R436). -/
def distKey (c : PlotCmd) (query row norm : Bytes) : Nat :=
  let w := fmtWidth c.kind
  let n := c.width * 8 / w
  let el (b : Bytes) (k : Nat) : Val := decodeElem c.kind (elemAt b w k)
  let dot := Val.sum ((List.range n).map fun k => (el query k).mul (el row k))
  let int := !isFloat c.kind
  let key (v : Val) : Nat := if int then (v.toInt % 2 ^ 32).toNat else toF32 v
  match c.func with
  | 0 => key dot.neg
  | 1 => key (Val.sum ((List.range n).map fun k => let d := (el query k).add (el row k).neg; d.mul d))
  | _ =>
    let qx := ofF32 (toF32 ((ofF32 (c.litA % 2 ^ 32)).mul (ofF32 (num norm 0 4))))
    let quot := ofF32 (divVal 0 false none (ofF32 (toF32 dot)) qx).1
    toF32 ((Val.ofInt 1).add quot.neg)

/-- The stack-local base of a column. -/
def columnBase (s : State) (a : Nat) : Nat := ((resolve s a).map (·.2)).getD 0

/-- A block that a unit reads for a command: the column, its bytes per row, whether it is the column that the command works on, and the
block's place in it. -/
structure PlotStep where
  col : Nat
  w : Nat
  main : Bool
  k : Nat
  deriving DecidableEq, Repr

/-- Step `i` of a command: the blocks of the norm column come first, then those of the column itself. -/
def cmdStep (q : PlotSeq) (c : PlotCmd) (i : Nat) : Option PlotStep :=
  let main (col w i : Nat) : Option PlotStep := if i < q.rCode * w then some ⟨col, w, true, i⟩ else none
  match cmdColumns c with
  | [(col, w)] => main col w i
  | [(col, w), (aux, v)] => if i < q.rCode * v then some ⟨aux, v, false, i⟩ else main col w (i - q.rCode * v)
  | _ => none

/-- The PL.ISSUE that a sequence comes from, if a cell queued it (R624). -/
def seqIssuer (s : State) (q : PlotSeq) : Option Issuer :=
  match q.src with
  | .cell c _ sheet index => some ⟨c, ((s.job? q.job).map fun j => vcellOf s j c).getD 0, 0x80, sheet, index, q.job⟩
  | .desc _ _ => none

/-- Raises an error of a sequence's units: an instruction's access for a PL.ISSUE, for a PLOT none (R449, R624). -/
def raisePlot (s : State) (n : Nat) (q : PlotSeq) (code sev : Nat) (items : List Nat) (hist : Bool := false) (chain : Bool := false) :
    State :=
  let who := seqIssuer s q
  raise s { code, sev, level := 3, unit := chipUnit 1 n, job := q.job, det := (who.map (·.words)).getD [] ++ items, hist, chain,
            instr := who.isSome }

/-- A unit decodes code words that it reads, each with its correction or error (R408, R438, R449). -/
def scanWords (s : State) (n : Nat) (q : PlotSeq) (x : UnitCtx) (f : Nat → Bool) : UnitCtx × State :=
  (skeep f (s.stack n).bad).foldl (fun (r : UnitCtx × State) e =>
    let (x, s) := r
    let items := [n, x.unit] ++ item64 (unresolve s n (addrOfWord e.1))
    if popcount 36 e.2 == 1 then ({ x with corrected := x.corrected + 1 }, correctMem (raisePlot s n q 0x4010 0 items) n e.1)
    else if x.uncorr.contains e.1 then r
    else ({ x with uncorr := x.uncorr ++ [e.1] }, uncorrMem (raisePlot s n q 0x4011 1 (items ++ [q.tag])) n e.1)) (x, s)

/-- A unit reads `k` words of block `b` from word `x.word` on. -/
def readSome (s : State) (n : Nat) (q : PlotSeq) (x : UnitCtx) (b k : Nat) : UnitCtx × State :=
  let lo := b * 128 + x.word
  let (x, s) := scanWords s n q x fun w => decide (lo ≤ w) && decide (w < lo + k)
  ({ x with word := x.word + k,
            buf := Ram.replace x.buf (32 * x.word) (32 * k) (Ram.extract (s.stack n).data (32 * lo) (32 * k)) }, s)

/-- A block's check word against the block as a unit has read or made it, held XOR right; 0 where it passes (R409). -/
def checkAgainst (x : StackSt) (b : Nat) (img : Ram) : Nat :=
  let now := Ram.extract x.data (b * 4096) 4096
  let held : Nat := sget 0 x.checks b
  if now = img then held else held ^^^ crc32c (Ram.read now 0 4096) ^^^ crc32c (Ram.read img 0 4096)

/-- A unit that has read a block verifies its check word (R409, R438, R449). -/
def checkBlock (s : State) (n : Nat) (q : PlotSeq) (x : UnitCtx) (b : Nat) : UnitCtx × State :=
  let (x, s) := scanWords s n q x (· == checkWord b)
  if checkAgainst (s.stack n) b x.buf == 0 || x.badBlocks.contains b then (x, s)
  else ({ x with badBlocks := x.badBlocks ++ [b] },
    markPair (raisePlot s n q 0x4012 1 ([n, x.unit] ++ item64 (unresolve s n (b * 4096)) ++ [q.tag])) n (pairOf b) 2)

/-- A row is unreadable: a word it covers is uncorrectable, or a block of it fails its check word (R438). -/
def rowLost (x : UnitCtx) (base w l : Nat) : Bool :=
  !(x.uncorr.isEmpty && x.badBlocks.isEmpty) && (upto (l * w) w).any fun i =>
    let a := unitByte base x.unit i
    x.uncorr.contains (a / 32) || x.uncorr.contains (checkWord (a / 4096)) || x.badBlocks.contains (a / 4096)

/-- A command on the rows `lo` to `hi - 1` of a unit, which it has now read whole (R435 to R438). -/
def workRows (s : State) (n : Nat) (q : PlotSeq) (c : PlotCmd) (x : UnitCtx) (lo hi : Nat) : UnitCtx :=
  let d := (s.stack n).data
  let base := columnBase s c.col
  let w := scalarWidth c.kind
  let val (l : Nat) : Nat := leNat (rowBytes d base x.unit w l)
  let oper := slice q.lines (64 * c.operLine) (64 * c.operLines)
  let now := x.mask.filter fun l => decide (lo ≤ l) && decide (l < hi)
  match c.op with
  | 1 =>
    let hit (l : Nat) : Bool := predFn c oper (val l)
    let rows := (upto lo (hi - lo)).filter fun l => !x.excluded.contains l
    let new := match c.maskop with
      | 0 => rows.filter hit
      | 1 => now.filter hit
      | 2 => rows.filter fun l => now.contains l || hit l
      | _ => now.filter fun l => !hit l
    { x with mask := (x.mask.filter fun l => decide (l < lo)) ++ new ++ x.mask.filter fun l => decide (hi ≤ l) }
  | 2 =>
    let key (l : Nat) : Nat := distKey c (oper.take c.width) (rowBytes d base x.unit c.width l)
      (if c.func == 2 then rowBytes d (columnBase s c.aux) x.unit 4 l else [])
    let f := if isFloat c.kind || c.func == 2 then 0 else 9
    { x with top := (sortPairs f false (x.top ++ now.map fun l => (key l, l))).take c.k }
  | 4 => { x with sum := (now.map fun l => scalarVal c.kind (val l)).foldl (fun a v => some (a.elim v (·.add v))) x.sum }
  | 6 => { x with writes := now.map fun l => (unitByte base x.unit (l * w), leBytes w c.litA) }
  | _ => x

/-- A unit has read a block: the rows that end in it are readable or cleared, and the command works on them (R438). -/
def readStep (s : State) (n : Nat) (q : PlotSeq) (c : PlotCmd) (x : UnitCtx) (p : PlotStep) : UnitCtx × State :=
  let base := columnBase s p.col
  let (x, s) := checkBlock s n q x (unitByte base x.unit (p.k * 4096) / 4096)
  let lo := p.k * 4096 / p.w
  let hi := (p.k + 1) * 4096 / p.w
  let lost := (upto lo (hi - lo)).filter (rowLost x base p.w)
  let x := { x with mask := x.mask.filter fun l => !lost.contains l
                    excluded := x.excluded ++ lost.filter fun l => !x.excluded.contains l }
  let x := if p.main then workRows s n q c x lo hi else x
  (if x.writes.isEmpty then { x with step := x.step + 1, buf := [] } else x, s)

/-- The block as a unit holds it with its UPDATE's writes. -/
def blockImage (x : UnitCtx) (b : Nat) : Ram := x.writes.foldl (fun d e => Ram.write d (e.1 - b * 4096) e.2) x.buf

/-- Code words that the writes change, ascending. -/
def writtenWords (ws : List (Nat × Bytes)) : List Nat := (ws.map fun e => e.1 / 32).dedup

/-- A unit writes code words of a block, whole (R437). -/
def writeSome (s : State) (n : Nat) (x : UnitCtx) (b : Nat) (ws : List Nat) : State :=
  let img := blockImage x b
  s.updStack n fun y => ws.foldl (fun y w =>
    { y with data := Ram.replace y.data (32 * w) 32 (Ram.extract img (32 * w - b * 4096) 32), bad := sdel y.bad w }) y

/-- A unit writes the check word of a block that it has updated: that of the block as it made it, so a block that another writer has
changed since it was read fails its check (R437, R448). -/
def writeCheck (s : State) (n : Nat) (x : UnitCtx) (b : Nat) : State :=
  s.updStack n fun y =>
    let z := { y with checks := sdel y.checks b, bad := sdel y.bad (checkWord b) }
    { z with checks := sset 0 z.checks b (checkAgainst z b (blockImage x b)) }

/-- The global number of a unit's row. -/
def globalRow (q : PlotSeq) (u l : Nat) : Nat := (q.rowBase + (u - q.unitBase) * unitRows q + l) % 2 ^ 32

/-- A command of a unit ends: the lines it leaves in the result (R433, R436, R437). -/
def endCmd (q : PlotSeq) (c : PlotCmd) (x : UnitCtx) : UnitCtx :=
  let count := leBytes 4 x.mask.length
  let (line, over_) : Bytes × Bool := match c.op with
    | 2 => (leBytes 64 x.top.length ++ pairBytes (x.top.map fun p => (p.1, globalRow q x.unit p.2)), false)
    | 3 => (count, false)
    | 4 =>
      let sum := x.sum.getD .zero
      ((if c.kind ≤ 5 then leBytes 8 (sum.toInt % 2 ^ 64).toNat else leBytes 4 (toF32 sum) ++ leBytes 4 0) ++ count, false)
    | 5 =>
      let out := x.mask.take (16 * (c.k - 1))
      let more := decide (out.length < x.mask.length)
      (count ++ leBytes 4 out.length ++ leBytes 56 (b2n more) ++ out.flatMap fun l => leBytes 4 (globalRow q x.unit l), more)
    | _ => ([], false)
  { x with cmd := x.cmd + 1, step := 0, word := 0, buf := [], top := [], sum := none, overflow := x.overflow || over_
           lines := if line.isEmpty then x.lines else x.lines ++ [(c.resLine, line)] }

/-- A unit goes on with its work until `left` code words are read or written (R445): what is left of the budget, its context, the
state. `fuel` bounds the blocks. -/
def runUnit (n : Nat) (q : PlotSeq) : Nat → Nat → UnitCtx → State → Nat × UnitCtx × State
  | 0, left, x, s => (left, x, s)
  | fuel + 1, left, x, s =>
    match (plotCmds q)[x.cmd]? with
    | none => (left, x, s)
    | some c => match cmdStep q c x.step with
      | none => runUnit n q fuel left (endCmd q c x) s
      | some p =>
        let b := unitByte (columnBase s p.col) x.unit (p.k * 4096) / 4096
        if x.writes.isEmpty then
          let k := min left (128 - x.word)
          let (x, s) := readSome s n q x b k
          if x.word < 128 then (0, x, s)
          else
            let (y, s) := readStep s n q c { x with word := 0 } p
            runUnit n q fuel (left - k) y s
        else
          let ws := (writtenWords x.writes).drop x.word
          let k := min left ws.length
          let s := writeSome s n x b (ws.take k)
          if k < ws.length then (0, { x with word := x.word + k }, s)
          else runUnit n q fuel (left - k) { x with writes := [], word := 0, buf := [], step := x.step + 1 } (writeCheck s n x b)

/-- The units of the running group (R445). -/
def groupUnits (q : PlotSeq) : List Nat := ((plotUnitsOf q).drop (1024 * q.group)).take 1024

/-- The contexts of a class (R426). -/
def classCtx (x : StackSt) (inter : Bool) : List UnitCtx := if inter then x.interCtx else x.bulkCtx

/-- Sets the contexts of a class. -/
def setCtx (s : State) (n : Nat) (inter : Bool) (xs : List UnitCtx) : State :=
  s.updStack n fun x => if inter then { x with interCtx := xs } else { x with bulkCtx := xs }

/-- The good units of a group go on with at most `budget` words each: the words of the busiest (R445). -/
def runGroup (s : State) (n : Nat) (inter : Bool) (q : PlotSeq) (budget : Nat) : Nat × State :=
  let r := (classCtx (s.stack n) inter).foldl (fun (r : Nat × List UnitCtx × State) x =>
    if (r.2.2.stackPlan n).badUnits.contains x.unit then (r.1, r.2.1 ++ [x], r.2.2)
    else
      let (left, x, s) := runUnit n q 64 budget x r.2.2
      (max r.1 (budget - left), r.2.1 ++ [x], s)) (0, [], s)
  (r.1, setCtx r.2.2 n inter r.2.1)

/-- The units of the running group start: every row is in the mask (R435), and commands that read nothing are over at once. -/
def startGroup (s : State) (n : Nat) (inter : Bool) (q : PlotSeq) : State :=
  (runGroup (setCtx s n inter ((groupUnits q).map fun u => { unit := u, mask := List.range (unitRows q) })) n inter q 0).2

/-- Units of the group with work left. -/
def busyUnits (s : State) (n : Nat) (inter : Bool) (q : PlotSeq) : List Nat :=
  ((classCtx (s.stack n) inter).filter fun x => decide (x.cmd < q.nCmd) && !(s.stackPlan n).badUnits.contains x.unit).map (·.unit)

/-- Sends a command to each pseudo-channel that holds one of some units, with the units' mask (R402, R404). -/
def toUnits (s : State) (n : Nat) (us : List Nat) (f : Nat → Nat → StackCmd) : State :=
  ((us.map pseudoChannel).dedup).foldl (fun s pc =>
    s.emit (.stack n (f pc ((us.filter fun u => pseudoChannel u == pc).foldl (fun m u => m + 2 ^ (u / 64)) 0)))) s

/-- The result block of a unit (R439). -/
def resultBlock (q : PlotSeq) (u : Nat) (fault : Bool) (r : UnitCtx) : Bytes :=
  let flags := if fault then 2 ^ 19 else
    2 ^ 16 + b2n (!r.uncorr.isEmpty) * 2 ^ 17 + b2n (!r.badBlocks.isEmpty) * 2 ^ 18 + b2n r.overflow * 2 ^ 20
  let head := leBytes 4 q.tag ++ leBytes 4 (u + flags) ++
    (if fault then leBytes 8 0 ++ leBytes 4 0xFFFFFFFF
     else leBytes 4 r.excluded.length ++ leBytes 2 (min 65535 r.corrected) ++ leBytes 2 (min 65535 r.uncorr.length) ++
       leBytes 4 (r.badBlocks.headD 0xFFFFFFFF))
  let put (b d : Bytes) (k : Nat) : Bytes := b.take (64 * k) ++ d ++ b.drop (64 * k + d.length)
  if fault then slice head 0 4096
  else r.lines.foldl (fun b e => put b e.2 e.1) (slice head 0 4096)

/-- Writes a unit's result block: whole, its words rewritten, its check fresh. -/
def writeResult (s : State) (n : Nat) (q : PlotSeq) (u : Nat) (d : Bytes) : State :=
  let a := q.result + u * 4096
  s.updStack n fun x => { x with data := Ram.write x.data a d
                                 bad := skeep (fun k => blockOfWord k != a / 4096) x.bad
                                 checks := sdel x.checks (a / 4096) }

/-- The result stroke of a unit: a faulted unit writes no results (R439, R449). -/
def finishUnit (n : Nat) (q : PlotSeq) (r : List Nat × Nat × Bool × State) (x : UnitCtx) : List Nat × Nat × Bool × State :=
  let fault := (r.2.2.2.stackPlan n).badUnits.contains x.unit
  let s := writeResult r.2.2.2 n q x.unit (resultBlock q x.unit fault x)
  if fault then (r.1 ++ [x.unit], r.2.1 + x.uncorr.length, r.2.2.1, s)
  else
    let bad := !x.uncorr.isEmpty || !x.badBlocks.isEmpty
    (if bad then r.1 ++ [x.unit] else r.1, r.2.1 + x.uncorr.length, r.2.2.1 || !x.badBlocks.isEmpty, s)

/-! ### Strokes (R443 to R447) -/

/-- Changes a queued sequence of a stack. -/
def updPlot (s : State) (n : Nat) (q : PlotSeq) (f : PlotSeq → PlotSeq) : State :=
  let g (x : PlotSeq) : PlotSeq := if x.serial == q.serial then f x else x
  s.updStack n fun x => { x with bulkQ := x.bulkQ.map g, interQ := x.interQ.map g }

/-- Takes a sequence off its queue. -/
def dropPlot (s : State) (n : Nat) (q : PlotSeq) : State :=
  s.updStack n fun x => { x with bulkQ := x.bulkQ.filter fun y => y.serial != q.serial
                                 interQ := x.interQ.filter fun y => y.serial != q.serial }

/-- The sequence has run every group. -/
def seqDone (q : PlotSeq) : Bool := decide (cdiv q.unitCount 1024 ≤ q.group)

/-- The sequence that has the stroke (R443): an interactive one with work, but a waiting bulk one after 8 in a row. -/
def strokeTurn (x : StackSt) : Option (Bool × PlotSeq) :=
  let ready (l : List PlotSeq) : Option PlotSeq := l.head?.filter fun q => q.started && !seqDone q
  match ready x.interQ, ready x.bulkQ with
  | some i, some b => if 8 ≤ x.interRun then some (false, b) else some (true, i)
  | some i, none => some (true, i)
  | none, some b => some (false, b)
  | none, none => none

/-- DETAIL of a PLOT's completion (R137): the strokes run, and the uncorrectable words that its units have reported. -/
def plotDetail (s : State) (n : Nat) (inter : Bool) (q : PlotSeq) : Nat :=
  let open_ := if q.started then ((classCtx (s.stack n) inter).map (·.uncorr.length)).foldl (· + ·) 0 else 0
  q.strokes % 2 ^ 32 + (q.uncorr + open_) * 2 ^ 32

/-- A sequence leaves its queue before its end, its context is cleared, and its descriptor completes with a status: JOB_ENDED for an
ended job (R145). -/
def purgePlot (n : Nat) (status : Nat) (s : State) (q : PlotSeq) : State :=
  let inter := (s.stack n).interQ.any (·.serial == q.serial)
  let detail := plotDetail s n inter q
  let s := if q.started then setCtx (toUnits s n (plotUnitsOf q) fun pc _ => .pClear pc inter) n inter [] else s
  let s := dropPlot s n q
  match q.src with
  | .desc ring count => match s.hif.descs.find? fun d => d.ring == ring && d.count == count with
    | some d => complete s d status detail
    | none => s
  | .cell _ _ _ _ => s

/-- Sequences of ended jobs leave the queues, but for the one whose stroke is under way: that runs to its end first (R145). -/
def purgePlots (s : State) (n : Nat) (under : Bool) : State :=
  let turn := if under then (strokeTurn (s.stack n)).map (·.2.serial) else none
  (((s.stack n).bulkQ ++ (s.stack n).interQ).filter fun q => q.cancel && turn != some q.serial).foldl (purgePlot n 0x40) s

/-- A sequence on a stack that has been fenced meets unbacked addresses: MEM_UNBACKED, and a PLOT ends UNCORRECTABLE, as a COPY does
(R144, R407, R425; DEDUCED, log entry 49). -/
def loseSeq (n : Nat) (s : State) (q : PlotSeq) : State :=
  let a := (((plotCmds q).flatMap cmdColumns).map (·.1)).headD (unresolve s n (q.result + q.unitBase * 4096))
  let acc : Accessor := match q.src with
    | .desc ring count => descAccess s ring count q.job
    | .cell c _ _ _ => { who := seqIssuer s q, cell := some c, job := q.job, src := srcCell c }
  purgePlot n (if q.cancel then 0x40 else 0x31) (if q.cancel then s else (unbacked s a acc).2) q

/-- The sequences that a stack's controller has no stack for leave their queues. -/
def loseSeqs (s : State) (n : Nat) : State :=
  if (s.stackPlan n).fenced then ((s.stack n).bulkQ ++ (s.stack n).interQ).foldl (loseSeq n) s else s

/-- Blocks of the columns that a sequence reads, of its UPDATE columns, and of its results. -/
def seqBlocks (s : State) (q : PlotSeq) (updates : Bool) : List Nat :=
  let cols := (plotCmds q).flatMap fun c => if updates && c.op != 6 then [] else cmdColumns c
  (plotUnitsOf q).flatMap fun u =>
    cols.flatMap fun e => unitBlocks (((resolve s e.1).map (·.2)).getD 0) u (q.rCode * e.2)

/-- The result blocks of a sequence. -/
def resultBlocks (q : PlotSeq) : List Nat := (plotUnitsOf q).map fun u => (q.result + u * 4096) / 4096

/-- Drops the cached frames of blocks (R442, R444). -/
def invalidate (s : State) (n : Nat) (bs : List Nat) : State :=
  s.updStack n fun x => { x with frames := x.frames.filter fun f => !bs.contains f.block }

/-- Writes back the dirty cached blocks among blocks (R444). -/
def flushBlocks (s : State) (n : Nat) (bs : List Nat) : State :=
  let s := ((s.stack n).frames.filter fun f => bs.contains f.block).foldl (fun s f => writeBack s n f) s
  s.updStack n fun x => { x with frames := x.frames.map fun f => if bs.contains f.block then { f with dirty := false } else f }

/-- A stack controller in reset, or with a record that waits, starts no stroke (R629, R731). -/
def engineHeld (s : State) (n : Nat) : Bool := unitHeld s 1 n || s.inReset 1 n

/-- PLOT_SEQUENCE_START (R444): the head of a class queue is loaded into the units; interactive before bulk. -/
def execPlotSequenceStart (n : Nat) (s : State) : Host.Outcome State Fault Refusal :=
  let s := purgePlots (loseSeqs s n) n true
  let x := s.stack n
  match ([x.interQ.head?, x.bulkQ.head?].filterMap id).find? fun q => !q.started && !q.cancel && !engineHeld s n with
  | none => .next s
  | some q =>
    let inter := x.interQ.any (·.serial == q.serial)
    let s := toUnits s n (plotUnitsOf q) fun pc _ => .pClear pc inter
    let s := toUnits s n (plotUnitsOf q) fun pc _ => .pLoad pc inter (q.lines.drop 64)
    let s := flushBlocks s n (seqBlocks s q false)
    let s := invalidate s n (resultBlocks q ++ seqBlocks s q true)
    .next (startGroup (updPlot s n q fun y => { y with started := true }) n inter q)

/-- A plot unit whose copies disagree is fenced (R449). -/
def fenceUnit (s : State) (n u : Nat) (q : PlotSeq) : State :=
  if (s.stackPlan n).badUnits.contains u then s
  else
    let gen := nextGeneration s
    let s := (s.updStackPlan n fun p => { p with badUnits := p.badUnits ++ [u] }).emit (.stack n (.pFence (pseudoChannel u) (u / 64)))
    markPair (raisePlot (surveyChange s) n q 0x4013 1 [n, u, gen] true true) n u 2

/-- The failures that strike units in a stroke (R449). -/
def strikeUnits (s : State) (n : Nat) (q : PlotSeq) (ph : List Phys) : State :=
  ph.foldl (fun s p => match p with
    | .plotUnit u => if (groupUnits q).contains u then fenceUnit s n u q else s
    | _ => s) s

/-- A work stroke (R445): up to 384 words of each unit, 24 ns and 4.096 ns for each word of the busiest. -/
def workStroke (s : State) (n : Nat) (inter : Bool) (q : PlotSeq) : State :=
  let s := toUnits s n (busyUnits s n inter q) fun pc m => .pStroke pc m inter 384
  let (words, s) := runGroup s n inter q 384
  updPlot (s.untilPs (s.clk.ps + 24000 + 4096 * words)) n q fun y => { y with strokes := y.strokes + 1 }

/-- The result stroke of a group (R445): its units' result blocks, 128 words each; then the next group starts. -/
def resultStroke (s : State) (n : Nat) (inter : Bool) (q : PlotSeq) : State :=
  let good := (groupUnits q).filter fun u => !(s.stackPlan n).badUnits.contains u
  let s := toUnits (s.untilPs (s.clk.ps + 24000 + 4096 * 128)) n good fun pc m => .pResult pc m inter
  let (failed, unc, chk, s) := (classCtx (s.stack n) inter).foldl (finishUnit n q) ([], 0, false, s)
  let s := updPlot s n q fun y => { y with group := y.group + 1, strokes := y.strokes + 1, uncorr := y.uncorr + unc,
                                           failed := y.failed ++ failed, checkFail := y.checkFail || chk }
  startGroup s n inter { q with group := q.group + 1 }

/-- PLOT_STROKE_END (R445, R446): the stroke under way runs and ends: a work stroke, or the result stroke of a group; then every
refresh that has fallen due in the group's banks is issued. -/
def execPlotStrokeEnd (n : Nat) (ph : List Phys) (s : State) : Host.Outcome State Fault Refusal :=
  let s := purgePlots (loseSeqs (injectAll s ph) n) n true
  match (strokeTurn (s.stack n)).filter fun _ => !engineHeld s n with
  | none => .next s
  | some (inter, q) =>
    let us := groupUnits q
    let s := (us.foldl (refreshFirst · n) s).countChip 0x307 1
    let s := s.updStack n fun x => { x with interRun := if inter then x.interRun + 1 else 0 }
    let s := strikeUnits s n q ph
    let s := if (busyUnits s n inter q).isEmpty then resultStroke s n inter q else workStroke s n inter q
    let s := us.foldl (catchUp · n) (toUnits s n us fun pc _ => .pHold pc)
    .next (purgePlots s n false)

/-- A completed PLOT's status (R449). -/
def plotEnd (q : PlotSeq) : Nat := if q.uncorr != 0 then 0x31 else if q.failed.isEmpty then 0 else 0x30

/-- The signal of a completed PL.ISSUE; false where the deferred list is full (R441, R500). -/
def plotSignal (s : State) (q : PlotSeq) : Bool × State :=
  match q.src, s.job? q.job with
  | .cell c (some k) _ _, some j => if q.failed.isEmpty then addForJob s j k 1 (srcCell c) else (true, s)
  | _, _ => (true, s)

/-- PSTAT to each pseudo-channel of a sequence: its good units return their status words, whose contents no rule gives (log entry 2). -/
def readStatus (s : State) (n : Nat) (us : List Nat) : State :=
  us.foldl (fun s u =>
    let (w, s) := s.fresh
    s.updStack n fun x => { x with unitStatus := sset 0 x.unitStatus u w }) (toUnits s n us fun pc _ => .pStat pc)

/-- PLOT_SEQUENCE_COMPLETE (R447, R449): the sequence at the head of a queue has written every result block. -/
def execPlotSequenceComplete (n : Nat) (s : State) : Host.Outcome State Fault Refusal :=
  let s := purgePlots (loseSeqs s n) n true
  match ([(s.stack n).interQ.head?, (s.stack n).bulkQ.head?].filterMap id).find? fun q => q.started && seqDone q with
  | none => .next s
  | some q =>
    let (sent, s) := plotSignal s q
    if !sent then .next s
    else
      let detail := plotDetail s n ((s.stack n).interQ.any (·.serial == q.serial)) q
      let s := dropPlot (readStatus s n (plotUnitsOf q)) n q
      let s := s.updStack n fun x => { x with doneSeqs := x.doneSeqs ++ [{ q with cancel := false }] }
      match q.src with
      | .desc ring count => match s.hif.descs.find? fun d => d.ring == ring && d.count == count with
        | none => .next s
        | some d =>
          .next (if d.ended then complete s d 0x40 detail
            else if plotEnd q == 0 then completeOk s d 0 detail else complete s d (plotEnd q) detail)
      | .cell _ _ _ _ => .next (if q.failed.isEmpty then s else raisePlot s n q 0x4016 2 [n, q.tag, q.failed.length])

/-! ### PLOT_FENCE (R141, R442) -/

/-- Every sequence of a job queued on a stack up to a serial has completed. -/
def plotClear (s : State) (n job serial : Nat) : Bool :=
  ((s.stack n).bulkQ ++ (s.stack n).interQ).all fun q => q.job != job || decide (serial < q.serial)

/-- Step 2 of PLOT_FENCE: the frames of the completed sequences' results and UPDATE columns go. -/
def plotInvalidate (s : State) (n job serial : Nat) : State :=
  let mine (q : PlotSeq) : Bool := q.job == job && decide (q.serial ≤ serial)
  let s := ((s.stack n).doneSeqs.filter mine).foldl (fun s q => invalidate s n (resultBlocks q ++ seqBlocks s q true)) s
  s.updStack n fun x => { x with doneSeqs := x.doneSeqs.filter fun q => !mine q }

/-- PL.FENCE (R442). -/
def execPlFence (c : Nat) (s : State) : Host.Outcome State Fault Refusal :=
  issue 0x81 c [] s fun x s =>
    let n := bits x.i.opd 3 0
    addFlight s c (.fence n (s.stack n).serial)

/-- PLOT_FENCE (R442): it completes, for every PL.FENCE of the job on the stack whose sequences have completed. -/
def execPlotFence (n job : Nat) (s : State) : Host.Outcome State Fault Refusal :=
  match s.job? job with
  | none => .next s
  | some j =>
    .next ((jobCells j).foldl (fun s c =>
      if (s.cell c).seq.job != job then s
      else match (s.cell c).seq.flight.findSome? fun f => match f with
        | .fence k upto => if k == n && plotClear s n job upto then some upto else none
        | _ => none with
      | none => s
      | some serial =>
        let s := plotInvalidate s n job serial
        settle (s.updSeq c fun q => { q with flight := dropFlight (fun f => decide (f = .fence n serial)) q.flight }) c) s)

/-- The checks of a FENCE of SCOPE 2: its job, and a plotting stack. -/
def fencePlotStatus (s : State) (d : Desc) : Option Nat :=
  let b := d.raw
  let body := num b 0x20 4
  if !headerOk b || dFlag b 10 || dFlag b 11 || body / 256 != 0 || body / 4 % 4 != 0 || !(b.drop 0x24).all (· == 0)
      || fenceStack b < 8 || 11 < fenceStack b then some 0x11
  else jobStatus s d false

/-- The last sequence that a FENCE of SCOPE 2 waits for. -/
def fenceSerial (d : Desc) : Nat := (d.waits.headD (0, 0)).2

/-- A FENCE of SCOPE 2 is over: the sequences of its job up to that one are complete (R141). -/
def plotOver (s : State) (d : Desc) : Bool := plotClear s (fenceStack d.raw) (dJob d.raw) (fenceSerial d)

/-- FENCE, SCOPE 2 (R141), of a ring: PLOT_FENCE of its job on stack STACK, for each that can complete. -/
def execFencePlot (ring : Nat) (ph : List Phys) (s : State) : Host.Outcome State Fault Refusal :=
  let s := injectAll s ph
  .next ((fencesOf s ring 2).foldl (runFence fencePlotStatus plotOver
    fun s d => plotInvalidate s (fenceStack d.raw) (dJob d.raw) (fenceSerial d)) s)

end Sys2Proof.Machine
end

