-- ==== Sys2Proof/Machine/Links.lean ====
section
/-! DEFINITION. Traverse links and groups: flits, the sync field, agreement, group signals, formation, ring transfers
(R515 to R550, R759). -/

namespace Sys2Proof.Machine

open Sys2Proof

/-! ### Ports -/

/-- A port in service (R517). -/
def portUp (s : State) (p : Nat) : Bool := (s.port p).up

/-- The ports of a role in service. -/
def rolePorts (s : State) (role : Nat) : List Nat := (List.range 8).filter fun p => portUp s p && (s.port p).role == role

/-- A half of the lanes is whole. -/
def wholeHalf (lanes : Nat) : Bool := bits lanes 3 0 == 15 || bits lanes 7 4 == 15

/-- WIDTH of LNK_STATUS: 0 down, 1 four lanes, 2 eight lanes. -/
def portWidth (p : Port) : Nat := if !p.up then 0 else if p.lanes % 256 == 255 then 2 else 1

/-! ### The code that the member advertises (R561, R577, R578) -/

/-- A region is awake and not fenced (R561). -/
def awake (s : State) (r : Nat) : Bool := !(s.region r).pw.gated && s.regionReason r == 0

/-- The byte of the voltage table for a region and a pace code (R559). -/
def vByte (s : State) (r code : Nat) : Nat := num s.pwr.vtable (r * 57 + code) 1

/-- The target of a region at a code, in half millivolts: 500 mV + 2.5 mV steps, plus the guard (R559, R560). -/
def targetHalf (s : State) (r code : Nat) : Nat := 950 + 5 * vByte s r code + 5 * (s.region r).pw.guard

/-- The voltage term: the highest code that the acknowledged setpoint covers in every awake region (R577). -/
def voltageCode (s : State) : Nat :=
  let ok (c : Nat) : Bool := (List.range 32).all fun r =>
    !awake s r || (vByte s r c != 255 && decide (targetHalf s r c ≤ 2 * s.pwr.setpoint))
  ((List.range (s.grade.paceMax + 1)).filter ok).foldl max 0

/-- The lowest of the terms of R577, and which one it is. -/
def paceTerms (s : State) : Nat × Nat :=
  ([(s.pwr.cap, 1), (voltageCode s, 2), (s.pwr.margin, 3), (s.pwr.budget, 4), (s.pwr.thermal, 5)]).foldl
    (fun b x => if x.1 < b.1 then x else b) (s.grade.paceMax, 0)

/-- The PWR or the THM block is in reset: pace holds, and the ledger grants no increase (R659). -/
def powerHeld (s : State) : Bool := s.inReset 0 1 || s.inReset 0 2

/-- The code advertised now, with its term: that of the sheet, or a lower one where a term has fallen since (R577, R578). Pace holds
while the PWR or the THM block is in reset (R659). -/
def advertisedNow (s : State) : Nat × Nat :=
  let (code, term) := paceTerms s
  if code < s.pwr.advertised && !powerHeld s then (code, term) else (s.pwr.advertised, s.pwr.limitTerm)

/-- The least code of a sheet stays advertised in it: PACE is monotone (R529). -/
def latchPace (s : State) : State :=
  { s with pwr := { s.pwr with advertised := (advertisedNow s).1, limitTerm := (advertisedNow s).2 } }

/-! ### The sync field (R525) -/

/-- LEVEL that the member sends: 15 outside the group or with a neighbour lost. -/
def sentLevel (s : State) : Nat := if !s.sht.groupActive || s.grp.neighbourLost then 15 else s.grp.level

/-- PACE of the sync field (R529): the member's own code counts in the sheet until it becomes done. -/
def sentPace (s : State) : Nat := if s.grp.level == 14 then min s.grp.pace (advertisedNow s).1 else s.grp.pace

/-- The state fields of the sync field, with FTYPE (R525, R529). -/
def syncField (s : State) (ftype event : Nat) : Nat :=
  s.sht.tick % 4 + 2 ^ 2 * sentLevel s + 2 ^ 6 * s.grp.noYield + 2 ^ 10 * s.grp.abort +
    2 ^ 14 * sentPace s + 2 ^ 20 * b2n (waitBit s) + 2 ^ 21 * ownBusy s + event + 2 ^ 61 * ftype

/-- The CRC of a flit (R518, R519): over its sequence number and bytes 0 to 247. -/
def flitCrc (seq sync body : Nat) : Nat := crc64 (leBytes 2 seq ++ leBytes 8 sync ++ leBytes 240 body)

/-- Puts a flit on the wire (R518, R519): sequence number, SYNC, BODY, CRC. -/
def emitFlit (s : State) (p ftype event seq body : Nat) : State :=
  let sync := syncField s ftype event
  (s.updPort p fun x => { x with lastSync := syncField s 0 0 }).emit (.link p ftype [seq, sync, body, flitCrc seq sync body])

/-- An event field: EKIND, GJ, HOPS, INDEX, AMOUNT. -/
def eventBits (ekind gj hops index amount : Nat) : Nat :=
  2 ^ 25 * ekind + 2 ^ 27 * gj + 2 ^ 29 * hops + 2 ^ 33 * index + 2 ^ 45 * (amount % 65536)

/-- Sends a numbered flit on a port: it is kept for replay, and counted (R519, R520, R715). -/
def sendFlit (s : State) (p ftype event : Nat) (body : Nat) : State :=
  let seq := (s.port p).txSeq
  let s := emitFlit s p ftype event seq body
  let s := s.updPort p fun x =>
    { x with txSeq := (seq + 1) % 4096, replay := (x.replay ++ [(seq, [ftype, event, body])]).drop (x.replay.length - 255) }
  s.countChip 0x309 1

/-- Sends a control flit (R523): CKIND and the fields from byte 4. -/
def sendControl (s : State) (p ckind event : Nat) (fields : Bytes) : State :=
  sendFlit s p 1 event (leNat (leBytes 4 ckind ++ fields))

/-- Sends an idle flit with the present state fields on every port in service (R522, R526). -/
def announce (s : State) : State :=
  ((List.range 8).filter (portUp s)).foldl (fun s p => emitFlit s p 0 0 (s.port p).txSeq 0) s

/-- The same on every port in service that last sent other state fields. -/
def announceNew (s : State) : State :=
  let now := syncField s 0 0
  ((List.range 8).filter fun p => portUp s p && (s.port p).lastSync != now).foldl (fun s p => emitFlit s p 0 0 (s.port p).txSeq 0) s

/-- Sends the data that waits for credits on a port (R522). -/
def pump (s : State) (p : Nat) : State :=
  let x := s.port p
  let n := min x.credits x.outQ.length
  let s := s.updPort p fun x => { x with credits := x.credits - n, outQ := x.outQ.drop n }
  (x.outQ.take n).foldl (fun s e => sendFlit s p e.1 0 e.2) s

/-- An ACK of the last accepted flit. The credits it grants are not given: a free value (log entry 2). -/
def sendAck (s : State) (p : Nat) : State :=
  let (w, s) := s.fresh
  let last := ((s.port p).rxSeq + 4095) % 4096
  sendControl (s.updPort p fun x => { x with rxSinceAck := 0 }) p 1 0 (leBytes 2 last ++ leBytes 2 w.toNat)

/-- A numbered flit is accepted (R520 to R522). -/
def acceptFlit (s : State) (p : Nat) : State :=
  let s := s.updPort p fun x => { x with rxSeq := (x.rxSeq + 1) % 4096, nakked := false, rxSinceAck := x.rxSinceAck + 1 }
  if 64 ≤ (s.port p).rxSinceAck then sendAck s p else s

/-! ### Agreement (R527 to R530, R539, R540) -/

/-- The core cycle at which the device is done for the tick: max(P, D + 64) after the opening tick (R69); none while a cell
is not done. -/
def dueCycle (s : State) : Option Nat :=
  if s.allDone then some (max (s.sht.openCycle + s.sht.period) (s.sht.lastDone.getD s.sht.openCycle + 64)) else none

/-- The level at which a neighbour counts (R527); none where it counts as not done. -/
def neighbourLevel (s : State) (role : Nat) : Option Nat :=
  match neighbourField s role with
  | none => none
  | some f =>
    if f % 4 == s.sht.tick % 4 then (if bits f 5 2 ≤ 9 then some (bits f 5 2) else none)
    else if f % 4 == (s.sht.tick + 1) % 4 then some s.grp.diam else none

/-- Twin jobs of the sheet, one that is ending among them (R540). -/
def twinJobs (s : State) : List Job := s.jobs.filter fun j => j.params.twin && (j.phase = .running)

/-- A twin job misses its twin's value for the sheet (R540). -/
def twinHeld (s : State) : Bool := (twinJobs s).any fun j => !(j.twinTheirs.any fun e => e.1 == s.sht.tick % 4)

/-- TWIN_MISMATCH, where both values of the sheet are there and differ (R540). -/
def twinCompare (s : State) (id : Nat) : State :=
  match s.job? id with
  | none => s
  | some j =>
    match j.twinMine.find? (fun e => e.1 == s.sht.tick % 4), j.twinTheirs.find? (fun e => e.1 == s.sht.tick % 4) with
    | some a, some b =>
      if a.2 == b.2 then s
      else
        let s := { s with grp := { s.grp with abort := s.grp.abort ||| 2 ^ (id % 4) } }
        raiseChip s 0x5006 2 2 ((rolePorts s 3).headD 0) id ([id] ++ item64 s.sht.tick ++ item64 a.2 ++ item64 b.2)
    | _, _ => s

/-- Sends the check value of a twin job for the sheet (R540). -/
def sendTwin (s : State) (j : Job) : State :=
  let s := match (rolePorts s 3).head? with
    | some p => sendControl s p 4 0 (leBytes 2 j.id ++ leBytes 1 (j.id % 4) ++ leBytes 1 (s.sht.tick % 4) ++ leBytes 8 j.twinSum)
    | none => s
  twinCompare (s.updJob j.id fun x => { x with twinMine := [(s.sht.tick % 4, j.twinSum)] }) j.id

/-- The group bits of jobs that hold cells here and did not yield the sheet (R529). -/
def noYieldBits (s : State) : Nat :=
  s.jobs.foldl (fun m j =>
    if grouped j && (jobCells j).any (fun c => (s.cell c).seq.job == j.id && !(s.cell c).seq.yields) then m ||| 2 ^ (j.id % 4) else m) 0

/-- The overrun of the sheet ends with its tick, if a cell was not done when the budget expired (R75; log entry 39). -/
def endOverrun (s : State) : State :=
  let expiry := s.sht.openCycle + s.sht.period
  if !s.sht.overrun && s.sht.lastDone.getD 0 ≤ expiry then s
  else
    let n := s.clk.cycles - expiry
    let s := { s with sht := { s.sht with overCount := sat32 s.sht.overCount 1, overCycles := sat48 s.sht.overCycles n, overrun := false } }
    (s.countChip 0x302 1).countChip 0x303 n

/-- The member becomes done: its own bits count for the sheet, its twins hear its values, LEVEL becomes 0 (R528, R529, R540). -/
def becomeDone (s : State) : State :=
  let s := { s with grp := { s.grp with noYield := s.grp.noYield ||| noYieldBits s, abort := s.grp.abort ||| s.grp.ownAbort,
                                        ownAbort := 0, pace := min s.grp.pace (advertisedNow s).1, level := 0, own := advertisedNow s },
                    sht := { s.sht with doneSent := some s.clk.cycles } }
  (twinJobs s).foldl sendTwin s

/-- One step of the level. -/
def raiseLevel (s : State) : State :=
  let k := s.grp.level
  if k < s.grp.diam && !(k == 0 && twinHeld s) && (groupRoles s.grp.topology).all (fun r => (neighbourLevel s r).any (k ≤ ·))
  then { s with grp := { s.grp with level := k + 1 } } else s

/-- The member becomes done where R70 lets it, and takes the levels that the rule allows (R528), but none once a neighbour is lost
(R537). New state fields leave at once (R522, R526). -/
def agree (s : State) : State :=
  if !s.sht.groupActive then s
  else
    let t := if s.grp.level == 14 && (dueCycle s).any (· ≤ s.clk.cycles) then becomeDone s else s
    announceNew (if t.grp.level == 14 || t.grp.neighbourLost then t else (List.range 9).foldl (fun s _ => raiseLevel s) t)

/-- An abort advertised by another member ends its job here (R78, R529, R758). -/
def peerAborts (s : State) (mask : Nat) : State :=
  (s.jobs.filter fun j => grouped j && bit mask (j.id % 4) && j.ending.isNone).foldl (fun s j =>
    raiseChip s 0x3103 2 0x0A 0 j.id [] false true) s

/-- A neighbour's state fields arrive (R521, R527, R529). Those of a field with LEVEL 15 count like any other's: a member that lost a
neighbour sends its ABORT so (R537). A field with a reserved LEVEL brings nothing. -/
def takeState (s : State) (p sync : Nat) : State :=
  match neighbourOf s.grp.topology s.grp.ringSize s.sht.member (s.port p).role with
  | none => s
  | some m =>
    if !portUp s p then s else
    let s := { s with grp := { s.grp with nbr := sset none s.grp.nbr m (some sync) } }
    if !s.sht.groupActive || 10 ≤ bits sync 5 2 && bits sync 5 2 < 14 then agree s
    else if sync % 4 == s.sht.tick % 4 then
      let new := bits sync 13 10
      let s := { s with grp := { s.grp with noYield := s.grp.noYield ||| bits sync 9 6, abort := s.grp.abort ||| new,
                                            pace := min s.grp.pace (bits sync 19 14) } }
      agree (peerAborts s new)
    else if sync % 4 == (s.sht.tick + 1) % 4 then
      agree { s with grp := { s.grp with heldNoYield := s.grp.heldNoYield ||| bits sync 9 6,
                                         heldAbort := s.grp.heldAbort ||| bits sync 13 10,
                                         heldPace := min s.grp.heldPace (bits sync 19 14) } }
    else agree s

/-! ### Group signals (R501, R503, R531) -/

/-- Sends a signal event on the first port of a role in service; a large amount takes two events. -/
def sendEvent (s : State) (role gj hops index amount : Nat) : State :=
  match (rolePorts s role).head? with
  | none => s
  | some p =>
    if amount < 65536 then sendControl s p 0 (eventBits 1 gj hops index amount) []
    else
      let s := sendControl s p 0 (eventBits 2 gj hops index amount) []
      sendControl s p 0 (eventBits 3 0 0 0 (amount / 65536)) []

/-- Sends a signal round the ring as an origin does (R531). -/
def ringOrigin (s : State) (gj index amount : Nat) : State :=
  let r := s.grp.ringSize
  if s.grp.topology == 1 then s
  else
    let s := if cdiv (r - 1) 2 == 0 then s else sendEvent s 1 gj (cdiv (r - 1) 2) index amount
    if (r - 1) / 2 == 0 then s else sendEvent s 2 gj ((r - 1) / 2) index amount

/-- The oldest queued group signal leaves on its ports (R503). -/
def sendQueued (s : State) : State :=
  match s.syn.groupQ with
  | [] => s
  | (job, index, amount) :: rest =>
    let s := { s with syn := { s.syn with groupQ := rest } }
    if !s.sht.groupActive then s
    else
      let s := ringOrigin s (job % 4) index amount
      if s.grp.topology == 0 then s else sendEvent s 3 (job % 4) 0 index amount

/-- The member a signal is taken to come from: the twin, or the ring member as many hops away as it has travelled. -/
def signalSource (s : State) (role hops : Nat) : Nat :=
  let m := s.sht.member
  let r := s.grp.ringSize
  let base := m / 16 * 16
  match role with
  | 2 => base + (m % 16 + 2 * r - (cdiv (r - 1) 2 + 1 - hops)) % r
  | 1 => base + (m % 16 + ((r - 1) / 2 + 1 - hops)) % r
  | _ => if s.grp.topology == 1 then 1 - m else m ^^^ 16

/-- A group signal is applied here (R500, R504, R531): every copy takes it, or the job's deferred list. -/
def applySignal (s : State) (gj index amount src : Nat) : State :=
  match s.jobs.find? fun j => j.params.group && j.id % 4 == gj && j.phase ≠ .claiming with
  | none => s
  | some j =>
    if j.params.cairnCount ≤ index then s
    else
      let n := absCairn j index
      if parked s j.id then s.updJob j.id fun x => { x with deferred := x.deferred ++ [⟨n, amount, src⟩] }
      else sendAddition s n amount src

/-- Sends a signal that waits to be forwarded on a port. -/
def sendForward (s : State) (p : Nat) : State :=
  match (s.port p).fwd with
  | [] => s
  | (gj, hops, index, amount) :: rest =>
    sendEvent (s.updPort p fun x => { x with fwd := rest }) (s.port p).role gj hops index amount

/-- Queues a signal to be forwarded on the first port of a role; the queue holds 64 (R531), and one that finds it full sends the oldest. -/
def forward (s : State) (role gj hops index amount : Nat) : State :=
  match (rolePorts s role).head? with
  | none => s
  | some p =>
    (if (s.port p).fwd.length < 64 then s else sendForward s p).updPort p fun x => { x with fwd := x.fwd ++ [(gj, hops, index, amount)] }

/-- The next group signals leave: those to be forwarded take precedence over the member's own (R503, R531). -/
def sendSignals (s : State) : State :=
  let waits := (List.range 8).filter fun p => !(s.port p).fwd.isEmpty
  if waits.isEmpty then sendQueued s else waits.foldl sendForward s

/-- A signal on its way round the ring, as an origin sends it, is queued to be forwarded (R531). -/
def forwardRing (s : State) (gj index amount : Nat) : State :=
  let r := s.grp.ringSize
  let s := if cdiv (r - 1) 2 == 0 then s else forward s 1 gj (cdiv (r - 1) 2) index amount
  if (r - 1) / 2 == 0 then s else forward s 2 gj ((r - 1) / 2) index amount

/-- A whole signal has arrived on a port: applied, and forwarded (R531). -/
def groupSignal (s : State) (p sync amount : Nat) : State :=
  let role := (s.port p).role
  let gj := bits sync 28 27
  let hops := bits sync 32 29
  let index := bits sync 44 33
  let s := applySignal s gj index amount (2 ^ 31 + signalSource s role hops)
  match role with
  | 1 => if 1 < hops then forward s 2 gj (hops - 1) index amount else s
  | 2 => if 1 < hops then forward s 1 gj (hops - 1) index amount else s
  | 3 => if s.grp.topology == 1 then s else forwardRing s gj index amount
  | _ => s

/-- The event field of an accepted flit (R521, R531). -/
def takeEvent (s : State) (p sync : Nat) : State :=
  match bits sync 26 25, (s.port p).partial_ with
  | 1, _ => groupSignal s p sync (bits sync 60 45)
  | 2, _ => s.updPort p fun x => { x with partial_ := some sync }
  | 3, some f => groupSignal (s.updPort p fun x => { x with partial_ := none }) p f (bits f 60 45 + 65536 * bits sync 60 45)
  | _, _ => s

/-- One receiver in service adapts its CTLE and DFE, to settings that are free values, and asks for a step of one tap of its partner's
transmitter (R534). Which tap and which way, and whether it asks at all, are free values too (log entry 2). -/
def adaptLane (p : Nat) (s : State) (lane : Nat) : State :=
  let (ctle, s) := s.fresh
  let (dfe, s) := s.fresh
  let (ask, s) := s.fresh
  let s := s.updPort p fun x => { x with rx := sset {} x.rx lane { ctle := ctle.toNat, dfe := [dfe.toInt] } }
  let (tap, way) := (ask.toNat / 4 % 4, ask.toNat % 4)
  if way < 2 then sendControl s p 6 0 (leBytes 1 lane ++ leBytes 1 tap ++ leBytes 1 (if way == 0 then 1 else 0xFF)) else s

/-- In service every receiver adapts continuously; a tap moves at most once in 1 ms (R534). A port's times are timers 40 to 47. -/
def adaptPort (s : State) (p : Nat) : State :=
  if !portUp s p || s.clk.ps < sget 0 s.timers (40 + p) + 10 ^ 9 then s
  else ((List.range 8).filter (bit (s.port p).lanes)).foldl (adaptLane p) { s with timers := sset 0 s.timers (40 + p) s.clk.ps }

/-- What every accepted numbered flit does: state fields, which the next flit sent answers (R526), sequence, event, and its own. A
port that is down receives nothing. -/
def receive (s : State) (p sync : Nat) (act : State → State) : State :=
  if !portUp s p then s else agree (act (takeEvent (acceptFlit (takeState s p sync) p) p sync))

/-! ### Flits received (R518 to R527) -/

/-- IDLE_FLIT (R527): its state fields. -/
def execIdleFlit (p sync : Nat) (s : State) : Host.Outcome State Fault Refusal :=
  .next (if portUp s p then takeState s p sync else s)

/-- CONTROL_NOP (R523): event fields and nothing else. -/
def execControlNop (p sync : Nat) (s : State) : Host.Outcome State Fault Refusal := .next (receive s p sync id)

/-- ACK (R522): credits for data. -/
def execAck (p : Nat) (flit : SeqFlit) (credits : Nat) (s : State) : Host.Outcome State Fault Refusal :=
  .next (receive s p flit.sync fun s =>
    pump (s.updPort p fun x => { x with credits := x.credits + credits, replays := 0, replaySeq := flit.seq }) p)

/-- Block `b` of a transfer over `n` ports goes to this one of them: 64 KiB pieces in turn (R546). -/
def stripe (n b : Nat) : Nat := b / 16 % n

/-- A role has lost its last port in service (R537): LEVEL 15 until ENABLE is cleared, and ABORT for every group job. -/
def neighbourLost (s : State) (role : Nat) : State :=
  if role == 0 || !s.sht.groupActive || !(rolePorts s role).isEmpty then s
  else
    let member := ((List.range 8).find? fun p => (s.port p).role == role).map fun p => (s.port p).partnerMember
    let s := (List.range 8).foldl (fun s p => if (s.port p).role == role then s.updPort p fun x => { x with lost := true } else s) s
    let mask := s.jobs.foldl (fun m j => if grouped j then m ||| 2 ^ (j.id % 4) else m) 0
    let s := { s with grp := { s.grp with neighbourLost := true, abort := s.grp.abort ||| mask } }
    announce (raiseChip s 0x5004 1 2 (((List.range 8).find? fun p => (s.port p).role == role).getD 0) 0 [role, member.getD 0] false true)

/-- Blocks of a transfer that one of its ports carries. -/
def ringShare (r : RingIn) (p : Nat) : Nat :=
  ((List.range (r.len / 4096)).filter fun b => r.ports.getD (stripe r.ports.length b) 8 == p).length

/-- The transfers that arrive over a port that goes down get no further block of it: they never complete (log entry 54). -/
def loseShare (s : State) (p : Nat) : State :=
  let f (r : RingIn) : RingIn := if r.ports.contains p then { r with perPort := sset 0 r.perPort p (ringShare r p) } else r
  { s with grp := { s.grp with ringsIn := s.grp.ringsIn.map f } }

/-- A port goes down (R517, R537): LINK_PORT_DOWN, with the generation that includes the new lane mask (R48), and what it was sending. -/
def portDown (s : State) (p cause : Nat) : State :=
  if !portUp s p then s
  else
    let role := (s.port p).role
    let s := s.updPort p fun x => { x with up := false, lanes := 0, outQ := [], replay := [], credits := 0, partial_ := none, blockBuf := [], fwd := [] }
    let gen := nextGeneration s
    let s := raiseChip (surveyChange (loseShare s p)) 0x5003 1 2 p 0 [p, cause, gen] false true
    neighbourLost s role

/-- A port is retrained in full: it goes down with a cause code that is not given (log entry 2), and trains. -/
def retrainPort (s : State) (p : Nat) : State :=
  let (w, s) := s.fresh
  (portDown s p w.toNat).updPort p fun x => { x with training := true }

/-- The sender replays its flits from a number on, with the present state fields (R520). -/
def replayFrom (s : State) (p seq : Nat) : State :=
  let again := (s.port p).replay.dropWhile fun e => e.1 != seq
  if again.isEmpty then s
  else
    let tried := if (s.port p).replaySeq == seq then (s.port p).replays else 0
    if 16 ≤ tried then retrainPort s p
    else
      let s := again.foldl (fun s e => emitFlit s p (e.2.getD 0 0) (e.2.getD 1 0) e.1 (e.2.getD 2 0)) s
      let s := s.updPort p fun x => { x with retries := sat16 x.retries again.length, replays := tried + 1, replaySeq := seq }
      again.foldl (fun s e => raiseChip s 0x5001 0 2 p 0 [p, e.1]) (s.countChip 0x30A again.length)

/-- NAK (R520): the sender replays from the named number; a flit that failed 16 replays in a row retrains the port. -/
def execNak (p : Nat) (flit : SeqFlit) (s : State) : Host.Outcome State Fault Refusal :=
  .next (receive s p flit.sync fun s => replayFrom s p flit.seq)

/-- FLIT_DISCARD (R516, R519 to R521): a numbered flit arrives with the number its sender gave it, with the uncorrectable code words
whose first flit it is. It is discarded where its CRC fails or its number is not the expected one. A NAK goes out for the first of these,
and again where the flit that the replay begins with fails its CRC. Its state fields count where its CRC passes. -/
def execFlitDiscard (flit : RawFlit) (s : State) : Host.Outcome State Fault Refusal :=
  let p := flit.port
  if !portUp s p then .next s
  else
    let s := s.updPort p fun x => { x with fecUncorr := sat16 x.fecUncorr flit.words }
    let passes := flit.crc == flitCrc flit.seq flit.sync flit.body
    if passes && flit.seq == (s.port p).rxSeq then .next s
    else
      let s := if passes then takeState s p flit.sync else s
      if ((s.port p).nakked && (passes || flit.seq != (s.port p).rxSeq)) || !portUp s p then .next s
      else .next (sendControl (s.updPort p fun x => { x with nakked := true }) p 2 0 (leBytes 2 (s.port p).rxSeq))

/-- EQ (R523, R534): a step of a transmitter tap. -/
def execEq (p sync : Nat) (body : Bytes) (s : State) : Host.Outcome State Fault Refusal :=
  .next (receive s p sync fun s =>
    let k := num body 4 1 * 4 + num body 5 1 % 4
    let step := num body 6 1
    s.updPort p fun x => { x with taps := supd 0 x.taps k fun v => if step == 1 then v + 1 else if step == 255 then v - 1 else v })

/-- TWIN_CHECK (R540): the twin's value for a sheet. -/
def execTwinCheck (p sync : Nat) (body : Bytes) (s : State) : Host.Outcome State Fault Refusal :=
  .next (receive s p sync fun s =>
    let id := num body 4 2
    let t := num body 7 1 % 4
    let s := s.updJob id fun j =>
      if j.params.twin then { j with twinTheirs := (j.twinTheirs.filter fun e => e.1 != t) ++ [(t, num body 8 8)] } else j
    twinCompare s id)

/-! ### Training and loss (R517, R532 to R534, R537) -/

/-- LINK_PORT_DOWN (R537): a port goes down after failed replays or lost lanes. -/
def execLinkPortDown (p cause : Nat) (s : State) : Host.Outcome State Fault Refusal := .next (portDown s p cause)

/-- LINK_LANE_DOWN for each lane that leaves service while the port stays (R548), with the generation that includes it (R48). -/
def lanesDown (s : State) (p : Nat) (lanes : List Nat) (gen : Nat) : State :=
  lanes.foldl (fun s l => raiseChip s 0x5002 0 2 p 0 [p, l, 4, gen] false true) s

/-- LINK_RETRAIN (R534): a lane's half is retrained; the port runs on the other half if that is whole, and is down otherwise. -/
def execLinkRetrain (p lane : Nat) (s : State) : Host.Outcome State Fault Refusal :=
  if !portUp s p || 8 ≤ lane then .next s
  else
    let half := lane / 4
    let left := (s.port p).lanes &&& (if half == 0 then 0xF0 else 0x0F)
    let s := raiseChip s 0x500A 0 2 p 0 [p, half]
    if wholeHalf left then
      let s := s.updPort p fun x => { x with lanes := left, training := true }
      .next (lanesDown (surveyChange s) p ((List.range 4).map (· + 4 * half)) (nextGeneration s))
    else
      .next (retrainPort s p)

/-- PORT_RETRAIN (R550): LNK_CTRL.RETRAIN retrains the port in full. Its cause code is not given (log entry 2). -/
def execPortRetrain (p : Nat) (s : State) : Host.Outcome State Fault Refusal :=
  if 8 ≤ p || reach s (0x200000 + p * 0x10000) = .dead then .next s
  else
    .next (retrainPort s p)

/-- LINK_TRAINING_DONE (R517, R534): a training ends with the lanes in service. A port that comes up counts flits from 0. A lane that was
in service and is not any more has left it (R548). -/
def execLinkTrainingDone (p lanes : Nat) (fast : Bool) (s : State) : Host.Outcome State Fault Refusal :=
  if 8 ≤ p || !(s.port p).training then .next s
  else
    let was := portUp s p
    let had := (s.port p).lanes
    let m := lanes % 256
    let s := s.updPort p fun x => { x with training := false }
    if !wholeHalf m then
      let (w, s) := s.fresh
      .next (portDown s p w.toNat)
    else
      let s := s.updPort p fun x =>
        if was then { x with lanes := m, fast }
        else { x with lanes := m, fast, up := true, txSeq := 0, rxSeq := 0, nakked := false, rxSinceAck := 0, replays := 0 }
      let lost := (List.range 8).filter fun l => bit had l && !bit m l
      .next (sendAck (lanesDown (surveyChange s) p lost (nextGeneration s)) p)

/-! ### Formation (R535, R536, R759) -/

/-- The diameter D of a shape (R535). -/
def diameter (topology ringSize : Nat) : Nat :=
  match topology with | 0 => ringSize / 2 | 1 => 1 | _ => ringSize / 2 + 1

/-- Ports with a role. -/
def rolePort (s : State) : List Nat := (List.range 8).filter fun p => (s.port p).role != 0

/-- The body of this member's FORM record of a round, from byte 4 (R523). -/
def formFields (s : State) (round : Nat) : Bytes :=
  leBytes 1 s.sht.member ++ leBytes 1 s.grp.topology ++ leBytes 1 s.grp.ringSize ++ leBytes 1 round ++ leBytes 4 s.sht.mask ++
    leBytes 4 s.sht.period ++ leBytes 8 s.grp.largest ++ leBytes 1 s.grade.code ++ leBytes 8 s.keep.serial

/-- Sends the FORM records of a round. -/
def sendForms (s : State) (round : Nat) : State :=
  (rolePort s).foldl (fun s p => if portUp s p then sendControl s p 3 0 (formFields s round) else s) s

/-- Forgets the FORM records of every port. -/
def dropForms (s : State) : State := (List.range 8).foldl (fun s p => s.updPort p fun x => { x with form := none }) s

/-- The member leaves its group, or its formation: ENABLE and GROUP_ACTIVE are cleared, and its flits carry LEVEL 15 (R79, R525, R536,
R537). -/
def leaveGroup (s : State) : State :=
  announce
  { s with sht := { s.sht with enable := false, groupActive := false }
           grp := { s.grp with forming := none, formed := false, adopt := none, neighbourLost := false, level := 14, nbr := [], rings := [], ringsIn := [],
                               noYield := 0, abort := 0, ownAbort := 0, pace := 63, heldNoYield := 0, heldAbort := 0, heldPace := 63 } }

/-- GROUP_FORM_FAIL (R759): port, member of its last FORM record, failed check. The records of the failed formation are dropped. -/
def formFail (s : State) (p check : Nat) : State :=
  let member := ((s.port p).form.map fun f => f.getD 0 0).getD 0xFF
  let s := dropForms (leaveGroup s)
  let s := { s with grp := { s.grp with formFail := true } }
  raiseChip s 0x5005 1 2 (if p == 0xFF then 0 else p) 0 [p, if p == 0xFF then 0xFF else member, check]

/-- The check that a port's FORM record fails, if one does (R536, R759). -/
def formCheck (s : State) (p : Nat) : Option Nat :=
  match (s.port p).form with
  | none => none
  | some f =>
    let role := (s.port p).role
    if role == 0 then none
    else if neighbourOf s.grp.topology s.grp.ringSize s.sht.member role != some (f.getD 0 0) then some 2
    else if f.getD 1 0 != s.grp.topology || f.getD 2 0 != s.grp.ringSize || f.getD 4 0 != s.sht.mask || f.getD 5 0 != s.sht.period
    then some 3
    else if role == 3 && f.getD 7 0 != s.grade.code then some 4 else none

/-- The neighbour of a port's role. -/
def portNeighbour (s : State) (p : Nat) : Option Nat := neighbourOf s.grp.topology s.grp.ringSize s.sht.member (s.port p).role

/-- A neighbour's FORM record of the round has come, on whichever of its ports. -/
def roundFrom (s : State) (m : Option Nat) : Bool :=
  (rolePort s).any fun p => portNeighbour s p == m && (s.port p).form.any fun f => decide (s.grp.round ≤ f.getD 3 0)

/-- Every neighbour has sent its FORM record of the round (R536, R759). -/
def roundHeard (s : State) : Bool :=
  (groupRoles s.grp.topology).all fun r => roundFrom s (neighbourOf s.grp.topology s.grp.ringSize s.sht.member r)

/-- At the start of a formation, the records that a neighbour sent in the 10 ms before and that pass its checks stay (log entry 53). -/
def earlyForms (s : State) : State :=
  (List.range 8).foldl (fun s p =>
    if (s.port p).formAt + 10 ^ 10 ≤ s.clk.ps || (formCheck s p).isSome then s.updPort p fun x => { x with form := none } else s) s

/-- Formation goes on with what has arrived: a failed check, the next round, or success (R536). -/
def formStep (s : State) : State :=
  if s.grp.forming.isNone then s
  else match (rolePort s).findSome? fun p => (formCheck s p).map fun k => (p, k) with
    | some (p, k) => formFail s p k
    | none =>
      let big := (rolePort s).foldl (fun m p => max m (((s.port p).form.map fun f => f.getD 6 0).getD 0)) s.grp.largest
      let s := { s with grp := { s.grp with largest := big } }
      if !roundHeard s then s
      else if s.grp.round < diameter s.grp.topology s.grp.ringSize then
        sendForms { s with grp := { s.grp with round := s.grp.round + 1 } } (s.grp.round + 1)
      else
        let s := (rolePort s).foldl (fun s p => s.updPort p fun x =>
          { x with partnerMember := (x.form.map fun f => f.getD 0 0).getD 0, form := none }) s
        { s with grp := { s.grp with forming := none, formed := true, adopt := some s.grp.largest,
                                     diam := diameter s.grp.topology s.grp.ringSize } }

/-- GROUP_FORMATION (R98, R536): a write of SHT_GROUP. With ENABLE it starts formation, without it the device ticks alone. -/
def execGroupFormation (value : Nat) (s : State) : Host.Outcome State Fault Refusal :=
  if !datumReach s 5 then .next s
  else if s.jobActive then .next { s with sht := { s.sht with writeRej := true } }
  else
    let s := { s with sht := { s.sht with member := value % 32 } }
    if !bit value 31 then .next (dropForms (leaveGroup s))
    else
      let s := leaveGroup s
      let s := { s with sht := { s.sht with enable := true },
                        grp := { s.grp with forming := some s.clk.ps, round := 0, largest := s.sht.tick, formed := false } }
      if (rolePort s).isEmpty then .next (formFail s 0xFF 1)
      else .next (formStep (sendForms (earlyForms s) 0))

/-- GROUP_FORM_TIMEOUT (R759): 10 ms of formation pass. -/
def execGroupFormTimeout (s : State) : Host.Outcome State Fault Refusal :=
  match s.grp.forming with
  | none => .next s
  | some t =>
    let s := s.untilPs (t + 10 ^ 10)
    let quiet := (rolePort s).filter fun p => (s.port p).form.isNone && !roundFrom s (portNeighbour s p)
    let late := (rolePort s).filter fun p => !roundFrom s (portNeighbour s p)
    .next (formFail s (quiet.headD (late.headD ((rolePort s).headD 0xFF))) 1)

/-- FORM (R532, R536): a record arrives on a port; the body is the control body from CKIND. One of round 0 tells the partner's serial
number. -/
def execForm (p : Nat) (flit : BodyFlit) (s : State) : Host.Outcome State Fault Refusal :=
  .next (receive s p flit.sync fun s =>
    let body := flit.body
    let f := [num body 4 1, num body 5 1, num body 6 1, num body 7 1, num body 8 4, num body 12 4, num body 16 8, num body 24 1,
      num body 25 8]
    formStep (s.updPort p fun x =>
      { x with form := some f, formAt := s.clk.ps, partnerSerial := if f.getD 3 0 == 0 then f.getD 8 0 else x.partnerSerial }))

/-! ### Ring transfers (R542 to R546) -/

/-- The failed condition of RD.RING and its record word (R543, R548). -/
def ringFault (s : State) (x : Ctx) (r : Bytes) : Option (Nat × Nat) :=
  let len := num r 0 8
  let dst := num r 8 8
  let none32 := 0xFFFFFFFF
  let bad := if 2 ^ 40 ≤ len then some 4 else if 2 ^ 48 ≤ dst then some 0xC else if 2 ^ 12 ≤ num r 0x10 4 then some 0x10
    else (upto 6 10).findSome? fun k => if num r (4 * k) 4 != 0 then some (4 * k) else none
  let src := devOffset x.bias x.oa
  if !x.j.params.group then some (1, none32)
  else if s.grp.topology == 1 then some (2, none32)
  else match bad with
    | some w => some (3, w)
    | none =>
      if len == 0 || len % 4096 != 0 then some (4, 0)
      else if dst % 2 ^ 40 % 4096 != 0 then some (5, 8)
      else if src % 4096 != 0 then some (5, none32)
      else if !(match x.j.image.segs[x.oa.seg]? with
          | some g => !g.code && decide (src + len ≤ g.len)
          | none => false) then some (6, 0)
      else if (rolePorts s (if bit x.i.opd 2 then 2 else 1)).isEmpty then some (7, none32) else none

/-- Bodies of 240 bytes of a byte string, as numbers. -/
def dataBodies (b : Bytes) : List Nat := (chunks 240 (b.length / 240 + 1) b).map leNat

/-- The source of a transfer, block after block with its check word; none where a block fails (R544). -/
def ringSource (s : State) (addr blocks : Nat) (acc : Accessor) : Except Nat (List Bytes) × State :=
  (List.range blocks).foldl (fun (r : Except Nat (List Bytes) × State) k =>
    match r.1 with
    | .error _ => r
    | .ok l => match readMem r.2 (addr + 4096 * k) 4096 acc with
      | (.ok b, s) => (.ok (l ++ [b ++ leBytes 4 (crc32c b)]), s)
      | (.error _, s) => (.error k, s)) (.ok [], s)

/-- Queues the flits of a transfer on the ports of its direction (R524, R546). -/
def queueRing (s : State) (ports : List Nat) (head : Bytes) (blocks : List Bytes) : State :=
  let n := ports.length
  let s := match ports.head? with
    | some p => s.updPort p fun x => { x with outQ := x.outQ ++ [(2, leNat head)] }
    | none => s
  let s := (ports.zipIdx).foldl (fun s e =>
    let mine := ((blocks.zipIdx).filter fun b => stripe n b.2 == e.2).flatMap (·.1)
    s.updPort e.1 fun x => { x with outQ := x.outQ ++ (dataBodies mine).map fun b => (3, b) }) s
  ports.foldl pump s

/-- RD.RING waits at issue while eight are under way in its direction, or a link engine of it is held by a record (R546, R629). -/
def ringHeld (s : State) (c : Nat) : Bool :=
  match nextIns s c, issuingJob s c with
  | some i, some _ => i.op == 0x51 && predOf s c i.pred != i.pneg &&
      (decide (8 ≤ (s.grp.rings.filter fun r => r.dir == b2n (bit i.opd 2)).length) ||
        (rolePorts s (b2n (bit i.opd 2) + 1)).any (unitHeld s 4))
  | _, _ => false

/-- RING_CHECK at the source (R544, R548): raised by the link engine whose port was to send the block. -/
def sourceCheck (s : State) (x : Ctx) (ports : List Nat) (k : Nat) : State :=
  raise s { code := 0x5009, sev := 2, level := 3, unit := chipUnit 4 (ports.getD (stripe ports.length k) 0), job := x.j.id,
            det := x.who.words ++ [x.j.id, k, 0], instr := true }

/-- RD.RING begins (R543, R544): its record is read and checked, and its blocks are sent. Every block is verified before the first is
sent, so a transfer with a bad source sends nothing (log entry 54). -/
def beginRing (s : State) (x : Ctx) (r : Bytes) : State :=
  match ringFault s x r with
  | some (k, w) => raiseCell s 0x5007 2 x.c (some x.who) [x.c, k, w]
  | none =>
    let len := num r 0 8
    let dir := b2n (bit x.i.opd 2)
    match ringSource s (devAddr x x.oa) (len / 4096) { who := some x.who, job := x.j.id, src := srcCell x.c } with
    | (.error k, s) => sourceCheck s x (rolePorts s (dir + 1)) k
    | (.ok bs, s) =>
      let n := s.grp.nextNumber
      let head := leBytes 2 x.j.id ++ leBytes 2 (x.i.opd % 4) ++ leBytes 2 n ++ leBytes 2 0 ++ slice r 8 8 ++ leBytes 8 len ++
        leBytes 2 (num r 0x10 2 % 4096 + 32768 * b2n (bit x.i.opd 3)) ++ leBytes 2 0 ++ slice r 0x14 4
      let s := { s with grp := { s.grp with nextNumber := (n + 1) % 65536, rings := s.grp.rings ++ [⟨n, x.j.id, x.c, dir⟩] } }
      queueRing (addFlight s x.c (.ring n)) (rolePorts s (dir + 1)) head bs

/-- RD.RING (R542, R543, R482). -/
def execRdRing (c : Nat) (ph : List Phys) (s : State) : Host.Outcome State Fault Refusal :=
  if ringHeld s c then .next (injectAll s ph)
  else issue 0x51 c ph s fun x s =>
    if x.j.interactive then raiseCell s 0x0708 2 c (some x.who) []
    else match readStash s c (x.gran s) (stashBytes x.v - 64) 64 (some x.who) with
      | (none, s) => s
      | (some r, s) => beginRing s x r

/-- The block that a port delivers as its `k`-th. -/
def ringBlock (r : RingIn) (p k : Nat) : Nat :=
  (k / 16 * r.ports.length + r.ports.idxOf p) * 16 + k % 16

/-- RING_DONE is returned to the sender (R523, R545). -/
def sendDone (s : State) (r : RingIn) (status : Nat) : State :=
  match (rolePorts s r.role).head? with
  | some p => sendControl s p 5 0 (leBytes 2 r.job ++ leBytes 2 r.number ++ leBytes 1 status)
  | none => s

/-- Changes an incoming transfer. -/
def updRingIn (s : State) (r : RingIn) (f : RingIn → RingIn) : State :=
  { s with grp := { s.grp with ringsIn := s.grp.ringsIn.map fun x => if x.role == r.role && x.number == r.number then f x else x } }

/-- The member at the other end of a role. -/
def peerOf (s : State) (role : Nat) : Nat := (((rolePorts s role).head?).map fun p => (s.port p).partnerMember).getD 0

/-- A transfer fails at the receiver: nothing further is written, the job's ABORT is set, RING_DONE tells the sender (R544). -/
def ringFail (s : State) (r : RingIn) (status code : Nat) (items : List Nat) : State :=
  let s := setAbort s (2 ^ (r.job % 4))
  let s := raiseChip s code 2 4 ((rolePorts s r.role).headD 0) r.job items
  sendDone (updRingIn s r fun x => { x with status }) r status

/-- What a destination block becomes (R542): replaced, or added word by word. -/
def ringCombine (op : Nat) (old new : Bytes) : Bytes :=
  match op with
  | 0 => new
  | 1 => packElems 32 ((List.range 1024).map fun k => addF32 (num old (4 * k) 4) (num new (4 * k) 4))
  | _ => packElems 32 ((List.range 1024).map fun k => (clamp32 (signed 32 (num old (4 * k) 4) + signed 32 (num new (4 * k) 4))).1)

/-- The receiving engine handles one block (R544). -/
def ringWrite (s : State) (r : RingIn) (b : Nat) (data : Bytes) : State :=
  if r.status != 0 then s
  else match s.job? r.job with
    | none => sendDone (updRingIn s r fun x => { x with status := 1 }) r 1
    | some j =>
      let off := r.dstOff + 4096 * b
      let d := data.take 4096
      if num data 4096 4 != crc32c d then ringFail s r 2 0x5009 [r.job, b, 0]
      else match (j.image.segs[r.dstSeg]?).filter fun g => g.writable && decide (off + 4096 ≤ g.len) with
        | none => ringFail s r 1 0x5008 ([r.job, peerOf s r.role, r.dstSeg] ++ item64 r.dstOff)
        | some g =>
          let acc : Accessor := { job := r.job, src := 3 * 2 ^ 30 + peerOf s r.role }
          let (old, s) : Except MemFail Bytes × State := if r.op == 0 then (.ok [], s) else readMem s (g.base + off) 4096 acc
          match old with
          | .error _ => ringFail s r 2 0x5009 [r.job, b, 1]
          | .ok old => match writeMem s (g.base + off) (ringCombine r.op old d) acc with
            | (.ok _, s) => s
            | (.error _, s) => ringFail s r 2 0x5009 [r.job, b, 1]

/-- The signal of a finished transfer finds the job switched out and its list of deferred signals full: the completion is held (R500). -/
def signalHeld (s : State) (r : RingIn) : Bool :=
  r.status == 0 && r.signal.isSome && (s.job? r.job).any fun j => parked s j.id && decide (64 ≤ j.deferred.length)

/-- The last block of a transfer is written: its signal, and RING_DONE with status 0 (R545). -/
def ringFinish (s : State) (r : RingIn) : State :=
  if signalHeld s r then s else
  let s := { s with grp := { s.grp with ringsIn := s.grp.ringsIn.filter fun x => !(x.role == r.role && x.number == r.number) } }
  if r.status != 0 then s
  else
    let s := match r.signal, s.job? r.job with
      | some (k, n), some j =>
        if k < j.params.cairnCount then (addForJob s j (absCairn j k) n (3 * 2 ^ 30 + peerOf s r.role)).2 else s
      | _, _ => s
    sendDone s r 0

/-- The finished transfers of a job that were held complete as it resumes (R500, R545). -/
def flushRings (s : State) (job : Nat) : State :=
  (s.grp.ringsIn.filter fun r => r.job == job && decide (r.len / 4096 ≤ r.done)).foldl ringFinish s

/-- A port's next whole block goes to the first transfer that still expects one of it, unless a record holds its engine (R629). -/
def ringDeliver (s : State) (p : Nat) : State :=
  let x := s.port p
  match s.grp.ringsIn.find? fun r => r.role == x.role && decide ((sget 0 r.perPort p : Nat) < ringShare r p) with
  | none => s
  | some r =>
    if x.blockBuf.length < 4100 || unitHeld s 4 p then s
    else
      let k : Nat := sget 0 r.perPort p
      let share := ringShare r p
      -- the last flit of the port's share is padded (R524)
      let used := if k + 1 == share then 4100 + (240 - share * 4100 % 240) % 240 else 4100
      let s := s.updPort p fun y => { y with blockBuf := y.blockBuf.drop used }
      let s := updRingIn s r fun y => { y with perPort := sset 0 y.perPort p (k + 1), done := y.done + 1 }
      let s := ringWrite s r (ringBlock r p k) (x.blockBuf.take 4100)
      match s.grp.ringsIn.find? fun y => y.role == r.role && y.number == r.number with
      | some y => if y.len / 4096 ≤ y.done then ringFinish s y else s
      | none => s

/-- Every whole block that a port holds is handled. -/
def ringPump (s : State) (p : Nat) : State := (List.range ((s.port p).blockBuf.length / 4100)).foldl (fun s _ => ringDeliver s p) s

/-- An idle period: 10 ns of the reference clock pass, at most 4 group signals leave, the level of the agreement moves, the receivers
adapt, blocks that waited for their engine are handled, and every port in service sends an idle flit (R522, R525, R527, R528, R534;
DESIGN CHOICE, log entry 12). -/
def idle (s : State) : State :=
  let s := agree ((List.range 4).foldl (fun s _ => sendSignals s) (s.advancePs 10000))
  announce ((List.range 8).foldl (fun s p => ringPump (adaptPort s p) p) s)

/-- HEAD_FLIT (R524): a transfer opens; blocks that came on other ports before it are handled now. -/
def execHeadFlit (p sync : Nat) (body : Bytes) (s : State) : Host.Outcome State Fault Refusal :=
  .next (receive s p sync fun s =>
    let role := (s.port p).role
    let dst := num body 8 8
    let sig := num body 24 2
    let r : RingIn := { role, ports := rolePorts s role, job := num body 0 2, op := num body 2 1, number := num body 4 2,
                        dstOff := dst % 2 ^ 40, dstSeg := dst / 2 ^ 40 % 256, len := num body 16 8,
                        signal := if bit sig 15 then some (sig % 4096, num body 28 4) else none }
    r.ports.foldl ringPump { s with grp := { s.grp with ringsIn := s.grp.ringsIn ++ [r] } })

/-- DATA_FLIT (R544): 240 bytes of a transfer's blocks. -/
def execDataFlit (p sync : Nat) (body : Bytes) (ph : List Phys) (s : State) : Host.Outcome State Fault Refusal :=
  .next (receive (injectAll s ph) p sync fun s =>
    ringPump (s.updPort p fun x => { x with blockBuf := x.blockBuf ++ slice body 0 240 }) p)

/-- RING_DONE (R545): status 0 completes the RD.RING of its cell; another status sets the job's ABORT (R544). -/
def execRingDone (p sync : Nat) (body : Bytes) (s : State) : Host.Outcome State Fault Refusal :=
  .next (receive s p sync fun s =>
    let number := num body 6 2
    let dir := (s.port p).role - 1
    match s.grp.rings.find? fun r => r.number == number && r.dir == dir with
    | none => s
    | some r =>
      let s := { s with grp := { s.grp with rings := s.grp.rings.filter fun x => !(x.number == number && x.dir == dir) } }
      let s := s.updSeq r.cell fun q => { q with flight := q.flight.filter fun f => decide (f ≠ .ring number) }
      let s := if num body 8 1 == 0 then s else setAbort s (2 ^ (r.job % 4))
      settle s r.cell)

end Sys2Proof.Machine
end

