-- ==== Sys2Proof/Machine/Sheets.lean ====
section
/-! DEFINITION. The end of a sheet, overruns and their limits, the sheet period (R61 to R79, R94, R95). -/

namespace Sys2Proof.Machine

open Sys2Proof

/-- SHEET.END and SHEET.END.Y (R66): the cell issues nothing more in the sheet. -/
def execSheetEnd (c : Nat) (s : State) : Host.Outcome State Fault Refusal :=
  issue 0x00 c [] s fun x s => s.updSeq c fun q => { q with ended := true, yields := x.i.x }

/-- SHEET_END_DONE (R66): every operation of a cell that issued SHEET.END is complete, so it counts as done and sleeps. -/
def execSheetEndDone (c : Nat) (s : State) : Host.Outcome State Fault Refusal :=
  let q := (s.cell c).seq
  match s.job? q.job with
  | none => .next s
  | some j =>
    if !q.ended || q.done || !q.flight.isEmpty then .next s
    else
      let s := s.updSeq c fun q => { q with done := true, doneAt := s.clk.cycles }
      let s := traceRec s (regionOf c) 1 c [j.sheet, b2n q.yields]
      .next (agree s.noteDone)

/-- SHEET_BUDGET_EXPIRY (R75): the budget ends P core cycles after the opening tick; with a cell not done, an overrun begins. -/
def execSheetBudgetExpiry (s : State) : Host.Outcome State Fault Refusal :=
  if !s.sht.opened then .next s
  else
    let s := s.untilCycle (s.sht.openCycle + s.sht.period)
    .next (if s.allDone then s else { s with sht := { s.sht with overrun := true } })

/-- Cell IDs two to a word, the first in bits [12:0] with bit 15, the second in bits [28:16] with bit 31 (R77). -/
def cellPairs : List Nat → List Nat
  | a :: b :: cs => (a + 2 ^ 15 + (b + 2 ^ 15) * 2 ^ 16) :: cellPairs cs
  | [a] => [a + 2 ^ 15]
  | [] => []

/-- The cells of a job that are not done. -/
def undoneCells (s : State) (j : Job) : List Nat :=
  (jobCells j).filter fun c => (s.cell c).seq.job == j.id && !(s.cell c).seq.done

/-- SHEET_STALL against one job (R77). -/
def stallJob (s : State) (j : Job) : State :=
  let cs := ascending (undoneCells s j)
  raiseChip s 0x3101 2 0x0A 0 j.id (cs.length :: cellPairs (cs.take 16)) false true

/-- A stalled cell counts as done (R77): what it issued runs to its end (R758), but an RD.RING that its receiver has not answered
by now is waited for no longer, and its place among the eight is free (DESIGN CHOICE, log entry 54). -/
def dropRings (s : State) (c : Nat) : State :=
  let s := { s with grp := { s.grp with rings := s.grp.rings.filter fun r => r.cell != c } }
  settle (s.updSeq c fun q => { q with flight := q.flight.filter fun f => match f with | .ring _ => false | _ => true }) c

/-- SHEET_STALL (R77): the overrun reaches LIMIT periods; it is raised against every job with a cell that is not done, one that is
ending already among them. -/
def execSheetStall (s : State) : Host.Outcome State Fault Refusal :=
  if !s.sht.opened then .next s
  else
    let s := s.untilCycle (s.sht.openCycle + s.sht.period * (1 + s.sht.limit))
    if s.allDone then .next s
    else
      let js := s.jobs.filter fun j => !(undoneCells s j).isEmpty
      let s := { s with sht := { s.sht with overrun := true, stall := s.sht.stall || !js.isEmpty } }
      let cs := js.flatMap (undoneCells s)
      .next (agree (cs.foldl dropRings (js.foldl stallJob s)))

/-- SHT_PERIOD_WRITE (R61, R64): accepted for the next tick, or ignored with WRITE_REJ. -/
def execShtPeriodWrite (value : Nat) (s : State) : Host.Outcome State Fault Refusal :=
  let p := value % 2 ^ 23
  if !datumReach s 5 then .next s
  else if s.jobActive || p < 4096 || 4194304 < p || p % 256 != 0 then .next { s with sht := { s.sht with writeRej := true } }
  else .next { s with sht := { s.sht with nextPeriod := some p } }

/-- SHT_OVERRUN_LIMIT_WRITE (R95): accepted, or ignored with WRITE_REJ. -/
def execShtOverrunLimitWrite (value : Nat) (s : State) : Host.Outcome State Fault Refusal :=
  let l := value % 2 ^ 7
  if !datumReach s 5 then .next s
  else if s.jobActive || l == 0 || 64 < l then .next { s with sht := { s.sht with writeRej := true } }
  else .next { s with sht := { s.sht with limit := l } }

end Sys2Proof.Machine
end

