-- ==== Sys2Proof/Machine/Power.lean ====
section
/-! DEFINITION. Power delivery: AVSBus, guards, the current ledger, wakes, trim clusters, vias, emergency throttles, the
emergency stop, budget sharing (R551 to R586, R601 to R604, R611, R613). Currents are in mA, voltages in half millivolts where
said. -/

namespace Sys2Proof.Machine

open Sys2Proof

/-! ### Voltage (R555, R558 to R563) -/

/-- The setpoint in mV (R561); with no region awake, the low clamp. -/
def wantedSetpoint (s : State) : Nat :=
  let t := ((List.range 32).map fun r => if awake s r && vByte s r s.pwr.pace != 255 then targetHalf s r s.pwr.pace else 0).foldl max 0
  max 550 (min 800 (cdiv (t + 30) 2))

/-- Sends a Voltage write with commit on a rail (R553). -/
def sendVoltage (s : State) (rail mv : Nat) : State :=
  if rail == 0 then { (s.emit (.avs 0 (.writeVoltage mv))) with pwr := { s.pwr with command := some mv, lastTry := s.clk.ps } }
  else { (s.emit (.avs 1 (.writeVoltage mv))) with pwr := { s.pwr with vstoreCmd := some mv, lastTry := s.clk.ps } }

/-- Reads of a rail's voltage, current, temperature and status (R553). The spec ties them to no moment: the model sends them as the
measured powers are shared, each 1 ms (R581, R582; DESIGN CHOICE, log entry 69). -/
def readRail (s : State) (rail : Nat) : State :=
  [AvsCmd.readVoltage, .readCurrent, .readTemperature, .readStatus].foldl (fun s c => s.emit (.avs rail c)) s

/-- AVS_ACK (R553, R555): the module acknowledges the write on a rail. -/
def execAvsAck (rail : Nat) (s : State) : Host.Outcome State Fault Refusal :=
  match rail, s.pwr.command, s.pwr.vstoreCmd with
  | 0, some v, _ => .next (latchPace { s with pwr := { s.pwr with
      setpoint := v, lastMove := s.clk.ps, command := none, attempts := 0, avsOk := true } })
  | 1, _, some v => .next { s with pwr := { s.pwr with vstore := v, vstoreCmd := none, vstoreTries := 0, avsOk := true } }
  | _, _, _ => .next s

/-- A Voltage write fails: it is retried, and the third failure raises AVS_FAULT (R555). -/
def avsFailed (s : State) (rail status : Nat) : State :=
  let (cmd, n) := if rail == 0 then (s.pwr.command, s.pwr.attempts + 1) else (s.pwr.vstoreCmd, s.pwr.vstoreTries + 1)
  match cmd with
  | none => s
  | some v =>
    let s := { s with pwr := if rail == 0 then { s.pwr with attempts := n } else { s.pwr with vstoreTries := n } }
    if n < 3 then sendVoltage s rail v
    else if n == 3 then
      raiseChip { s with pwr := { s.pwr with avsOk := false, avsFault := true, lastTry := s.clk.ps } } 0x6004 1 6 0 0 [rail, v, status]
    else s

/-- AVS_WRITE_TIMEOUT (R555): no acknowledgement within 10 µs (status 0), or a status error. -/
def execAvsWriteTimeout (rail status : Nat) (s : State) : Host.Outcome State Fault Refusal :=
  if (if rail == 0 then s.pwr.command.isNone else s.pwr.vstoreCmd.isNone) then .next s
  else .next (avsFailed (if status == 0 then s.untilPs (s.pwr.lastTry + 10 ^ 7) else s) rail status)

/-- AVS_RETRY (R555): while AVS_OK is 0, a write that has failed three times is retried 1 ms after the last attempt. -/
def execAvsRetry (s : State) : Host.Outcome State Fault Refusal :=
  if s.pwr.avsOk then .next s
  else
    let core := s.pwr.command.filter fun _ => decide (3 ≤ s.pwr.attempts)
    let store := s.pwr.vstoreCmd.filter fun _ => decide (3 ≤ s.pwr.vstoreTries)
    let t := s.untilPs (s.pwr.lastTry + 10 ^ 9)
    match core, store with
    | some v, _ => .next (sendVoltage t 0 v)
    | none, some v => .next (sendVoltage t 1 v)
    | none, none => .next s

/-! ### Emergency throttle, emergency stop (R579, R611, R613) -/

/-- Records the application of a pace code (R711). -/
def paceHistory (s : State) (new term : Nat) (emerg : Bool) : State :=
  let e : PaceEnt := ⟨s.sht.tick, s.pwr.pace, new, term, emerg, s.sb.paceIndex⟩
  { s with sb := { s.sb with pace := (s.sb.pace ++ [e]).drop (s.sb.pace.length - 1023), paceIndex := inc32 s.sb.paceIndex } }

/-- The second core PLL relocks (R579): to the code that will be applied next, or with no change pending to the emergency code. -/
def relock (s : State) : State :=
  let next := (s.pwr.agreed.find? fun e => e.1 != s.pwr.pace).map (·.1)
  { s with pwr := { s.pwr with otherPll := next.getD (s.pwr.pace - 16) } }

/-- An emergency throttle (R579): the clock falls 16 codes at once, the lower code is advertised (R74), and the other PLL relocks to the
next lower emergency code. The term of an entry whose cause is not thermal, and the cause code of the record, are not given (log entry
2). -/
def emergencyThrottle (s : State) (thermal : Bool) : State :=
  let old := s.pwr.pace
  let new := old - 16
  let (w, s) := s.fresh
  let (t, s) := if thermal then (5, s) else let (t, s) := s.fresh; (t.toNat % 7, s)
  let s := paceHistory s new t true
  let agreed := s.pwr.agreed.map fun e => (min e.1 new, e.2)
  let code := if thermal then new else s.pwr.thermal
  let s := { s with pwr := { s.pwr with pace := new, otherPll := new - 16, advertised := min s.pwr.advertised new, agreed, thermal := code }
                    sb := { s.sb with emergencies := s.sb.emergencies + 1 } }
  let s := s.countChip 0xF03 1
  announce (raiseChip (s.countChip 0xF04 1) 0x6007 0 6 0 0 [w.toNat, old, new] false true)

/-- A cell stops at once: what it has issued is abandoned, and it counts as done (R611, R613). -/
def abandonCell (s : State) (c : Nat) : State :=
  s.updSeq c fun q => { q with halted := true, wait := none, flight := [], done := true,
                               doneAt := if q.done then q.doneAt else s.clk.cycles }

/-- The total measured draw, with the reserve of R552. -/
def totalDraw (s : State) : Nat := 90000 + (s.regions.map fun e => e.2.pw.draw + e.2.pw.ballast).foldl (· + ·) 0

/-- The relief's power in W (R582): core draw at the setpoint and VSTORE. -/
def reliefPower (s : State) : Nat := totalDraw s * s.pwr.setpoint / 1000000 + s.share.vstoreW

/-- The emergency stop (R611, R613): every cell stops, increases freeze, the staircase begins; every running job ends at the
next tick with the cause's record, or one record at chip level where no job runs. A trip during a stop is a cause of its own; a cause
that holds already raises nothing again (R617). -/
def emergencyStop (s : State) (cause code : Nat) (items : List Nat) : State :=
  let again := s.thm.stopped
  let known := again && bit s.thm.stopMask cause
  let watts := reliefPower s
  let js := s.jobs.filter fun j => j.phase = .running
  let s := s.cells.foldl (fun s e => abandonCell s e.1) s
  let s := if cause == 3 || known then s
    else if js.isEmpty then raiseChip s code 0 7 0 0 items
    else js.foldl (fun s j => raiseChip s code 2 7 0 j.id items false true) s
  let mask := (if again then s.thm.stopMask else 0) ||| 2 ^ cause
  let s := { s with thm := { s.thm with stopCause := if again then max s.thm.stopCause cause else cause, stopMask := mask, stopSeen := true } }
  let s := if again then s else { s with
    thm := { s.thm with stopped := true, staircase := some 0, stopAt := s.clk.ps, stopWatts := watts, flowOkFrom := none, coolFrom := none }
    reds := [] }
  agree s.noteDone

/-! ### The ledger (R567 to R573) -/

/-- The total VCORE grant, with the reserve of R552 and what a rise of the setpoint draws (R558). -/
def totalGrant (s : State) : Nat := 90000 + s.pwr.slew + (s.regions.map fun e => e.2.pw.grant).foldl (· + ·) 0

/-- The time since the last note counts as an excursion if the grants stood above I_SUST; from now on it is as the grants stand (R557). -/
def noteExcursion (s : State) : State :=
  let now := s.clk.ps
  let old := s.pwr.excursions.filter fun e => decide (now < e.2 + 10 ^ 10)
  let ex := match s.pwr.aboveFrom, old.getLast? with
    | none, _ => old
    | some t, some (a, b) => if b == t then old.dropLast ++ [(a, now)] else old ++ [(t, now)]
    | some t, none => [(t, now)]
  { s with pwr := { s.pwr with excursions := ex, aboveFrom := if s.pwr.sustained * 1000 < totalGrant s then some now else none } }

/-- Time spent above I_SUST in the last 10 ms, in ps (R557). -/
def excursionUsed (s : State) : Nat :=
  let lo := s.clk.ps - 10 ^ 10
  (s.pwr.excursions.map fun e => e.2 - max e.1 lo).foldl (· + ·) 0

/-- The ceiling in force (R570): the slots left of the allowance must bring the grants down to I_SUST again. -/
def ceiling (s : State) : Nat :=
  let slots := (10 ^ 9 - excursionUsed s) / 125000
  min 2800000 (s.pwr.sustained * 1000 + (slots - 1) * (s.pwr.rate * 125))

/-- What the wakes under way have been granted: it may stand above the ceiling (R570, R572). -/
def wakeHeld (s : State) : Nat := (s.regions.map fun e => 3000 * e.2.pw.wake.getD 0).foldl (· + ·) 0

/-- The most a block may draw: 9.6 A, or 8.4 A with a failed trim cell; a fenced block is dark (R574). -/
def blockLimit (s : State) (b : Nat) : Nat :=
  if s.blockReason b != 0 then 0 else if (s.blockPlan b).trimFailed != 0 then 8400 else 9600

/-- The most a region may draw: what its blocks may, or half of 115.2 A when capped (R574, R575). -/
def regionLimit (s : State) (r : Nat) : Nat :=
  let blocks := ((upto (r * 12) 12).map (blockLimit s)).foldl (· + ·) 0
  if (s.regionPlan r).capped then min 57600 blocks else blocks

/-- What is left of a slot's grants of increase and of release. -/
structure SlotBudget where
  inc : Nat
  rel : Nat
  deriving DecidableEq, Repr

/-- The mesh neighbours and the column partner of a region (R337, R572). -/
def regionNeighbours (r : Nat) : List Nat :=
  let g := r % 16
  let l := r / 16 * 16
  (if g % 4 == 0 then [] else [l + g - 1]) ++ (if g % 4 == 3 then [] else [l + g + 1]) ++
  (if g < 4 then [] else [l + g - 4]) ++ (if 12 ≤ g then [] else [l + g + 4]) ++ [(r + 16) % 32]

/-- Regions in falling order of their draw. -/
def busiest (s : State) (rs : List Nat) : List Nat :=
  rs.foldl (fun acc r =>
    let d (x : Nat) : Nat := (s.region x).pw.draw
    acc.takeWhile (fun x => d r ≤ d x) ++ r :: acc.dropWhile (fun x => d r ≤ d x)) []

/-- Clips region `r` to 6 of 8 cycles for the wake of region `w`, if the step still does not fit (R572). -/
def clipForWake (w : Nat) (x : SlotBudget × State) (r : Nat) : SlotBudget × State :=
  let p := (x.2.region r).pw
  let freed := p.draw / 4
  if totalGrant x.2 + 3000 ≤ ceiling x.2 || p.wakeClip.isSome || !awake x.2 r || freed == 0 || x.1.rel < freed then x
  else ({ x.1 with rel := x.1.rel - freed },
        x.2.updPw r fun p => { p with wakeClip := some w, grant := p.grant - freed, draw := p.draw - freed })

/-- Takes an amount off the gliding parts of a ballast, the oldest first. -/
def trimGlide : Nat → List (Nat × Nat) → List (Nat × Nat)
  | _, [] => []
  | d, e :: l => if e.2 ≤ d then trimGlide (d - e.2) l else (e.1, e.2 - d) :: l

/-- What of a region's ballast glides. -/
def glideSum (p : RegionPw) : Nat := (p.gliding.map (·.2)).foldl (· + ·) 0

/-- A region's ballast falls to an amount: the part that does not glide goes first (DESIGN CHOICE; log entry 55). -/
def setBallast (p : RegionPw) (b : Nat) : RegionPw :=
  { p with ballast := b, gliding := trimGlide (glideSum p - b) p.gliding }

/-- The clip in eighths that keeps a wanted current within a limit (R569). -/
def clipFor (g want : Nat) : Nat := if want == 0 then 8 else max 1 (min 8 (8 * g / want))

/-- A region gives up grant to an amount, at the ledger's release rate: its issue is clipped to what is left (R570, R575, R582). -/
def giveUp (x : SlotBudget × State) (r most : Nat) : SlotBudget × State :=
  let p := (x.2.region r).pw
  let d := min (min most x.1.rel) p.grant
  if d == 0 || p.gated then x
  else
    let g := p.grant - d
    ({ x.1 with rel := x.1.rel - d },
     x.2.updPw r fun p => { setBallast p (min p.ballast (g - min p.draw g)) with grant := g, draw := min p.draw g, clip := clipFor g p.want })

/-- A region gives up what it has above its own limit (R575), and grant while the total, wake steps apart, stands above the ceiling (R570,
R582). -/
def shed (x : SlotBudget × State) (r : Nat) : SlotBudget × State :=
  let x := giveUp x r ((x.2.region r).pw.grant - regionLimit x.2 r)
  giveUp x r (totalGrant x.2 - (ceiling x.2 + wakeHeld x.2))

/-- One step of a region's wake: 3 A (R571, R572). -/
def wakeStep (x : SlotBudget × State) (r : Nat) : SlotBudget × State :=
  match (x.2.region r).pw.wake with
  | none => x
  | some k =>
    if 16 ≤ k || x.1.inc < 3000 then x
    else
      let near := busiest x.2 (regionNeighbours r)
      let far := busiest x.2 ((List.range 32).filter fun q => q != r && !near.contains q)
      let x := (near ++ far).foldl (clipForWake r) x
      if 2800000 < totalGrant x.2 + 3000 then x
      else ({ x.1 with inc := x.1.inc - 3000 }, x.2.updPw r fun p => { p with wake := some (k + 1), grant := p.grant + 3000 })

/-- A region's increase, and the clip that keeps it within its grant (R569, R570). One clipped for a wake gets none (R572). -/
def increase (x : SlotBudget × State) (r : Nat) : SlotBudget × State :=
  let p := (x.2.region r).pw
  let limit := regionLimit x.2 r
  let most := if p.wakeClip.isSome then min limit p.grant else limit
  let want := min p.want most
  if p.gated then x
  else
    let add := min (min (want - p.grant) x.1.inc) (ceiling x.2 - totalGrant x.2)
    let g := p.grant + add
    ({ x.1 with inc := x.1.inc - add }, x.2.updPw r fun p => { p with grant := g, clip := clipFor (min g limit) p.want })

/-- A region's releases: the ballast decays as they arrive, but for what has glided for less than 2 s; a gated region gives up its grant
(R568, R602). -/
def release (x : SlotBudget × State) (r : Nat) : SlotBudget × State :=
  let p := (x.2.region r).pw
  let p := { p with gliding := p.gliding.filter fun e => decide (x.2.clk.ps < e.1 + 2 * 10 ^ 12) }
  let d := if p.wake.isSome then 0 else min (if p.gated then p.grant else p.ballast - glideSum p) x.1.rel
  let b := if p.gated then min p.ballast (p.grant - d) else p.ballast - d
  ({ x.1 with rel := x.1.rel - d }, x.2.updPw r fun _ => { setBallast p b with grant := p.grant - d })

/-- A job's work has ended in a region, or the job has left. -/
def workOver (s : State) (r job : Nat) : Bool :=
  (s.job? job).isNone || s.cells.any fun e => regionOf e.1 == r && e.2.seq.job == job && e.2.seq.done

/-- The part of a fall that the end of a job's work made: it glides (R602), or with GLIDE_OFF is counted and decays (R604). `x.1` is what of
the fall is not accounted for yet. -/
def endOfWork (r : Nat) (x : Nat × State) (e : Nat × Nat) : Nat × State :=
  let d := min x.1 e.2
  if d == 0 || !workOver x.2 r e.1 then x
  else if (x.2.job? e.1).any (·.params.glideOff) then
    (x.1 - d, { x.2 with share := { x.2.share with unglidedFalls := x.2.share.unglidedFalls + 1 } })
  else (x.1 - d, x.2.updPw r fun p => { p with gliding := p.gliding ++ [(x.2.clk.ps, d)] })

/-- An agent's report: a fall goes onto the ballast, and glides where work has ended; a rise replaces ballast (R567, R568, R602 to R604).
What falls for a clip, a cap or a throttle does not glide. -/
def report (s : State) (x : Report) : State :=
  let p := (s.region x.region).pw
  if 32 ≤ x.region then s
  else if x.draw < p.draw then
    let s := s.updPw x.region fun p => { p with draw := x.draw, want := x.want, ballast := p.ballast + (p.draw - x.draw) }
    (x.ends.foldl (endOfWork x.region) (p.draw - x.draw, s)).2
  else s.updPw x.region fun p => { setBallast p (p.ballast - (x.draw - p.draw)) with draw := x.draw, want := x.want }

/-- Glide (R601, R602): once a millisecond, 1 W of ballast over all regions in glide, within the slot's releases (R567). -/
def glide (x : SlotBudget × State) : SlotBudget × State :=
  let ms := x.2.clk.ps / 10 ^ 9
  if ms == x.2.share.glideMs then x
  else
    let rs := (List.range 32).filter fun r => !(x.2.region r).pw.gliding.isEmpty
    let share := 1000000 / x.2.pwr.setpoint / max 1 rs.length
    rs.foldl (fun x r =>
      let d := min (min share (glideSum (x.2.region r).pw)) x.1.rel
      ({ x.1 with rel := x.1.rel - d }, x.2.updPw r fun p =>
        { p with grant := p.grant - d, ballast := p.ballast - d, gliding := trimGlide d p.gliding }))
      (x.1, { x.2 with share := { x.2.share with glideMs := ms } })

/-- The setpoint moves by 1 mV at a time, up in 0.5 µs, down in 4 µs. A rise begins once its 48 A are granted, in as many slots as that
takes, and they are released as it ends (R558, R561). -/
def moveSetpoint (x : SlotBudget × State) : SlotBudget × State :=
  let s := x.2
  let t := wantedSetpoint s
  let rises := decide (s.pwr.setpoint < t) && s.pwr.vtableOk
  let add := if rises then min (48000 - s.pwr.slew) (min x.1.inc (ceiling s - totalGrant s)) else 0
  let d := if rises then 0 else min s.pwr.slew x.1.rel
  let x : SlotBudget := ⟨x.1.inc - add, x.1.rel - d⟩
  let s := { s with pwr := { s.pwr with slew := s.pwr.slew + add - d } }
  if s.pwr.command.isSome || !s.pwr.vtableOk || t == s.pwr.setpoint then (x, s)
  else if rises then
    (x, if s.pwr.slew < 48000 || s.clk.ps < s.pwr.lastMove + 500000 then s else sendVoltage s 0 (s.pwr.setpoint + 1))
  else (x, if s.clk.ps < s.pwr.lastMove + 4000000 then s else sendVoltage s 0 (s.pwr.setpoint - 1))

/-- Issue cycles that clips withhold from the awake cells of a job in a stretch of core cycles (R715). -/
def withheld (s : State) (cycles : Nat) (k : RegionPw → Nat) : Nat :=
  (s.cells.map fun e =>
    let q := e.2.seq
    if q.job != 0 && !q.done && q.wait.isNone then cycles * (8 - min 8 (k (s.region (regionOf e.1)).pw)) / 8 else 0).foldl (· + ·) 0

/-- The clip of a region that the ledger applies: its own, and that of a wake nearby (R569, R572). -/
def ledgerClip (p : RegionPw) : Nat := min p.clip (if p.wakeClip.isSome then 6 else 8)

/-- A region's issue fraction in eighths: the lower of the governor's and the ledger's (R599). -/
def issueFraction (p : RegionPw) : Nat := min p.frac (ledgerClip p)

/-- LEDGER_FAULT (R584): chip-fatal, with the emergency stop. -/
def ledgerFault (s : State) (r : Nat) : State := emergencyStop (raiseChip s 0x6008 3 6 0 0 [r]) 3 0x6008 []

/-- LEDGER_SLOT (R567 to R573): one slot of 125 ns, with the agents' reports; `agentFault` names an agent that failed. No increase is
granted while the alert, a stop, a chip-fatal error or a reset holds (R556, R611, R622, R659). -/
def execLedgerSlot (reports : List Report) (agentFault : Option Nat) (s : State) : Host.Outcome State Fault Refusal :=
  let c0 := s.clk.cycles
  let s := s.periodic 1 125000
  let s := s.countChip 0xF01 (withheld s (s.clk.cycles - c0) ledgerClip)
  match agentFault with
  | some r => .next (ledgerFault s r)
  | none =>
    let s := noteExcursion (reports.foldl report s)
    let done (w : Nat) : Bool := (s.region w).pw.wake.isNone
    let s := { s with regions := smap {} (fun x => if x.pw.wakeClip.any done then { x with pw := { x.pw with wakeClip := none } } else x)
                                   s.regions }
    let still := s.pwr.frozen || s.thm.stopped || s.err.fatal || powerHeld s
    let x : SlotBudget × State := (⟨if still then 0 else s.pwr.rate * 125, s.pwr.rate * 125⟩, s)
    let x := (List.range 32).foldl wakeStep x
    let x := (busiest s (List.range 32)).foldl shed x
    let x := (List.range 32).foldl increase x
    let x := glide (moveSetpoint x)
    let s := noteExcursion ((List.range 32).foldl release x).2
    if ceiling s ≤ totalDraw s && (List.range 32).all (fun r => (s.region r).pw.draw == 0 || ledgerClip (s.region r).pw ≤ 1)
    then .next (emergencyThrottle s false) else .next s

/-- The clearing that a stopped part put off takes place as the region wakes: its cells' share of it, and with the last of them the
cairns' (R613). -/
def clearOnWake (r : Nat) (s : State) (k : Clear) : State :=
  let mine := k.cells.filter fun c => regionOf c == r
  let left := k.cells.filter fun c => regionOf c != r
  if !k.noLimit || k.cleared || mine.isEmpty then s
  else
    let now := if left.isEmpty then k else { k with cells := mine, cairnCount := 0 }
    let parts := if left.isEmpty then [k] else [now, { k with cells := left }]
    clearNow { s with clearing := s.clearing.flatMap fun x => if x = k then parts else [x] } now

/-- REGION_WAKE_DONE (R571): 2 µs after a wake began, all its 16 steps granted, the region is awake, its grant trimmed to its draw. -/
def execRegionWakeDone (r : Nat) (s : State) : Host.Outcome State Fault Refusal :=
  let p := (s.region r).pw
  if p.wake != some 16 || 32 ≤ r then .next s
  else
    let s := s.untilPs (p.wakeAt + 2000000)
    let s := latchPace (noteExcursion (s.updPw r fun p => { p with gated := false, wake := none, grant := p.draw, clip := 8 }))
    let s := s.countRegion 0x204 r 1
    let s := traceRec s r 5 0 [b2n p.wakeDemand, s.clk.cycles - p.wakeCycle]
    .next (s.clearing.foldl (clearOnWake r) s)

/-! ### Droop (R556, R564 to R566) -/

/-- A region's clock is stretched to half frequency (R564). -/
def stretch (s : State) (r : Nat) : State :=
  s.updPw r fun p => { p with stretchFrom := some (p.stretchFrom.getD s.clk.cycles) }

/-- A stretch ends after 16 core cycles, once the readings are 6 or more and the alert is high; suppressed edges are counted
(R564, R565). -/
def endStretch (s : State) (r : Nat) : State :=
  match (s.region r).pw.stretchFrom with
  | none => s
  | some t =>
    if s.pwr.alertFrom.isSome || (s.region r).pw.lastCode < 6 || s.clk.cycles < t + 16 then s
    else (s.updPw r fun p => { p with stretchFrom := none }).countChip 0xF05 ((s.clk.cycles - t) / 2)

/-- VCORE_ALERT_ASSERT (R556): every region's clock is stretched, and increases are frozen. -/
def execVcoreAlertAssert (s : State) : Host.Outcome State Fault Refusal :=
  if s.pwr.alertFrom.isSome then .next s
  else
    let s := { s with pwr := { s.pwr with alertFrom := some s.clk.ps, alertLong := false, frozen := true }
                      sb := { s.sb with alerts := s.sb.alerts + 1 } }
    .next ((List.range 32).foldl stretch s)

/-- VCORE_ALERT_RELEASE (R556): the input has been high for 1 µs; the stretch and the freeze end. MODULE_DROOP carries the
time the input was low, in ns (log entry 14). -/
def execVcoreAlertRelease (s : State) : Host.Outcome State Fault Refusal :=
  match s.pwr.alertFrom with
  | none => .next s
  | some t =>
    let low := (s.clk.ps - t) / 1000
    let s := raiseChip (s.advancePs 1000000) 0x6005 0 6 0 0 [low]
    .next ((List.range 32).foldl endStretch { s with pwr := { s.pwr with alertFrom := none, frozen := false } })

/-- VCORE_ALERT_LONG (R556, R579): the assertion lasts more than 10 µs; once. -/
def execVcoreAlertLong (s : State) : Host.Outcome State Fault Refusal :=
  match s.pwr.alertFrom with
  | none => .next s
  | some t =>
    if s.pwr.alertLong then .next s
    else
      let s := s.untilPs (t + 10 ^ 7)
      .next (emergencyThrottle { s with pwr := { s.pwr with alertLong := true } } false)

/-- One region's lowest margin reading of a sample (R562, R564). -/
def sampleMargin (s : State) (x : Nat × Nat) : State :=
  if 32 ≤ x.1 || !awake s x.1 then s
  else
    let s := s.updPw x.1 fun p => { p with margin := min p.margin x.2, lastCode := x.2 }
    if x.2 < 4 then stretch s x.1 else endStretch s x.1

/-- MARGIN_SAMPLE (R562, R564, R566): every 1 µs, the lowest reading of each region and of the datum die, whose clock generator
lengthens the period by up to 50 % below 4: by how much is open, a free value (log entry 2). -/
def execMarginSample (codes : List (Nat × Nat)) (datum : Nat) (s : State) : Host.Outcome State Fault Refusal :=
  let s := s.periodic 2 1000000
  let (w, s) := if datum < 4 then s.fresh else (0, s)
  .next (codes.foldl sampleMargin { s with share := { s.share with datumPct := w.toNat % 51 } })

/-- One region at a guard update (R562, R563): whether the margin code falls for it. -/
def guardRegion (x : Bool × State) (r : Nat) : Bool × State :=
  let p := (x.2.region r).pw
  if !awake x.2 r then x
  else
    let m := p.margin
    let high := if 18 < m then p.high + 1 else 0
    let low := if p.guard == 20 && m < 10 then p.low + 1 else 0
    let guard := if m < 10 then min 20 (p.guard + 1) else if 16 ≤ high then p.guard - 1 else p.guard
    let s := x.2.updPw r fun p => { p with guard, low, high := if 16 ≤ high then 0 else high, margin := 63 }
    if 4 ≤ low then (true, raiseChip s 0x6006 0 6 0 0 [r, m]) else (x.1, s)

/-- GUARD_UPDATE (R562, R563): every 1 ms. -/
def execGuardUpdate (s : State) : Host.Outcome State Fault Refusal :=
  let s := s.periodic 3 (10 ^ 9)
  let calm := (List.range 32).all fun r => !awake s r || decide (10 ≤ (s.region r).pw.margin)
  let (falls, s) := (List.range 32).foldl guardRegion (false, s)
  let ok := if calm then s.pwr.marginOk + 1 else 0
  let m := if falls then s.pwr.margin - 1 else if 16 ≤ ok then min s.grade.paceMax (s.pwr.margin + 1) else s.pwr.margin
  .next (latchPace { s with pwr := { s.pwr with margin := m, marginOk := if 16 ≤ ok then 0 else ok } })

/-! ### Vias and trim clusters (R574, R575) -/

/-- CRACKED_JOINT (R575): the region is capped at half current from now on. The record is that of the unit that measured. -/
def crackedJoint (s : State) (level unit r group ratio : Nat) : State :=
  if (s.regionPlan r).capped || s.regionReason r != 0 then s
  else
    let gen := nextGeneration s
    let s := s.updRegionPlan r fun p => { p with capped := true }
    raise (surveyChange s) { code := 0x6003, sev := 0, level, unit, det := [r, group, ratio, gen], hist := true }

/-- One measurement of a via group, key 4 × region + group, in 1/256 of its test value (R575). -/
def measureVia (s : State) (x : Nat × Nat) : State :=
  let r := x.1 / 4
  let g := x.1 % 4
  if 32 ≤ r then s
  else
    let hist := (List.range 4).map fun k =>
      let l := (s.region r).pw.via.getD k []
      if k == g then (l ++ [x.2]).drop (l.length - 15) else l
    let mean (l : List Nat) : Nat := l.foldl (· + ·) 0 / max 1 l.length
    let s := s.updPw r fun p => { p with via := hist, viaRatio := (hist.map fun l => if l.isEmpty then 0 else mean l).foldl max 0 }
    let l := hist.getD g []
    if l.length == 16 && 1536 * 16 < 5 * l.foldl (· + ·) 0 then crackedJoint s 2 (r * 256) r g (mean l) else s

/-- VIA_MEASURE (R575): every 1 ms. -/
def execViaMeasure (ratios : List (Nat × Nat)) (s : State) : Host.Outcome State Fault Refusal :=
  .next (ratios.foldl measureVia (s.periodic 4 (10 ^ 9)))

/-- TRIM_CELL_FAULT (R574): the first failure of a cluster caps its block at 7/8, the second fences it. -/
def execTrimCellFault (b t : Nat) (s : State) : Host.Outcome State Fault Refusal :=
  let p := s.blockPlan b
  if 384 ≤ b || 8 ≤ t || bit p.trimFailed t || s.blockReason b != 0 then .next s
  else
    let gen := nextGeneration s
    let s := s.updBlockPlan b fun p => { p with trimFailed := p.trimFailed ||| 2 ^ t }
    if p.trimFailed == 0 then
      .next (raise (surveyChange s) { code := 0x6001, sev := 0, level := 1, unit := blockId b, det := [blockId b, t, gen], hist := true })
    else
      let s := raise s { code := 0x6002, sev := 1, level := 1, unit := blockId b, job := holderOf s (blockCells b), ends := true
                         det := [blockId b, p.trimFailed ||| 2 ^ t, gen], hist := true, cells := blockCells b }
      .next (fenceBlock s b 8)

/-! ### Budget sharing (R581, R582, R601, R607, R608) -/

/-- The forecast levels of the next four sheets over all columns, two bits each. -/
def forecastLevels (s : State) : Nat :=
  leNat ((List.range 16).map fun k => BitVec.ofNat 8 (columnLevel s k 0 + 4 * columnLevel s k 1 + 16 * columnLevel s k 2 + 64 * columnLevel s k 3))

/-- The relief allocation that the package limit and the cold plate allow, in W. -/
def reliefTarget (s : State) : Nat :=
  let mem := min 480 (s.share.memory * 11 / 10)
  let io := min 120 (s.share.io * 11 / 10)
  let most := s.grade.reliefWatts * min s.share.flowCap s.share.inletCap / 1000000
  if s.thm.stopped then 0 else min (min (s.pwr.pkgW - mem - io - 40) s.grade.reliefWatts) most

/-- The modelled relief power of a pace code at the forecast levels of the next four sheets, in W (R582). -/
def codeWatts (s : State) (code : Nat) : Nat := Config.modelledWatts code (forecastLevels s)

/-- The pace ceiling moves to the accepted one (R586) by at most 1 W of modelled relief power in 1 ms (R601): it is the highest code on the
way that this power allows. -/
def moveCap (s : State) : State :=
  let goal := s.pwr.pendCap.getD s.pwr.capGoal
  let from_ := if s.pwr.pendCap.isSome then codeWatts s s.pwr.cap else s.pwr.capW
  let aim := codeWatts s goal
  let w := if from_ < aim then from_ + 1 else if aim < from_ then from_ - 1 else aim
  let lo := min goal s.pwr.cap
  let way := (upto lo (max goal s.pwr.cap - lo + 1)).filter fun c => decide (codeWatts s c ≤ w)
  let cap := if goal == s.pwr.cap || w == aim then goal else way.foldl max lo
  { s with pwr := { s.pwr with cap, capGoal := goal, pendCap := none, capW := w } }

/-- BUDGET_SHARE (R581, R582): every 1 ms, from the measured memory, I/O and VSTORE power in W. New limits take effect (R586);
the relief allocation moves by at most 1 W, and so does the modelled power of the budget code and of a new pace ceiling (R601). -/
def execBudgetShare (memory io vstore : Nat) (s : State) : Host.Outcome State Fault Refusal :=
  let s := readRail (readRail (s.periodic 5 (10 ^ 9)) 0) 1
  let s := { s with share := { s.share with memory, io, vstoreW := vstore }
                    pwr := { s.pwr with pkgW := s.pwr.pendPkgW.getD s.pwr.pkgW, pendPkgW := none } }
  let s := moveCap s
  let t := reliefTarget s
  let r := if s.pwr.relief < t then s.pwr.relief + 1 else if t < s.pwr.relief then s.pwr.relief - 1 else t
  let fits (w : Nat) : Nat := ((List.range (s.grade.paceMax + 1)).filter fun c => decide (codeWatts s c ≤ w)).foldl max 0
  let goal := codeWatts s (fits r)
  let w := min r (if s.pwr.budgetW < goal then s.pwr.budgetW + 1 else if goal < s.pwr.budgetW then s.pwr.budgetW - 1 else goal)
  let s := noteExcursion { s with pwr := { s.pwr with relief := r } }
  .next (latchPace (noteExcursion { s with pwr := { s.pwr with sustained := (r - vstore) * 1000 / s.pwr.setpoint, budgetW := w, budget := fits w } }))

end Sys2Proof.Machine
end

