-- ==== Sys2Proof/Machine/Heat.lean ====
section
/-! DEFINITION. Heat: sensors, thresholds, the thermal code, column governors, the cold plate, the staircase and the end of a
stop, wear (R587 to R619). Temperatures are compared in millionths of a degree. -/

namespace Sys2Proof.Machine

open Sys2Proof

/-! ### Sensors (R587 to R590) -/

/-- The first sensors of the 88 pairs. -/
def pairHeads : List Nat := (List.range 88).map (2 * ·)

/-- A sensor is marked suspect. -/
def suspect (s : State) (n : Nat) : Bool :=
  if n < 128 then bit (s.regionPlan (n / 4)).sensSuspect (n % 4)
  else if n < 160 then bit (s.regionPlan ((n - 128) / 2)).storeSuspect (n % 2)
  else bit s.thm.l0Suspect (n - 160)

/-- Marks a sensor (R589): a store-die mark stands in both regions of its column (R36). -/
def markSensor (s : State) (n : Nat) : State :=
  if n < 160 then { s with plan := suspectPlan s.plan n }
  else { s with thm := { s.thm with l0Suspect := s.thm.l0Suspect ||| 2 ^ (n - 160) } }

/-- Die, site and sensor of a sensor number (R617). -/
def sensorSite (n : Nat) : Nat × Nat × Nat :=
  if n < 64 then (1, n / 4, n % 4) else if n < 128 then (3, n / 4, n % 4)
  else if n < 160 then (2, (n - 128) / 2, n % 2) else (0, (n - 160) / 2, n - 160)

/-- A reading as a signed 32-bit word. -/
def word32 (t : Int) : Nat := (t % 2 ^ 32).toNat

/-- A sensor's last reading. -/
def reading (s : State) (n : Nat) : Int := sget 0 s.thm.reading n

/-- The governing temperature of a pair, in quarter degrees (R588). -/
def governing (s : State) (n : Nat) : Int :=
  let a := reading s n
  let b := reading s (n + 1)
  match suspect s n, suspect s (n + 1) with
  | false, false => max a b
  | true, false => b + 16
  | false, true => a + 16
  | true, true => max a b + 16

/-- Quarter degrees to millionths of a degree. -/
def micro (t : Int) : Int := t * 250000

/-- A column's estimate governs (R592): it has since it was found too far above both readings, which leaves both sensors suspect for good
(R589), so it does after every reset too (DEDUCED; log entry 56). -/
def estGoverns (s : State) (c : Nat) : Bool := (s.column c).estGoverns || (suspect s (128 + 2 * c) && suspect s (129 + 2 * c))

/-- The store-die temperature of a column in force (R592). -/
def storeTemp (s : State) (c : Nat) : Int :=
  let g := micro (governing s (128 + 2 * c))
  if estGoverns s c then max (s.column c).tEst g else g

/-- The hotter governing temperature of a region. -/
def regionTemp (s : State) (r : Nat) : Int := max (governing s (4 * r)) (governing s (4 * r + 2))

/-- The sites with their temperatures, throttling starts and emergency thresholds (R593). -/
def siteHeat (s : State) : List (Int × Int × Int) :=
  ((List.range 64).map fun k => (micro (governing s (2 * k)), micro 380, micro 420)) ++
  ((List.range 16).map fun c => (storeTemp s c, micro 352, micro 380)) ++
  ((List.range 8).map fun p => (micro (governing s (160 + 2 * p)), micro 380, micro 420)) ++
  ((List.range 12).map fun n => ((s.stack n).temp * 1000000, micro 360, micro 380))

/-- The record of a sensor's mark (R617); `chain` for the second of a pair marked at once. -/
def sensorRecord (s : State) (n head gen : Nat) (chain : Bool) : State :=
  let (die, site, k) := sensorSite n
  raiseChip s 0x6101 0 7 0 0 [die, site, k, word32 (reading s head), word32 (reading s (head + 1)), gen] true chain

/-- SENSOR_SUSPECT (R589): the mark, the record, its republication. -/
def suspectSensor (s : State) (n head : Nat) : State :=
  sensorRecord (surveyChange (markSensor s n)) n head (nextGeneration s) false

/-- A pair's disagreement (R589): more than 4 °C at every sample for more than 100 ms marks the lower sensor. -/
def judgePair (s : State) (n : Nat) : State :=
  let a := reading s n
  let b := reading s (n + 1)
  let apart := !suspect s n && !suspect s (n + 1) && decide (16 < max a b - min a b)
  let from_ : Nat := sget 0 s.thm.differFrom n
  if !apart then { s with thm := { s.thm with differFrom := sdel s.thm.differFrom n } }
  else if from_ == 0 then { s with thm := { s.thm with differFrom := sset 0 s.thm.differFrom n (max 1 s.clk.ps) } }
  else if from_ + 10 ^ 11 < s.clk.ps then suspectSensor s (if a ≤ b then n else n + 1) n else s

/-- The trip threshold of a sensor, in quarter degrees (R593). -/
def tripAt (n : Nat) : Int := if 128 ≤ n ∧ n < 160 then 400 else 440

/-- The items of THERMAL_TRIP, where a trip threshold is reached (R590, R593, R596): by a reading, by a stack's readout, by a pair's
governing temperature, by a column's store-die temperature. -/
def tripItems (s : State) (rs : List (Nat × Int)) : Option (List Nat) :=
  let sensor (n : Nat) (t : Int) : List Nat := [(sensorSite n).2.1, (sensorSite n).2.2, word32 t]
  match rs.find? fun x => decide (tripAt x.1 ≤ x.2) with
  | some x => some (sensor x.1 x.2)
  | none => match (List.range 12).find? fun n => decide (100 ≤ (s.stack n).temp) with
    | some n => some [n, 0, word32 ((s.stack n).temp * 4)]
    | none => match pairHeads.find? fun n => decide (tripAt n ≤ governing s n) with
      | some n => some (sensor n (governing s n))
      | none => ((List.range 16).find? fun c => decide (micro 400 ≤ storeTemp s c)).map fun c =>
          [c, 0, word32 (storeTemp s c / 250000)]

/-- SENSOR_SAMPLE (R587 to R596): every 50 µs, the readings in quarter degrees by sensor number. A trip stops the part; a site at
its emergency threshold throttles it, at most once a millisecond. -/
def execSensorSample (readings : List (Nat × Int)) (s : State) : Host.Outcome State Fault Refusal :=
  let s := s.periodic 6 50000000
  let rs := readings.filter fun x => decide (x.1 < 176)
  let s := rs.foldl (fun s x => { s with thm := { s.thm with reading := sset 0 s.thm.reading x.1 x.2 } }) s
  let s := pairHeads.foldl judgePair s
  let s := match tripItems s rs with
    | some items => emergencyStop s 2 0x6106 items
    | none => s
  let sites := siteHeat s
  let cool := sites.all fun x => decide (x.1 ≤ x.2.1 - micro 40)
  let s := { s with thm := { s.thm with coolFrom := if cool then some (s.thm.coolFrom.getD s.clk.ps) else none } }
  let hot := sites.any fun x => decide (x.2.2 ≤ x.1)
  if hot && s.thm.lastThrottle.all (fun t => decide (t + 10 ^ 9 ≤ s.clk.ps)) then
    .next (emergencyThrottle { s with thm := { s.thm with lastThrottle := some s.clk.ps } } true)
  else .next s

/-- THERMAL_CODE_UPDATE (R594, R597): every 1 ms. -/
def execThermalCodeUpdate (s : State) : Host.Outcome State Fault Refusal :=
  let s := s.periodic 7 (10 ^ 9)
  let sites := siteHeat s
  let code :=
    if sites.any fun x => decide (x.2.1 ≤ x.1) then s.pwr.thermal - 2
    else if sites.all (fun x => decide (x.1 ≤ x.2.1 - micro 8)) && !s.thm.holdCode then min s.grade.paceMax (s.pwr.thermal + 1)
    else s.pwr.thermal
  .next (latchPace { s with pwr := { s.pwr with thermal := code } })

/-! ### Column governors (R598, R599) -/

/-- A region's draw in mW at its block target. -/
def regionMw (s : State) (r : Nat) : Nat := (s.region r).pw.draw * targetHalf s r s.pwr.pace / 2000

/-- The weighted power of a column over its last 8 samples, in mW. -/
def weightedMw (l : List (Nat × Nat)) : Nat :=
  let n := max 1 l.length
  let a := (l.map (·.1)).foldl (· + ·) 0
  let b := (l.map (·.2)).foldl (· + ·) 0
  (125 * a + 100 * b) / (100 * n)

/-- The limit of a column in mW. -/
def columnLimit (s : State) (c : Nat) : Nat :=
  let t := max (storeTemp s c) (max (micro (regionTemp s c)) (micro (regionTemp s (c + 16))))
  max 60000 (s.thm.wMax * 1000 - ((t - micro 360) / 100).toNat)

/-- Changes a region's issue fraction. -/
def setFrac (s : State) (r n : Nat) : State := s.updPw r fun p => { p with frac := n }

/-- One column's governor. -/
def governColumn (s : State) (c : Nat) : State :=
  let l := (s.column c).samples
  let l := (l ++ [(regionMw s c, regionMw s (c + 16))]).drop (l.length - 7)
  let s := s.updColumn c fun x => { x with samples := l }
  let w := weightedMw l
  let lim := columnLimit s c
  let f1 := (s.region c).pw.frac
  let f3 := (s.region (c + 16)).pw.frac
  if lim < w then (if 2 < f1 then setFrac s c (f1 - 1) else if 2 < f3 then setFrac s (c + 16) (f3 - 1) else s)
  else if 10 * w < 9 * lim && (s.column c).raised + 8000000 ≤ s.clk.ps && (f1 < 8 || f3 < 8) then
    let s := s.updColumn c fun x => { x with raised := s.clk.ps }
    if f3 < 8 then setFrac s (c + 16) (f3 + 1) else setFrac s c (f1 + 1)
  else s

/-- COLUMN_GOVERNOR (R598, R599): every 1 µs. What it withholds is what its fraction takes beyond the ledger's (DESIGN CHOICE; log entry 56). -/
def execColumnGovernor (s : State) : Host.Outcome State Fault Refusal :=
  let c0 := s.clk.cycles
  let s := s.periodic 8 1000000
  let s := s.countChip 0xF02 (withheld s (s.clk.cycles - c0) fun p => 8 - (ledgerClip p - issueFraction p))
  .next ((List.range 16).foldl governColumn s)

/-! ### The cold plate (R605 to R610) -/

/-- FLOW_IN_PULSE (R751): a pulse falls `after` ps from now. -/
def execFlowInPulse (after : Nat) (s : State) : Host.Outcome State Fault Refusal :=
  let s := s.advancePs after
  .next { s with thm := { s.thm with
    interval := (s.thm.lastPulse.map fun t => s.clk.ps - t).getD 0, lastPulse := some s.clk.ps } }

/-- F in µL/min (R606), rounded down. -/
def flowNow (s : State) : Nat :=
  match s.thm.lastPulse with
  | none => 0
  | some p =>
    let t := max s.thm.interval (s.clk.ps - p)
    if t == 0 then 0 else 60 * 10 ^ 18 / (s.thm.kFactor * t)

/-- The flow cap in millionths (R607). -/
def flowFraction (f : Nat) : Nat :=
  if 2000000 ≤ f then 1000000 else if 1200000 ≤ f then 500000 + (f - 1200000) * 625 / 1000 else 500000

/-- The inlet cap in millionths (R608). -/
def inletFraction (valid : Bool) (tin : Int) (most : Nat) : Nat :=
  let above := if valid then tin - 4 * (most : Int) else 40
  if above ≤ 0 then 1000000 else max 500000 (1000000 - above.toNat * 6250)

/-- A thermistor input at an update (R608): COOLANT_SENSOR when it turns invalid. The input item is not coded (log entry 2). -/
def thermistor (s : State) (bad was : Bool) (t : Int) (q watts : Nat) : State :=
  if bad && !was then let (w, s) := s.fresh; raiseChip s 0x6104 0 7 0 0 [w.toNat, word32 t, q, watts] false true else s

/-- The heat-balance check (R609), from the heat carried away and the package power in W. -/
def heatBalance (s : State) (judged : Bool) (q watts : Nat) : State :=
  let now := s.clk.ps
  let low := judged && decide (2 * q < watts)
  let bad := if low then some (s.thm.badFrom.getD now) else none
  let good := if judged && !low then some (s.thm.goodFrom.getD now) else none
  let s := { s with thm := { s.thm with badFrom := bad, goodFrom := good } }
  let s := if good.any fun t => decide (t + 6 * 10 ^ 13 ≤ now) then { s with thm := { s.thm with flowDoubt := false } } else s
  if bad.any (fun t => decide (t + 5 * 10 ^ 12 ≤ now)) && !s.thm.flowDoubt then
    let (w, s) := s.fresh
    raiseChip { s with thm := { s.thm with flowDoubt := true, implaus := true } } 0x6104 0 7 0 0 [w.toNat, s.thm.flow, q, watts] false true
  else s

/-- COOLANT_LOW (R607): when the flow cap first applies, and at each further 0.2 L/min. -/
def coolantLow (s : State) (f cap : Nat) : State :=
  if 2000000 ≤ f then { s with thm := { s.thm with lowMark := none } }
  else if s.thm.lowMark.all fun m => decide (f + 200000 ≤ m) then
    raiseChip { s with thm := { s.thm with lowMark := some f } } 0x6103 0 7 0 0 [f, cap] false true
  else s

/-- FLOW_UPDATE (R606 to R610): every 1 ms, with the thermistor readings in quarter degrees and the package power in W. -/
def execFlowUpdate (tin tout : Int) (watts : Nat) (s : State) : Host.Outcome State Fault Refusal :=
  let s := s.periodic 9 (10 ^ 9)
  let now := s.clk.ps
  let f := flowNow s
  let badIn := decide (tin < -40 ∨ 400 < tin)
  let badOut := decide (tout < -40 ∨ 400 < tout)
  let q := ((f : Int) * (tout - tin) / 60000).toNat
  let wasIn := s.thm.tinBad
  let wasOut := s.thm.toutBad
  let fs := (s.thm.flows.filter fun e => decide (now ≤ e.1 + 10 ^ 11)) ++ [(now, f)]
  let most := (fs.map (·.2)).foldl max 0
  let okFrom := if 1200000 ≤ f then some (s.thm.flowOkFrom.getD now) else none
  let s := { s with thm := { s.thm with
    tin, tout, tinOk := !badIn, toutOk := !badOut, tinBad := badIn, toutBad := badOut, flow := f, flows := fs, flowOkFrom := okFrom } }
  let s := thermistor (thermistor s badIn wasIn tin q watts) badOut wasOut tout q watts
  let s := heatBalance s (decide (400 ≤ watts) && !badIn && !badOut) q watts
  let taken := if s.thm.flowDoubt then min f 1200000 else f
  let cap := flowFraction taken
  let s := { s with share := { s.share with flowCap := cap, inletCap := inletFraction (!badIn) tin s.thm.tinMax } }
  let s := coolantLow s taken cap
  if s.thm.stopped then .next s
  else if f < 600000 then .next (emergencyStop s 0 0x6105 [f, most, 0])
  else if 2 * f < most then .next (emergencyStop s 1 0x6105 [f, most, 1])
  else .next s

/-! ### The staircase and the end of the stop (R611 to R614) -/

/-- A region releases its whole draw and its power gate opens. -/
def darkRegion (s : State) (r : Nat) : State :=
  s.updPw r fun p => { p with gated := true, wake := none, grant := 0, draw := 0, want := 0, ballast := 0, gliding := [],
                              stretchFrom := none, wakeClip := none, clip := 8 }

/-- STAIRCASE_STEP (R611, R612): the next step of 1 µs ends. The last one logs GLIDE_WAIVED. -/
def execStaircaseStep (s : State) : Host.Outcome State Fault Refusal :=
  match s.thm.staircase with
  | none => .next s
  | some k =>
    let s := s.untilPs (s.thm.stopAt + (k + 1) * 1000000)
    let s := darkRegion (darkRegion s (2 * k)) (2 * k + 1)
    if k < 15 then .next { s with thm := { s.thm with staircase := some (k + 1) } }
    else .next (raiseChip { s with thm := { s.thm with staircase := none } } 0x6107 0 7 0 0 [s.thm.stopCause, s.thm.stopWatts] false true)

/-- RESUME (R614): a write of THM_CTRL.RESUME ends the stop where the conditions of every cause it had hold; relief power rises from 0. -/
def execResume (s : State) : Host.Outcome State Fault Refusal :=
  let held (x : Option Nat) : Bool := x.any fun t => decide (t + 10 ^ 13 ≤ s.clk.ps)
  let had (k : Nat) : Bool := bit s.thm.stopMask k
  let ok := (!(had 0 || had 1) || held s.thm.flowOkFrom) && (!had 2 || held s.thm.coolFrom) && !had 3
  if !datumReach s 7 || !s.thm.stopped || !ok then .next s
  else .next { s with thm := { s.thm with stopped := false, stopMask := 0 }, pwr := { s.pwr with relief := 0 } }

/-- WEAR_COUNT (R615): each second. -/
def execWearCount (s : State) : Host.Outcome State Fault Refusal :=
  let s := s.periodic 10 (10 ^ 12)
  .next ((List.range 32).foldl (fun s r =>
    let t := regionTemp s r
    let n := if 380 ≤ t then 2 else if 340 ≤ t then 1 else 0
    { s with thm := { s.thm with wear := supd 0 s.thm.wear r fun v => sat32 v n } }) s)

/-- THM_ADVICE for a column (R615). -/
def advice (s : State) (c : Nat) : Nat :=
  let l : Nat := sget 0 s.thm.wear c
  let u : Nat := sget 0 s.thm.wear (c + 16)
  if l < 600 && u < 600 then 0 else if 4 * u ≤ 5 * l then 1 else 2

end Sys2Proof.Machine
end

