-- ==== Sys2Proof/Machine/Store.lean ====
section
/-! DEFINITION. Store-die events: the end of a bond test, the scrubbers, error injection (R372 to R376, R391 to R396). -/

namespace Sys2Proof.Machine

open Sys2Proof

/-! ### Bond tests (R372 to R376) -/

/-- The bonds of a half that spares replace. -/
def replaced (p : CellPlan) (west : Bool) : List Nat := if west then p.westSpares else p.eastSpares

/-- Unused spares of a half. -/
def sparesLeft (p : CellPlan) (west : Bool) : Nat := 16 - (replaced p west).length

/-- The failed bonds that a test found and that no spare replaces yet (R373, R377). -/
def failedBonds (p : CellPlan) (west : Bool) (found : List Nat) : List Nat :=
  (found.filter fun b => decide (b < 560) && !(replaced p west).contains b).dedup

/-- Failed bonds take spares: one record each, all in one generation (R373, R376). -/
def takeSpares (s : State) (c : Nat) (west : Bool) (failed : List Nat) : State :=
  let gen := nextGeneration s
  let left := sparesLeft (s.cellPlan c) west
  let s := surveyChange (s.updCellPlan c fun p =>
    if west then { p with westSpares := p.westSpares ++ failed } else { p with eastSpares := p.eastSpares ++ failed })
  failed.zipIdx.foldl (fun s e => raiseCell s 0x0607 0 c none [b2n west, e.1, left - (e.2 + 1), gen] 0 false true) s

/-- A half is retired; the second one fences its cell (R373, R375), for this reason, in the same generation. -/
def retireHalf (s : State) (c : Nat) (west : Bool) (n reason : Nat) : State :=
  let gen := nextGeneration s
  let s := s.updCellPlan c fun p => if west then { p with westGone := true } else { p with eastGone := true }
  let s := raiseCell s 0x0608 1 c none [b2n west, n, gen] 0 false true
  let p := s.cellPlan c
  republish (if p.eastGone && p.westGone then fenceCellPlan (raiseCell s 0x0609 1 c none [b2n west, gen] (holderOf s [c]) true true) c reason
    else s) gen

/-- BOND_TEST_END (R373 to R375): a half's test ends with these failed bonds; a test that waited begins. -/
def execBondTestEnd (c : Nat) (west : Bool) (failed : List Nat) (s : State) : Host.Outcome State Fault Refusal :=
  let u := (s.cell c).plumb
  match (if west then u.westTest else u.eastTest) with
  | none => .next s
  | some t =>
    if !s.goodCell c then .next s
    else
      let s := s.untilCycle t
      let s := s.updPlumb c fun p => if west then { p with westTest := none } else { p with eastTest := none }
      let bonds := failedBonds (s.cellPlan c) west failed
      let s := if bonds.isEmpty then s
        else if bonds.length ≤ sparesLeft (s.cellPlan c) west then takeSpares s c west bonds
        else retireHalf s c west bonds.length 3
      let waits := if west then u.eastWait else u.westWait
      if !waits then .next s
      else
        let s := s.updPlumb c fun p => if west then { p with eastWait := false } else { p with westWait := false }
        .next (startTest s c (!west))

/-! ### Scrubbers (R391 to R394) -/

/-- The line of a good granule that a scrubber reads next, and whether it wrapped to reach it. -/
def scrubLine (s : State) (c : Nat) : Option (Nat × Bool) :=
  let gs := s.goodGranules c
  let pos := (s.cell c).stash.scrubPos
  if gs.contains (pos / 256) then some (pos, false)
  else match gs.find? fun g => decide (pos / 256 < g) with
    | some g => some (g * 256, false)
    | none => gs.head?.map fun g => (g * 256, true)

/-- A lap of a scrubber ends (R393, R394): the interval adapts, the counts of the lap restart. -/
def scrubWrap (s : State) (c : Nat) : State :=
  let most := (s.region (regionOf c)).scrubMax
  let s := s.updRegion (regionOf c) fun r => { r with laps := sat16 r.laps 1 }
  s.updStash c fun x =>
    let k := if 2 ≤ x.lapCorrected then x.scrubLog2 - 1 else if x.lapCorrected == 0 then x.scrubLog2 + 1 else x.scrubLog2
    { x with scrubLog2 := max 8 (min most k), lapCorrected := 0, corrWords := [] }

/-- A scrubber treats one word of a written line (R392). -/
def scrubWord (c line : Nat) (s : State) (w : Nat) : State :=
  let key := line * 8 + w
  let m : Nat := sget 0 (s.cell c).stash.bad key
  if m == 0 then s
  else if popcount 72 m == 1 then
    countCorrected (s.updStash c fun x => { x with bad := sdel x.bad key, lapCorrected := x.lapCorrected + 1 }) c key
  else
    let s := s.updRegion (regionOf c) fun r => { r with stsUncorr := true }
    raiseCell (markGranule s c (line / 256)) 0x0604 0 c none [line, w]

/-- The check-array words of a granule are scrubbed with it (R391): a pair comes with the first line of its first block, and is
treated as a word is (log entry 48). -/
def scrubPair (s : State) (c line : Nat) : State :=
  if line % 128 != 0 then s
  else
    let k := line / 128
    let m : Nat := sget 0 (s.cell c).stash.badChecks k
    if m == 0 then s
    else if popcount 72 m == 1 then
      countCorrected (s.updStash c fun x => { x with badChecks := sdel x.badChecks k, lapCorrected := x.lapCorrected + 1 }) c (pairKey k)
    else
      let s := s.updRegion (regionOf c) fun r => { r with stsUncorr := true }
      raiseCell (markGranule s c (line / 256)) 0x0604 0 c none [line, 0]

/-- SCRUB_READ (R391 to R394): a scrubber reads its next line, an interval after the last. -/
def execScrubRead (c : Nat) (ph : List Phys) (s : State) : Host.Outcome State Fault Refusal :=
  let s := injectAll s ph
  if !s.goodCell c then .next s
  else
    let s := s.untilCycle ((s.cell c).stash.scrubAt + 2 ^ (s.cell c).stash.scrubLog2)
    let s := s.updStash c fun x => { x with scrubAt := s.clk.cycles }
    match scrubLine s c with
    | none => .next s
    | some (line, wrapped) =>
      let s := if wrapped then scrubWrap s c else s
      let s := if lineWritten s c line then (List.range 8).foldl (scrubWord c line) s
        else s.updStash c fun x => { x with bad := (List.range 8).foldl (fun m w => sdel m (line * 8 + w)) x.bad }
      .next (retireGranules ((scrubPair s c line).updStash c fun x => { x with scrubPos := line + 1 }) c)

/-! ### Injection (R396) -/

/-- STS_FLIP_ARM (R396): before LOCK, a write of ARM arms the injection. -/
def execStsFlipArm (c : Nat) (s : State) : Host.Outcome State Fault Refusal :=
  .next (if s.rst.locked || !s.goodCell c || reach s (cellBase c + 0x290) = .dead then s else s.updStash c fun x => { x with flipArmed := true })

end Sys2Proof.Machine
end

