-- ==== Sys2Proof/Machine/StackEvents.lean ====
section
/-! DEFINITION. Stack-controller events: refresh, temperature, patrol, loss of training (R420 to R425). -/

namespace Sys2Proof.Machine

open Sys2Proof

/-- A stack that works: trained and not fenced. -/
def stackLive (s : State) (n : Nat) : Bool := decide (n < 12) && (s.stack n).trained && !(s.stackPlan n).fenced

/-- REFRESH (R420, R421): a bank's refresh is due. It may be postponed while the bank is busy, at most 8 at once; the postponed
ones are then made up. In D3hot the stack refreshes itself (R403). -/
def execRefresh (n bank : Nat) (busy : Bool) (s : State) : Host.Outcome State Fault Refusal :=
  if !stackLive s n || 4128 ≤ bank || s.hif.d3hot then .next s
  else
    let k : Nat := sget 0 (s.stack n).postponed bank
    if busy && k < 8 then
      .next (s.updStack n fun x => { x with postponed := sset 0 x.postponed bank (k + 1), postponeMax := max x.postponeMax (k + 1) })
    else
      .next (catchUp (s.updStack n fun x => { x with postponed := sset 0 x.postponed bank (k + 1) }) n bank)

/-- STACK_TEMP_READOUT (R420): every 32 µs, in °C; above 85 °C the refresh interval halves. -/
def execStackTempReadout (n : Nat) (temp : Int) (s : State) : Host.Outcome State Fault Refusal :=
  if !stackLive s n then .next s
  else
    let s := (s.periodic (20 + n) 32000000).emit (.stack n .readTemp)
    .next (s.updStack n fun x => { x with temp, doubled := decide (85 < temp) })

/-- Code words of a stack's data (R401, R408). -/
def stackWords (n : Nat) : Nat := if n < 8 then 2 ^ 32 else 3 * 2 ^ 30

/-- The code word at a position of the patrol: the data, then the check words (R409, R422). -/
def patrolWord (n pos : Nat) : Nat := if pos < stackWords n then pos else checkWord (pos - stackWords n)

/-- Positions of a lap. -/
def lapLength (n : Nat) : Nat := stackWords n + stackWords n / 128

/-- A lap of a patrol ends (R422, R423). -/
def patrolWrap (x : StackSt) : StackSt :=
  let k := x.lapWords.length
  { x with patrolPos := 0, laps := sat16 x.laps 1, lapWords := [], pairWords := [],
           lapCode := if 4 ≤ k then x.lapCode - 1 else if k == 0 then min 4 (x.lapCode + 1) else x.lapCode }

/-- PATROL_READ (R422, R423): the patrol reads its next code word. -/
def execPatrolRead (n : Nat) (ph : List Phys) (s : State) : Host.Outcome State Fault Refusal :=
  let s := injectAll s ph
  if !stackLive s n then .next s
  else
    let w := patrolWord n (s.stack n).patrolPos
    let s := refreshFirst s n (pairOf (blockOfWord w))
    let m : Nat := sget 0 (s.stack n).bad w
    let s :=
      if m == 0 then s
      else if popcount 36 m == 1 then
        let s := correctMem s n w
        s.updStack n fun x => { x with lapWords := if x.lapWords.contains w then x.lapWords else x.lapWords ++ [w] }
      else uncorrMem (raiseChip s 0x4004 0 1 n 0 (n :: item64 (unresolve s n (addrOfWord w)))) n w
    let s := s.updStack n fun x => { x with patrolPos := x.patrolPos + 1 }
    .next (if lapLength n ≤ (s.stack n).patrolPos then s.updStack n patrolWrap else s)

/-- STACK_TRAINING_LOST (R425): device firmware begins to retrain the interface. -/
def execStackTrainingLost (n : Nat) (s : State) : Host.Outcome State Fault Refusal :=
  if !stackLive s n || (s.stack n).lost.isSome then .next s
  else .next (s.updStack n fun x => { x with lost := some s.clk.ps })

/-- STACK_RETRAIN_DONE (R425): the stack is retrained within 10 ms. -/
def execStackRetrainDone (n : Nat) (s : State) : Host.Outcome State Fault Refusal :=
  match (s.stack n).lost with
  | none => .next s
  | some t => if t + 10 ^ 10 < s.clk.ps then .next s else .next (s.updStack n fun x => { x with lost := none })

/-- STACK_FENCED (R425): 10 ms pass without training; the stack's addresses become unbacked. -/
def execStackFenced (n : Nat) (s : State) : Host.Outcome State Fault Refusal :=
  match (s.stack n).lost with
  | none => .next s
  | some t =>
    let s := s.untilPs (t + 10 ^ 10)
    let s := raiseChip (s.updStack n fun x => { x with lost := none }) 0x4009 1 1 n 0 [n, nextGeneration s] true
    .next (surveyChange (s.updStackPlan n fun p => { p with fenced := true }))

end Sys2Proof.Machine
end

