-- ==== Sys2Proof/Machine/Survey.lean ====
section
/-! DEFINITION. The survey record: the NOR copies, fence requests, the commit and the switch of a generation (R42 to R56, R669 to
R673). -/

namespace Sys2Proof.Machine

open Sys2Proof

/-! ### The NOR (R669 to R673) -/

/-- NOR_WRITE_FAIL (R673, R674). -/
def norWriteFail (s : State) (kind slot : Nat) : State := raiseChip s 0x3403 1 0 0 0 [kind, slot]

/-- Writes a survey record; `fails` counts the failed writes (R671): the second leaves its slot without a commit byte (R673). -/
def writeSurvey (s : State) (x : Snap) (fails : Nat) : State :=
  let (a, b, n) := writeSurveySlots s x (decide (fails < 2))
  let s := { s with keep := { s.keep with surveyA := a, surveyB := b } }
  if fails < 2 then s else norWriteFail s 3 n

/-! ### Requests and publication (R42 to R50, R56) -/

/-- A UNIT and LEVEL that name a unit (R21, R56). -/
def namesUnit (u lvl : Nat) : Bool :=
  match lvl with
  | 0 => validCell u
  | 1 => validCell u && codeOf u == 0
  | 2 => validCell u && u % 256 == 0
  | _ => false

/-- SVY_FENCE_REQ (R56): a write with GO is ignored, held, or takes effect at once. -/
def execSvyFenceReq (value : Nat) (s : State) : Host.Outcome State Fault Refusal :=
  let u := value % 2 ^ 13
  let lvl := bits value 14 13
  if !s.up 2 || s.inReset 0 6 || !bit value 31 || !namesUnit u lvl || s.svy.request.isSome then .next s
  else .next (applyRequest { s with svy := { s.svy with request := some (u, lvl) } })

/-- SURVEY_COMMIT (R45, R46): firmware writes the generation being built to the NOR, its commit byte last; `fails` counts
the failed writes. The window switches at the next tick in either case (R673). -/
def execSurveyCommit (fails : Nat) (s : State) : Host.Outcome State Fault Refusal :=
  match s.svy.building with
  | none => .next s
  | some x =>
    if s.svy.committed then .next s
    else .next (writeSurvey { s with svy := { s.svy with committed := true } } x fails)

/-- The window switches to the committed generation; a waiting one begins its build (R45 to R47). -/
def switchSurvey (s : State) : State :=
  match s.svy.building with
  | none => s
  | some x =>
    if !s.svy.committed then s
    else
      let w := { x with tick := s.sht.tick }
      let t := { s with svy := { s.svy with window := some w, changed := true, fromTest := w.fromTest, building := none, committed := false, waiting := false } }
      if s.svy.waiting then startBuild t (snap s (w.generation + 1) w.fromTest) else t

/-! ### The merge of PUBLISH_SURVEY (R42, R43) -/

/-- What either of two maps lists at a key, joined. -/
def joinMaps {α : Type} [DecidableEq α] (d : α) (join : α → α → α) (a b : Sparse α) : Sparse α :=
  b.foldl (fun m e => supd d m e.1 fun v => join v e.2) a

/-- The first of two fence reasons stands (R639). -/
def firstReason (a b : Nat) : Nat := if a != 0 then a else b

/-- The less capacity of two cells (R43); the last bank or granule that goes takes the cell with it (R29). -/
def joinCell (c : Nat) (p q : CellPlan) : CellPlan :=
  let banks := p.banksGone ||| q.banksGone
  let gran := p.granGone ||| q.granGone
  let east := p.eastGone || q.eastGone
  let west := p.westGone || q.westGone
  let lost := if kindOf c = .M && banks % 16 == 15 then 6 else if gran % 2 ^ granules (kindOf c) + 1 == 2 ^ granules (kindOf c) then 7
    else if east && west then 3 else 0
  { reason := firstReason (firstReason p.reason q.reason) lost, eastGone := east, westGone := west,
    eastSpares := (p.eastSpares ++ q.eastSpares).dedup, westSpares := (p.westSpares ++ q.westSpares).dedup,
    banksGone := banks, granGone := gran }

/-- The less capacity of two blocks. -/
def joinBlock (p q : BlockPlan) : BlockPlan := ⟨firstReason p.reason q.reason, p.trimFailed ||| q.trimFailed⟩

/-- The less capacity of two regions. -/
def joinRegion (p q : RegionPlan) : RegionPlan :=
  ⟨firstReason p.reason q.reason, p.capped || q.capped, p.sensSuspect ||| q.sensSuspect, p.storeSuspect ||| q.storeSuspect⟩

/-- The merge of two sources: it never clears a fence or returns a spare, and the one with less capacity stands (R43). The
memory stacks are those of the second. -/
def mergePlan (a b : Plan) : Plan :=
  { cells := b.cells.foldl (fun m e => supd {} m e.1 fun v => joinCell e.1 v e.2) a.cells
    blocks := joinMaps {} joinBlock a.blocks b.blocks
    regions := joinMaps {} joinRegion a.regions b.regions
    stk := b.stk }

/-- What one entry of the error history says of the floor plan (R42, R672): the plan that holds that change alone. -/
def entryPlan (e : Bytes) : Plan :=
  let unit := num e 8 2
  let base := if bit (num e 4 4) 23 then 3 else 0
  let d (k : Nat) : Nat := num e (24 + 4 * (base + k)) 4
  let cell (p : CellPlan) : Plan := { cells := sset {} [] unit p }
  match num e 4 2 with
  | 0x0202 => cell { reason := 4 }
  | 0x0402 => cell { reason := 5 }
  | 0x0204 => cell { banksGone := 2 ^ (d 0 % 4) }
  | 0x0205 => cell { banksGone := 2 ^ (d 0 % 4) }
  | 0x0605 => cell { granGone := 2 ^ (d 0 % 32) }
  | 0x0607 => cell (if d 0 == 1 then { westSpares := [d 1] } else { eastSpares := [d 1] })
  | 0x0608 => cell (if d 0 == 1 then { westGone := true } else { eastGone := true })
  | 0x0609 => cell { reason := 3, eastGone := true, westGone := true }
  | 0x6001 => { blocks := sset {} [] (blockIndex unit) { trimFailed := 2 ^ (d 1 % 8) } }
  | 0x6002 => { blocks := sset {} [] (blockIndex unit) { reason := 8, trimFailed := d 1 % 256 } }
  | 0x6003 => { regions := sset {} [] (d 0) { capped := true } }
  | 0x6101 => suspectPlan {} (if d 0 == 0 then 160 else if d 0 == 2 then 128 + 2 * d 1 + d 2 else 4 * d 1 + d 2)
  | 0x6102 => suspectPlan (suspectPlan {} (128 + 2 * d 0)) (129 + 2 * d 0)
  | 0x2001 => { regions := sset {} [] (regionOf unit) { reason := 0xB } }
  | _ => {}

/-- What is wrong with an entry of the error history (R674): 1 its commit byte, 4 its CRC. -/
def entryFault (e : Bytes) : Nat := if num e 60 1 != 0x5A then 1 else if num e 56 4 != crc32c (slice e 0 56) then 4 else 0

/-- The datum-die suspect marks that the valid entries of the error history hold (R42, R619, R672). -/
def historyL0 (h : List Bytes) : Nat :=
  h.foldl (fun m e =>
    if num e 4 2 == 0x6101 && num e 24 4 == 0 then m ||| 2 ^ (num e 32 4 % 16)
    else if num e 4 2 == 0 && num e 6 1 == 2 then m ||| num e 40 4 else m) 0

/-- A fenced S cell takes its block with it (R27, R32). -/
def closePlan (p : Plan) : Plan :=
  let inS (m : Sparse BlockPlan) (e : Nat × CellPlan) : Sparse BlockPlan :=
    if kindOf e.1 = .S && e.2.reason != 0 then supd {} m (blockIndex e.1) fun b => { b with reason := firstReason b.reason 0xA } else m
  { p with blocks := p.cells.foldl inS p.blocks }

/-- The floor plan of generation 1 (R42): the base, the error history's changes in order, and the plan that TEST_STACK and
TRAIN_MEM leave. A unit fenced in hardware keeps the reason of that fence. -/
def bootPlan (s : State) (base : Plan) (h : List Bytes) : Plan :=
  closePlan { mergePlan s.plan ((h.map entryPlan).foldl mergePlan base) with stk := s.plan.stk }

end Sys2Proof.Machine
end

