-- ==== Sys2Proof/Machine/Reset.lean ====
section
/-! DEFINITION. Resets: power-on, RESET_N, rail loss, PCIe in-band reset, reset domains, software resets, compatibility resets
(R648 to R662, R745 to R747). -/

namespace Sys2Proof.Machine

open Sys2Proof

/-! ### Power-on and RESET_N (R649, R650, R745 to R747) -/

/-- The staircase of 16 µs comes first while VCORE is drawing (R747). -/
def staircaseFirst (s : State) : State :=
  if s.regions.any fun e => e.2.pw.draw + e.2.pw.ballast != 0 then s.advancePs 16000000 else s

/-- The power controller at its reset values: the limits and codes start at the grade's (R2, R586). -/
def coldPwr (s : State) : Pwr :=
  let top := s.grade.paceMax
  { pkgW := s.grade.pkgWatts, cap := top, capGoal := top, margin := top, budget := top, thermal := top }

/-- Every register at its reset value; the queue, what the part has sent, SI time, the pins, the NOR, the fuses and every
fence stay (R649); the limits and codes start at the grade's (R2, R586). What firmware had not yet appended to the error history
is lost. D0 waits from now on (R650), the reference clock runs (R653), and core cycles count from here (R507). -/
def coldState (s : State) (cause : Nat) : State :=
  { pending := s.pending, freeCtr := s.freeCtr, out := s.out, clk := { ps := s.clk.ps }, pins := s.pins, keep := { s.keep with historyQ := [] },
    plan := s.plan, pwr := coldPwr s,
    rst := { lastCause := cause, d0Since := some s.clk.ps, refSince := s.clk.ps } }

/-- POWER_ON (R649, R745): VAUX rises to good, and the other rails after it. -/
def execPowerOn (s : State) : Host.Outcome State Fault Refusal :=
  if s.pins.vaux then .next s
  else .next (coldState { s with pins := { s.pins with vaux := true, pg := 31, resetN := true, refclk := true } } 0)

/-- RESET_N (R648, R649, R747): the pin is held low for at least 1 µs, and rises again. -/
def execResetN (s : State) : Host.Outcome State Fault Refusal :=
  if !s.pins.vaux then .next s else .next (coldState ((staircaseFirst s).advancePs 1000000) 1)

/-- POWER_OFF (R746): VAUX falls; the other rails have fallen before it. -/
def execPowerOff (s : State) : Host.Outcome State Fault Refusal :=
  let t := coldState s 0
  .next { t with pins := { t.pins with vaux := false, pg := 0 }, rst := { t.rst with d0Since := none } }

/-- FUSE_FAULT (R677, R693). -/
def fuseFault (s : State) (field : Nat) : State :=
  raiseChip { s with sec := { s.sec with fuseFault := true } } 0x8006 3 8 0 0 [field]

/-- D0_RELEASE (R650, R677): 1,024 reference cycles later D0 is released and the fuses are read; `fuseBad` names a field
without a majority. -/
def execD0Release (fuseBad : Option Nat) (s : State) : Host.Outcome State Fault Refusal :=
  match s.rst.d0Since with
  | none => .next s
  | some t =>
    if !s.pins.vaux || !s.pins.resetN || !s.pins.refclk then .next s
    else
      let s := s.untilPs (t + refCycles 1024)
      let s := { s with rst := { s.rst with released := 1, d0Since := none, lastRelease := s.clk.ps }, keep := { s.keep with fuseBad := fuseBad } }
      .next (match fuseBad with
        | some f => fuseFault s f
        | none => s)

/-! ### Domains (R651 to R656) -/

/-- The lowest domain that is requested and not released, if every earlier one is released (R654). -/
def nextDomain (s : State) : Option Nat :=
  ((upto 1 7).find? fun n => !s.up n).filter fun n => bit s.rst.requested n

/-- Requests domains (R665). -/
def request (s : State) (mask : Nat) : State :=
  { s with rst := { s.rst with requested := s.rst.requested ||| mask, requestAt := s.clk.ps } }

/-- The PLL whose lock is a domain's qualifier: 0 core, 1 memory PHY, 2 traverse SerDes; none for D1, whose qualifier is the reference
clock (R653). -/
def pllOf (n : Nat) : Option Nat := if n ≤ 1 then none else if n == 3 then some 1 else if n == 7 then some 2 else some 0

/-- When CLK_OK of a domain is true: 2,048 reference cycles after its PLL locked, or for D1 after the reference clock appeared (R653). -/
def clkOkAt (s : State) (n : Nat) : Nat :=
  (match pllOf n with | some p => (sget none s.rst.lockSince p : Option Nat).getD s.clk.ps | none => s.rst.refSince) + refCycles 2048

/-- The lock indication of a domain's PLL is seen, or is lost (R653). -/
def noteLock (s : State) (n : Nat) (locked : Bool) : State :=
  match pllOf n with
  | none => s
  | some p =>
    let t := (sget none s.rst.lockSince p : Option Nat).getD s.clk.ps
    { s with rst := { s.rst with lockSince := sset none s.rst.lockSince p (if locked then some t else none) } }

/-- DOMAIN_RELEASE (R653 to R655): the next domain is released after its request and gap, once CLK_OK is true. `locked` is the lock
indication of its PLL, or that the reference clock runs: CLK_OK follows 2,048 reference cycles after it appears, and without it the
release is held. -/
def execDomainRelease (locked : Bool) (s : State) : Host.Outcome State Fault Refusal :=
  match nextDomain s with
  | none => .next s
  | some n =>
    let s := noteLock (s.untilPs (max s.rst.requestAt (s.rst.lastRelease + refCycles 256))) n locked
    if locked then
      let s := s.untilPs (clkOkAt s n)
      .next { s with rst := { s.rst with released := s.rst.released + 2 ^ n, lastRelease := s.clk.ps, heldFrom := none } }
    else .next { s with rst := { s.rst with heldFrom := some (s.rst.heldFrom.getD s.clk.ps) } }

/-- A bring-up step fails (R666). -/
def failStep (s : State) (cause : Nat) : State :=
  match s.rst.step with
  | none => s
  | some (n, _) =>
    raiseChip { s with rst := { s.rst with step := none, worked := false, stepFail := 0, failed := true, cause } } 0x3401 1 0 0 0
      [n, cause]

/-- RESET_CLOCK_TIMEOUT (R655): a held release passes 1 ms. The qualifier is not coded (log entry 2). -/
def execResetClockTimeout (s : State) : Host.Outcome State Fault Refusal :=
  let (w, s) := s.fresh
  match s.rst.heldFrom, nextDomain s with
  | some t, some n =>
    let s := s.untilPs (t + 10 ^ 9)
    let s := { s with rst := { s.rst with heldFrom := none, requested := s.rst.released, clockTimeout := true } }
    .next (failStep (raiseChip s 0x3301 1 0 0 0 [n, w.toNat]) 2)
  | _, _ =>
    match s.rst.units.find? fun u => u.held && !u.dead with
    | none => .next s
    | some u =>
      let s := s.untilPs (u.since + refCycles 64 + 10 ^ 9)
      let units := s.rst.units.map fun x => if x.cls == u.cls && x.num == u.num then { x with dead := true } else x
      let s := { s with rst := { s.rst with clockTimeout := true, units } }
      .next (raiseChip s 0x3301 1 0 0 0 [unitWord u.cls u.num, w.toNat])

/-- Every active job ends at once, as failed. -/
def endAllNow (s : State) : State :=
  s.jobs.foldl (fun s j => match s.job? j.id with
    | some j => finishJob s j 0x42 ((j.ending.map (·.seq)).getD 0)
    | none => s) s

/-- D1 to D7 are in reset: what they hold is at its reset values (R651, R653, R722), the counters of the relief, the queues of its error
controllers and the copy engines' pieces among it. The thermal code is the thermal controller's, in D0. -/
def dropDomains (s : State) : State :=
  let chip (a : Nat) : Bool := decide (0x91000 ≤ a) && decide (a < 0x91400)
  let s := dropCounters s fun a => !chip a
  let s := { s with hif := { s.hif with engines := [] }
                    err := { s.err with regionQ := [], blockQ := [], cellHeld := [], overRegion := [], overBlock := []
                                        chipWait := s.err.chipWait.filter fun r => r.level == 3 } }
  { s with rst := { s.rst with released := 1, requested := 0, heldFrom := none, done := 0, step := none, worked := false, units := [] }
           sht := {}, svy := {}, tables := [], clearing := [], cells := [], blocks := [], regions := [], columns := [], stk := [],
           syn := {}, reds := [], ports := [], grp := {}, jobs := [],
           pwr := { coldPwr s with thermal := s.pwr.thermal } }

/-- RAIL_LOST (R651, R747): a power-good input (0 VMEMC, 1 VMEMQ, 2 VPHY, 3 VCORE, 4 VSTORE) falls for more than 1 µs. -/
def execRailLost (input : Nat) (s : State) : Host.Outcome State Fault Refusal :=
  if !s.up 0 || 5 ≤ input || !bit s.pins.pg input then .next s
  else
    let s := { s with pins := { s.pins with pg := s.pins.pg - 2 ^ input }, rst := { s.rst with railLost := true } }
    .next (dropDomains (staircaseFirst (endAllNow (raiseChip s 0x3303 3 0 0 0 [input]))))

/-- CLOCK_LOST (R656): CLK_OK of a released domain goes false, D0's among them; the domain stays released, and its PLL is no longer locked. -/
def execClockLost (domain : Nat) (s : State) : Host.Outcome State Fault Refusal :=
  if 8 ≤ domain || !s.up domain then .next s else .next (raiseChip (noteLock s domain false) 0x3304 3 0 0 0 [domain])

/-! ### PCIe in-band reset (R652), D3hot (R403) -/

/-- PCIE_HOT_RESET (R652): configuration space and MSI-X table to their defaults, fetch and the error ring off, every enabled
ring reset with its completions discarded. -/
def execPcieHotReset (s : State) : Host.Outcome State Fault Refusal :=
  let s := if s.err.enable then discardStaged s else s
  let s := { s with hif := { s.hif with linkUp := false, msix := [], fetchEn := false, d3hot := false, txRefused := false, ecrc := false } }
  let s := (s.hif.rings.filter fun e => e.2.enable).foldl (fun s e =>
    resetRing (s.updRing e.1 fun r => { r with cqFailed := true }) e.1) s
  .next (flushJobs s)

/-- D3HOT_TRANSITION (R403, R652): the function enters or leaves D3hot, and the stacks power-down and self-refresh with it;
the return resets nothing. -/
def execD3hotTransition (enter : Bool) (s : State) : Host.Outcome State Fault Refusal :=
  if s.hif.d3hot == enter then .next s
  else
    let s := { s with hif := { s.hif with d3hot := enter } }
    .next (((List.range 12).filter (stackLive s)).foldl (fun s n => s.emit (.stack n (.selfRefresh enter))) s)

/-! ### Software resets (R657 to R660) -/

/-- The SHT block: every register but the tick count, which counts since power-on or RESET_N (R96 to R98). -/
def resetSht (s : State) : State :=
  let s := leaveGroup s
  { s with sht := { s.sht with period := 0x10000, nextPeriod := none, limit := 4, stall := false, writeRej := false,
                               forecastMissing := false, overCount := 0, overCycles := 0, member := 0, mask := 0 } }

/-- The MON block: counters 0 to 31, TRC_RING_PI, MON_STATUS (R721). -/
def resetMon (s : State) : State :=
  dropCounters { s with mon := { s.mon with selRej := false, trcPi := 0 } } fun a => decide (0x91000 ≤ a) && decide (a < 0x91200)

/-- The HIF block: its registers with the MSI-X table, its logic, and every ring disabled (R658, R659). What the PCIe link is stays. -/
def resetHif (s : State) : State :=
  let x := s.hif
  { s with hif := { linkUp := x.linkUp, width := x.width, rate := x.rate, ecrc := x.ecrc, d3hot := x.d3hot, txRefused := x.txRefused } }

/-- The PWR block (R658): its fields and its logic. Pace, the setpoints, the ledger's grants and what budget sharing commands hold, since
pace holds during the reset (R659) and commanded power moves by the ramp alone (R601). -/
def resetPwr (s : State) : State :=
  let top := s.grade.paceMax
  { s with pwr := { s.pwr with
      vtableOk := false, avsOk := false, avsFault := false, limitRej := false, pkgW := s.grade.pkgWatts, cap := top, capGoal := top,
      capW := 0, pendPkgW := none, pendCap := none, command := none, attempts := 0, vstoreCmd := none, vstoreTries := 0, excursions := [],
      aboveFrom := none, margin := top, marginOk := 0 } }

/-- The THM block (R658): its fields and its logic, the column governors with it. Suspect marks, RWL fields, the wear counts and the
coolant pulses seen stay. -/
def resetThm (s : State) : State :=
  let x := s.thm
  { s with
    thm := { l0Suspect := x.l0Suspect, kFactor := x.kFactor, tinMax := x.tinMax, wMax := x.wMax, wear := x.wear
             lastPulse := x.lastPulse, interval := x.interval, flow := x.flow }
    pwr := { s.pwr with thermal := s.grade.paceMax }
    columns := smap {} (fun x => { x with estRun := 0, samples := [], raised := 0 }) s.columns
    regions := smap {} (fun x => { x with pw := { x.pw with frac := 8 } }) s.regions }

/-- What a datum-die block's reset does (R658, R659). -/
def resetDatum (s : State) (k : Nat) : State :=
  match k with
  | 0 => resetSht s
  | 1 => resetPwr s
  | 2 => resetThm s
  | 4 => resetMon s
  | 5 => { s with syn := { s.syn with latched := false, timeout := false, wrap := false, corrected := 0, dlJob := 0, dlWaiters := 0,
                                      dlGroup := false, dlWaiter := [] } }
  | 6 => { s with svy := { s.svy with changed := false } }
  | 7 => resetHif s
  | 8 => { s with sec := { s.sec with stageRej := false, rollbackRej := false, revokeRej := false } }
  | 9 => { s with tables := (s.tables.map fun t => { t with image := none, lens := [] }).filter fun t => t.shadow.isSome }
  | _ => s

/-- The condition under which a datum-die block accepts its reset (R659). -/
def datumAccepts (s : State) (k : Nat) : Bool :=
  match k with
  | 1 => !s.jobActive && !s.thm.stopped
  | 2 => !s.jobActive && !s.thm.stopped
  | 3 => true
  | 4 => true
  | 8 => true
  | 6 => s.svy.building.isNone
  | _ => !s.jobActive

/-- The set bits of a mask below `n`, ascending. -/
def bitsOf (n mask : Nat) : List Nat := (List.range n).filter (bit mask)

/-- DATUM_BLOCK_RESET (R657, R659): a write of RST_SW_DATUM. -/
def execDatumBlockReset (mask : Nat) (s : State) : Host.Outcome State Fault Refusal :=
  .next ((bitsOf 10 mask).foldl (fun s k => softReset s 0 k (datumAccepts s k) fun s => resetDatum s k) s)

/-- A stack controller's reset: dirty frames are written back first; refresh and the patrol position go on (R659). -/
def resetMsc (n : Nat) (s : State) : State :=
  let s := (s.stack n).frames.foldl (fun s f => writeBack s n f) s
  s.updStack n fun x => { x with frames := [], uncorr := false, cacheUncorr := false, lapCode := 4, lapWords := [], pairWords := [] }

/-- MSC_RESET (R657, R659): a write of RST_SW_MSC; a fenced stack's bit is ignored. -/
def execMscReset (mask : Nat) (s : State) : Host.Outcome State Fault Refusal :=
  .next ((bitsOf 12 mask).foldl (fun s n =>
    if (s.stackPlan n).fenced then s else softReset s 1 n (!s.jobActive) (resetMsc n)) s)

/-- A traverse port's reset: its logic and fields, but not its counts (R550, R658). The width of a port that was up changes, which the
survey shows (R517). -/
def resetLnk (n : Nat) (s : State) : State :=
  let was := portUp s n
  let s := s.updPort n fun p => { retries := p.retries, fecUncorr := p.fecUncorr }
  let s := if was then surveyChange s else s
  if n == 0 then { s with grp := { s.grp with topology := 0, ringSize := 2, formFail := false, diam := 0 } } else s

/-- LNK_RESET (R659): a write of RST_SW_LNK. -/
def execLnkReset (mask : Nat) (s : State) : Host.Outcome State Fault Refusal :=
  .next ((bitsOf 8 mask).foldl (fun s n => softReset s 2 n (!s.sht.enable) (resetLnk n)) s)

/-- COPY_ENGINE_RESET (R659): COPY bits of RST_SW_ENG. An engine at work starts its piece again. -/
def execCopyEngineReset (mask : Nat) (s : State) : Host.Outcome State Fault Refusal :=
  .next ((bitsOf 16 mask).foldl (fun s n => softReset s 3 n (!s.jobActive) id) s)

/-- LINK_ENGINE_RESET (R659): LINK bits of RST_SW_ENG, numbered from 0. What a block has brought so far is dropped. -/
def execLinkEngineReset (mask : Nat) (s : State) : Host.Outcome State Fault Refusal :=
  .next ((bitsOf 8 mask).foldl (fun s n => softReset s 4 n (!s.jobActive) fun s =>
    s.updPort n fun p => { p with blockBuf := [] }) s)

/-- REGION_RESET (R660): RST_REGION.REGION. -/
def execRegionReset (r : Nat) (s : State) : Host.Outcome State Fault Refusal :=
  if 32 ≤ r || s.regionReason r != 0 then .next s
  else .next (softReset s 5 r (unheld s (regionCells r)) (resetRegion r))

/-- BLOCK_RESET (R660): a block bit of RST_REGION, or RST_BLOCK.BLOCK. -/
def execBlockReset (region block : Nat) (s : State) : Host.Outcome State Fault Refusal :=
  let b := region * 12 + block
  if 32 ≤ region || 12 ≤ block || s.blockReason b != 0 then .next s
  else .next (softReset s 6 b (unheld s (blockCells b)) (resetBlock b))

/-- CELL_RESET (R660): a cell bit of RST_BLOCK. -/
def execCellReset (c : Nat) (s : State) : Host.Outcome State Fault Refusal :=
  if !s.goodCell c then .next s else .next (softReset s 7 c (unheld s [c]) (resetCell c))

/-- SW_RESET_RELEASE (R655, R657): 64 reference cycles later the oldest unit in reset is released, or held while CLK_OK is
false; a held one keeps no other back, and is released once no other is left to. -/
def execSwResetRelease (clkOk : Bool) (s : State) : Host.Outcome State Fault Refusal :=
  let due := s.rst.units.filter fun u => !u.dead
  match (due.find? fun u => !u.held).or due.head? with
  | none => .next s
  | some u =>
    let s := s.untilPs (u.since + refCycles 64)
    let mine (x : UnitReset) : Bool := x.cls == u.cls && x.num == u.num
    if clkOk then .next { s with rst := { s.rst with units := s.rst.units.filter fun x => !mine x } }
    else .next { s with rst := { s.rst with units := s.rst.units.map fun x => if mine x then { x with held := true } else x } }

end Sys2Proof.Machine
end

