-- ==== Sys2Proof/Machine/Hash.lean ====
section
/-! DEFINITION. SHA3-384 and SHAKE256. The spec names FIPS 202 and does not write it out: PRESUMED (log entry 5). -/

namespace Sys2Proof.Machine

open Sys2Proof

/-! ### Keccak-f[1600]: lane x, y of the state stands at index x + 5y -/

/-- Lane rotation by 0 to 63 bits. -/
def rotLane (v n : Nat) : Nat := v * 2 ^ n % 2 ^ 64 + v % 2 ^ 64 / 2 ^ (64 - n)

/-- The rotation of each lane. -/
def laneTurns : List Nat :=
  [0, 1, 62, 28, 27] ++ [36, 44, 6, 55, 20] ++ [3, 10, 43, 25, 39] ++ [41, 45, 15, 21, 8] ++ [18, 2, 61, 56, 14]

/-- The round constants. -/
def roundConstants : List Nat :=
  [0x0000000000000001, 0x0000000000008082, 0x800000000000808A, 0x8000000080008000, 0x000000000000808B, 0x0000000080000001] ++
  [0x8000000080008081, 0x8000000000008009, 0x000000000000008A, 0x0000000000000088, 0x0000000080008009, 0x000000008000000A] ++
  [0x000000008000808B, 0x800000000000008B, 0x8000000000008089, 0x8000000000008003, 0x8000000000008002, 0x8000000000000080] ++
  [0x000000000000800A, 0x800000008000000A, 0x8000000080008081, 0x8000000000008080, 0x0000000080000001, 0x8000000080008008]

/-- One round: θ, ρ and π, χ, ι. -/
def keccakRound (a : List Nat) (rc : Nat) : List Nat :=
  let lane (l : List Nat) (x y : Nat) : Nat := l.getD (x % 5 + 5 * (y % 5)) 0
  let c := (List.range 5).map fun x => lane a x 0 ^^^ lane a x 1 ^^^ lane a x 2 ^^^ lane a x 3 ^^^ lane a x 4
  let d := (List.range 5).map fun x => c.getD ((x + 4) % 5) 0 ^^^ rotLane (c.getD ((x + 1) % 5) 0) 1
  let t := (List.range 25).map fun k => rotLane (a.getD k 0 ^^^ d.getD (k % 5) 0) (laneTurns.getD k 0)
  -- lane (x, y) of the permuted state is lane (x + 3y, x) of the rotated one
  let b := (List.range 25).map fun k => lane t (k % 5 + 3 * (k / 5)) (k % 5)
  let e := (List.range 25).map fun k =>
    lane b (k % 5) (k / 5) ^^^ ((2 ^ 64 - 1 - lane b (k % 5 + 1) (k / 5)) &&& lane b (k % 5 + 2) (k / 5))
  (e.headD 0 ^^^ rc) :: e.drop 1

/-- The permutation. -/
def keccakF (a : List Nat) : List Nat := roundConstants.foldl keccakRound a

/-! ### The sponge -/

/-- The message with its suffix bits and the padding, a multiple of the rate. -/
def keccakPad (rate suffix : Nat) (m : Bytes) : Bytes :=
  let q := rate - m.length % rate
  if q == 1 then m ++ leBytes 1 (suffix + 0x80) else m ++ leBytes 1 suffix ++ List.replicate (q - 2) 0 ++ [0x80]

/-- Absorbs the padded message, block after block. -/
def absorb (rate : Nat) (m : Bytes) : List Nat :=
  (chunks rate (m.length / rate + 1) m).foldl (fun a blk =>
    keccakF ((List.range 25).map fun k => a.getD k 0 ^^^ (if 8 * k < rate then num blk (8 * k) 8 else 0))) (List.replicate 25 0)

/-- Squeezes `n` blocks. -/
def squeeze (rate : Nat) : Nat → List Nat → Bytes
  | 0, _ => []
  | n + 1, a => (a.flatMap (leBytes 8)).take rate ++ squeeze rate n (keccakF a)

/-- SHA3-384, 48 bytes. -/
def sha3Bytes (m : Bytes) : Bytes := (squeeze 104 1 (absorb 104 (keccakPad 104 0x06 m))).take 48

/-- SHA3-384 as the number whose low word comes first (R689). -/
def sha3 (m : Bytes) : Nat := leNat (sha3Bytes m)

/-- The first `n` bytes of SHAKE256. -/
def shake256 (m : Bytes) (n : Nat) : Bytes := (squeeze 136 (cdiv n 136) (absorb 136 (keccakPad 136 0x1F m))).take n

end Sys2Proof.Machine
end

