-- ==== Sys2Proof/Machine/Slh.lean ====
section
/-! DEFINITION. SLH-DSA-SHAKE-256s and -256f: key generation, signature, verification. The spec names FIPS 205 and does not write it
out: PRESUMED (log entry 5). -/

namespace Sys2Proof.Machine

open Sys2Proof

/-- A parameter set with n = 32 and lg w = 4: height, layers, height of a layer's tree, height and number of the FORS trees. -/
structure SlhSet where
  h : Nat
  d : Nat
  h' : Nat
  a : Nat
  k : Nat
  deriving DecidableEq, Repr

/-- SLH-DSA-SHAKE-256s: signatures of 29,792 bytes (R678). -/
def slh256s : SlhSet := ⟨64, 8, 8, 14, 22⟩
/-- SLH-DSA-SHAKE-256f, the set of the identity key (R686). -/
def slh256f : SlhSet := ⟨68, 17, 4, 9, 35⟩

/-- Bytes of a signature. -/
def SlhSet.sigLen (p : SlhSet) : Nat := 32 * (1 + p.k * (p.a + 1) + p.h + p.d * 67)

/-- Big-endian bytes, and the number of them. -/
def beBytes (n v : Nat) : Bytes := (leBytes n v).reverse
/-- The big-endian value of a byte string. -/
def beNat (b : Bytes) : Nat := leNat b.reverse

/-- `n` digits of `b` bits of a byte string, the first digit highest. -/
def digits (m : Bytes) (b n : Nat) : List Nat :=
  (List.range n).map fun i => beNat m / 2 ^ (8 * m.length - b * (i + 1)) % 2 ^ b

/-- A hash address: layer, tree, type, and the three words of the type. -/
structure SlhAddr where
  layer : Nat := 0
  tree : Nat := 0
  kind : Nat := 0
  pair : Nat := 0
  height : Nat := 0
  index : Nat := 0
  deriving DecidableEq, Repr

/-- The 32 bytes of an address. Of WOTS addresses `height` is the chain and `index` the hash. -/
def SlhAddr.bytes (x : SlhAddr) : Bytes :=
  beBytes 4 x.layer ++ beBytes 12 x.tree ++ beBytes 4 x.kind ++ beBytes 4 x.pair ++ beBytes 4 x.height ++ beBytes 4 x.index

/-- The tweakable hash of a message at an address (F, H, T and PRF alike). -/
def slhHash (seed : Bytes) (x : SlhAddr) (m : Bytes) : Bytes := shake256 (seed ++ x.bytes ++ m) 32

/-- A piece of 32 bytes. -/
def piece (b : Bytes) (i : Nat) : Bytes := slice b (32 * i) 32

/-! ### WOTS+ -/

/-- `n` steps of a chain from step `i`. -/
def slhChain (seed : Bytes) (x : SlhAddr) : Nat → Nat → Bytes → Bytes
  | 0, _, v => v
  | n + 1, i, v => slhChain seed x n (i + 1) (slhHash seed { x with index := i } v)

/-- The 67 digits that are signed: those of the message and of its checksum. -/
def wotsDigits (m : Bytes) : List Nat :=
  let l := digits m 4 64
  l ++ digits (beBytes 2 ((l.map (15 - ·)).foldl (· + ·) 0 * 16)) 4 3

/-- The secret of a chain. -/
def wotsSecret (sk seed : Bytes) (x : SlhAddr) (i : Nat) : Bytes := slhHash seed { x with kind := 5, height := i, index := 0 } sk

/-- The public key of a key pair, from the ends of its chains. -/
def wotsJoin (seed : Bytes) (x : SlhAddr) (ends : List Bytes) : Bytes :=
  slhHash seed { x with kind := 1, height := 0, index := 0 } ends.flatten

/-- The public key that the secrets give. -/
def wotsKey (sk seed : Bytes) (x : SlhAddr) : Bytes :=
  wotsJoin seed x ((List.range 67).map fun i => slhChain seed { x with kind := 0, height := i } 15 0 (wotsSecret sk seed x i))

/-- A WOTS+ signature. -/
def wotsSign (sk seed : Bytes) (x : SlhAddr) (m : Bytes) : Bytes :=
  ((wotsDigits m).zipIdx).flatMap fun e => slhChain seed { x with kind := 0, height := e.2 } e.1 0 (wotsSecret sk seed x e.2)

/-- The public key that a signature gives. -/
def wotsFrom (seed : Bytes) (x : SlhAddr) (m sig : Bytes) : Bytes :=
  wotsJoin seed x (((wotsDigits m).zipIdx).map fun e => slhChain seed { x with kind := 0, height := e.2 } (15 - e.1) e.1 (piece sig e.2))

/-! ### Merkle trees: a layer of the hypertree, and FORS -/

/-- Node `i` at height `z` of a tree over leaves; `x` is the address of its nodes. -/
def slhNode (seed : Bytes) (x : SlhAddr) (leaf : Nat → Bytes) : Nat → Nat → Bytes
  | 0, i => leaf i
  | z + 1, i =>
    slhHash seed { x with height := z + 1, index := i } (slhNode seed x leaf z (2 * i) ++ slhNode seed x leaf z (2 * i + 1))

/-- The authentication path of a leaf in a tree of height `n`. -/
def slhPath (seed : Bytes) (x : SlhAddr) (leaf : Nat → Bytes) (n i : Nat) : Bytes :=
  (List.range n).flatMap fun j => slhNode seed x leaf j (i / 2 ^ j ^^^ 1)

/-- The root that a leaf and its path give. -/
def slhTreeRoot (seed : Bytes) (x : SlhAddr) (n i : Nat) (v path : Bytes) : Bytes :=
  (List.range n).foldl (fun v j =>
    let both := if i / 2 ^ j % 2 == 0 then v ++ piece path j else piece path j ++ v
    slhHash seed { x with height := j + 1, index := i / 2 ^ (j + 1) } both) v

/-- The leaves of a layer's tree. -/
def layerLeaf (sk seed : Bytes) (layer tree i : Nat) : Bytes := wotsKey sk seed { layer, tree, pair := i }

/-- The address of the nodes of a layer's tree. -/
def nodeAddr (layer tree : Nat) : SlhAddr := { layer, tree, kind := 2 }

/-- The root of a layer's tree from a signature: WOTS+ and path. -/
def layerRoot (p : SlhSet) (seed : Bytes) (layer tree i : Nat) (m sig : Bytes) : Bytes :=
  slhTreeRoot seed (nodeAddr layer tree) p.h' i (wotsFrom seed { layer, tree, pair := i } m (sig.take (32 * 67))) (sig.drop (32 * 67))

/-- A layer's signature. -/
def layerSign (p : SlhSet) (sk seed : Bytes) (layer tree i : Nat) (m : Bytes) : Bytes :=
  wotsSign sk seed { layer, tree, pair := i } m ++ slhPath seed (nodeAddr layer tree) (layerLeaf sk seed layer tree) p.h' i

/-- The hypertree signs: the signature, the root, and the tree above, layer after layer. -/
def hyperSign (p : SlhSet) (sk seed : Bytes) (m : Bytes) (tree leaf : Nat) : Bytes :=
  ((List.range p.d).foldl (fun (r : Bytes × Bytes × Nat × Nat) layer =>
    let (out, m, tree, i) := r
    let sig := layerSign p sk seed layer tree i m
    (out ++ sig, layerRoot p seed layer tree i m sig, tree / 2 ^ p.h', tree % 2 ^ p.h')) ([], m, tree, leaf)).1

/-- The root that a signature of the hypertree gives. -/
def hyperRoot (p : SlhSet) (seed : Bytes) (m sig : Bytes) (tree leaf : Nat) : Bytes :=
  let n := 32 * (67 + p.h')
  ((List.range p.d).foldl (fun (r : Bytes × Nat × Nat) layer =>
    let (m, tree, i) := r
    (layerRoot p seed layer tree i m (slice sig (n * layer) n), tree / 2 ^ p.h', tree % 2 ^ p.h')) (m, tree, leaf)).1

/-- The secret of a FORS leaf. -/
def forsSecret (sk seed : Bytes) (x : SlhAddr) (i : Nat) : Bytes := slhHash seed { x with kind := 6, height := 0, index := i } sk

/-- A FORS leaf from its secret. -/
def forsLeaf (seed : Bytes) (x : SlhAddr) (i : Nat) (v : Bytes) : Bytes := slhHash seed { x with kind := 3, height := 0, index := i } v

/-- A FORS signature of a digest. -/
def forsSign (p : SlhSet) (sk seed : Bytes) (x : SlhAddr) (md : Bytes) : Bytes :=
  ((digits md p.a p.k).zipIdx).flatMap fun e =>
    let leaf (i : Nat) : Bytes := forsLeaf seed x i (forsSecret sk seed x i)
    let path := (List.range p.a).flatMap fun j =>
      slhNode seed { x with kind := 3 } leaf j (e.2 * 2 ^ (p.a - j) + (e.1 / 2 ^ j ^^^ 1))
    forsSecret sk seed x (e.2 * 2 ^ p.a + e.1) ++ path

/-- The FORS public key that a signature gives. -/
def forsKey (p : SlhSet) (seed : Bytes) (x : SlhAddr) (md sig : Bytes) : Bytes :=
  let n := 32 * (p.a + 1)
  let roots := ((digits md p.a p.k).zipIdx).map fun e =>
    let part := slice sig (n * e.2) n
    let i := e.2 * 2 ^ p.a + e.1
    slhTreeRoot seed { x with kind := 3 } p.a i (forsLeaf seed x i (piece part 0)) (part.drop 32)
  slhHash seed { x with kind := 4, height := 0, index := 0 } roots.flatten

/-! ### The scheme -/

/-- What a message is signed at: the FORS digest, the tree and the leaf. -/
def slhPlace (p : SlhSet) (r pk m : Bytes) : Bytes × Nat × Nat :=
  let n1 := cdiv (p.k * p.a) 8
  let n2 := cdiv (p.h - p.h') 8
  let n3 := cdiv p.h' 8
  let b := shake256 (r ++ pk ++ m) (n1 + n2 + n3)
  (b.take n1, beNat (slice b n1 n2) % 2 ^ (p.h - p.h'), beNat (slice b (n1 + n2) n3) % 2 ^ p.h')

/-- The message of the pure form with its context string (at most 255 bytes). -/
def slhPure (ctx m : Bytes) : Bytes := [0] ++ leBytes 1 ctx.length ++ ctx ++ m

/-- PK.root of a key pair, from SK.seed and PK.seed. -/
def slhRoot (p : SlhSet) (sk seed : Bytes) : Bytes :=
  slhNode seed (nodeAddr (p.d - 1) 0) (layerLeaf sk seed (p.d - 1) 0) p.h' 0

/-- A signature under a private key, SK.seed, SK.prf, PK.seed, PK.root; `rnd` is the signer's randomness. -/
def slhSign (p : SlhSet) (key rnd ctx m : Bytes) : Bytes :=
  let (sk, prf, seed) := (piece key 0, piece key 1, piece key 2)
  let m' := slhPure ctx m
  let r := shake256 (prf ++ rnd ++ m') 32
  let (md, tree, leaf) := slhPlace p r (slice key 64 64) m'
  let x : SlhAddr := { tree, pair := leaf }
  let fors := forsSign p sk seed x md
  r ++ fors ++ hyperSign p sk seed (forsKey p seed x md fors) tree leaf

/-- The verification of a signature under a public key, PK.seed and PK.root. -/
def slhVerify (p : SlhSet) (pk ctx m sig : Bytes) : Bool :=
  let n := 32 * p.k * (p.a + 1)
  let (md, tree, leaf) := slhPlace p (piece sig 0) pk (slhPure ctx m)
  let x : SlhAddr := { tree, pair := leaf }
  sig.length == p.sigLen && ctx.length ≤ 255 &&
    hyperRoot p (piece pk 0) (forsKey p (piece pk 0) x md (slice sig 32 n)) (sig.drop (32 + n)) tree leaf == piece pk 1

end Sys2Proof.Machine
end

