-- ==== Sys2Proof/Machine/BringUp.lean ====
section
/-! DEFINITION. The bring-up steps (R42, R663 to R668, R677 to R682, R732, R733). -/

namespace Sys2Proof.Machine

open Sys2Proof

/-! ### Steps (R663 to R666) -/

/-- A write of BRG_STEP by the side-band (`sb`) or the host (R651, R663, R664): accepted, or ignored with its flag. From the
acceptance of LOAD_FW the staging window is shut (R681). -/
def writeStep (s : State) (sb : Bool) (n : Nat) : Bool × State :=
  if !s.up 0 || s.rst.railLost || s.rst.ready then (false, s)
  else if s.rst.owner != sb then (false, { s with rst := { s.rst with ownerRej := true } })
  else if s.rst.step.isSome || n != s.rst.done + 1 then (false, { s with rst := { s.rst with orderRej := true } })
  else
    let s := { s with rst := { s.rst with step := some (n, s.clk.ps), worked := false, stepFail := 0, failed := false } }
    (true, if n == 2 then { s with sec := { s.sec with windowShut := true } } else s)

/-- The work of step `n`: of a step already written and not yet worked, or of one that this command writes. -/
def runStep (s : State) (sb : Bool) (n : Nat) (work : State → State) : State :=
  let (go, s) := if (s.rst.step.map (·.1)) == some n && !s.rst.worked then (true, s) else writeStep s sb n
  if go then work { s with rst := { s.rst with worked := true } } else s

/-- The step will fail with a cause, unless one is known already. -/
def causeStep (s : State) (cause : Nat) : State :=
  if s.rst.stepFail == 0 then { s with rst := { s.rst with stepFail := cause } } else s

/-- A record slot found invalid at boot: RECORD_INVALID with the first condition that it fails, unless it is erased throughout (R671,
R674). -/
def checkSlot (s : State) (kind n : Nat) (x : NorSlot) : State :=
  if slotFault kind x == 0 || decide (x = {}) then s else raiseChip s 0x3402 0 0 0 0 [kind, n, slotFault kind x]

/-- CLOCKS (R665, R551): the test record is checked, VSTORE is set, the PLLs start, D1 to D3 are requested. -/
def execClocks (sb : Bool) (s : State) : Host.Outcome State Fault Refusal :=
  .next (runStep s sb 1 fun s =>
    if s.pins.pg != 31 then causeStep s 3
    else if slotFault 1 s.keep.test != 0 then causeStep (checkSlot s 1 0 s.keep.test) 1
    else request (sendVoltage s 1 (max 600 (min 800 s.keep.vstoreMv))) 0xE)

/-! ### LOAD_FW (R678, R679, R682) -/

/-- The header words that R678 fixes, each with its failure. -/
def badHeaderWord (b : Bytes) : Option Nat :=
  let w (k : Nat) : Nat := num b (4 * k) 4
  let ok (k : Nat) : Bool :=
    if k == 0 then w 0 == 0x57464245 else if k == 1 then w 1 % 65536 == 1 && w 1 / 2 ^ 18 == 0 else if k == 2 then w 2 < 256
    else if k == 3 then w 3 % 256 == 0 && 256 ≤ w 3 && w 3 ≤ 8358400 else if k == 4 then true
    else if 16 ≤ k && k < 32 then true else w k == 0
  ((List.range 64).find? fun k => !ok k).map w

/-- A security record of the boot ROM, and the cause of the step's failure. -/
def romFail (s : State) (code : Nat) (det : List Nat) : State := causeStep (raiseChip s code 1 8 0 0 det) 5

/-- The bytes of an ASCII string. -/
def ascii (t : String) : Bytes := t.toList.map fun c => BitVec.ofNat 8 c.toNat

/-- The identity key of a device secret (R686): 96 bytes of SHAKE256(secret, 0x01, "EB7 identity"), split in order. -/
def deriveIdentity (secret : Bytes) : IdentityKey :=
  let b := shake256 (secret ++ [1] ++ ascii "EB7 identity") 96
  let pk := slice b 64 32
  ⟨slice b 0 32, slice b 32 32, pk, slhRoot slh256f (slice b 0 32) pk⟩

/-- The checks of R682, in order; when all pass, the measurements of the image and the identity key (R686). -/
def verifyImage (s : State) : State :=
  let len := s.sec.length
  if !s.sec.staged || len == 0 then causeStep s 4
  else if s.sec.fuseFault then causeStep (fuseFault s (s.keep.fuseBad.getD 0)) 5
  else
    let b := Ram.read s.sec.window 0 len
    let body := num b 12 4
    let word := (badHeaderWord b).getD body
    if (badHeaderWord b).isSome || len != 256 + body + 29792 then romFail s 0x8002 [word, len]
    else
      let k := bits (num b 4 4) 17 16
      let svn := num b 8 1
      let digest := s.keep.keyDigests.getD k 0
      let key := slice b 64 64
      let msg := slice b 0 (256 + body)
      if digest == 0 || bit s.keep.revoked k then romFail s 0x8003 [k]
      else if leNat (shake256 key 32) != digest then romFail s 0x8004 [k]
      else if !slhVerify slh256s key (ascii "EB7-FW") msg (slice b (256 + body) 29792) then romFail s 0x8001 [k]
      else if svn < s.keep.rollback then romFail s 0x8005 [svn, s.keep.rollback]
      else
        let identity := some (deriveIdentity s.keep.secret)
        { s with sec := { s.sec with keyIndex := k, svn, version := num b 16 4, digest := sha3 msg, identity } }

/-- LOAD_FW (R682): the boot ROM verifies the staged image and starts the firmware. -/
def execLoadFw (sb : Bool) (s : State) : Host.Outcome State Fault Refusal := .next (runStep s sb 2 verifyImage)

/-! ### TRAIN_MEM (R403, R407, R410, R424) -/

/-- A stack is fenced (R403, R424, R425). -/
def loseStack (s : State) (n : Nat) : State :=
  if (s.stackPlan n).fenced then s
  else
    let s := raiseChip s 0x4009 1 1 n 0 [n, nextGeneration s] true
    surveyChange (s.updStackPlan n fun p => { p with fenced := true })

/-- A pair is remapped onto a spare pair, whose own plot unit serves it; without one the stack is fenced (R424). -/
def remapPair (n : Nat) (s : State) (pair : Nat) : State :=
  if 32 ≤ (s.stackPlan n).sparesUsed then loseStack s n
  else s.updStackPlan n fun p => { p with sparesUsed := p.sparesUsed + 1, badUnits := p.badUnits.filter (· != pair) }

/-- One stack at TRAIN_MEM: training, repair, zeroing with valid check words. `broken` names the pairs with a row that cannot
be repaired. -/
def trainStack (trained : List Nat) (broken : List (Nat × Nat)) (s : State) (n : Nat) : State :=
  if (s.stackPlan n).fenced then s
  else if !trained.contains n then loseStack s n
  else
    let p := s.stackPlan n
    let pairs := ((p.marked.filter fun q => broken.contains (n, q)) ++ p.badUnits).dedup
    let s := pairs.foldl (remapPair n) s
    let s := s.updStackPlan n fun p => if p.fenced then p else { p with marked := [] }
    s.updStack n fun x => { x with trained := true, data := [], bad := [], checks := [], frames := [], lost := none }

/-- The training record that serves at boot (R667): the newest valid one, where its serial number is the part's. -/
def trainingRecord (s : State) : Option NorSlot :=
  (newestSlot s.keep.trainA s.keep.trainB 2).filter fun x => x.serial == s.keep.serial

/-- TRAIN_MEM (R665, R667): the stacks that train, the identities that the stacks report, which must be those of the training record for its
settings to serve, and the pairs that cannot be repaired. -/
def execTrainMem (sb : Bool) (trained ids : List Nat) (unrepaired : List (Nat × Nat)) (s : State) :
    Host.Outcome State Fault Refusal :=
  .next (runStep s sb 3 fun s =>
    let k := s.keep
    let fast := (trainingRecord s).any fun x => decide (x.stackIds = ids)
    let s := checkSlot (checkSlot s 2 0 k.trainA) 2 1 k.trainB
    let s := (List.range 12).foldl (trainStack trained unrepaired) { s with rst := { s.rst with memFast := fast, stackIds := ids } }
    let plain := (List.range 8).filter fun n => !(s.stackPlan n).fenced
    let s := { s with plain := plain }
    if (List.range 12).all fun n => (s.stackPlan n).fenced then causeStep s 6 else s)

/-! ### TEST_STACK (R377, R575) -/

/-- The failed bonds of one half: spares, or the retirement of the half (R373, R377). -/
def testHalf (s : State) (f : Finding) : State :=
  let west := f.part == 1
  let p := s.cellPlan f.unit
  let bonds := failedBonds p west f.items
  if bonds.isEmpty || !s.goodCell f.unit || (if west then p.westGone else p.eastGone) then s
  else if bonds.length ≤ sparesLeft p west then takeSpares s f.unit west bonds
  else retireHalf s f.unit west bonds.length 2

/-- One via group measured against the test record: key 4 × region + group, ratio in 1/256 (R575). -/
def testVia (s : State) (x : Nat × Nat) : State :=
  if 128 ≤ x.1 then s
  else
    let s := s.updPw (x.1 / 4) fun p => { p with viaRatio := max p.viaRatio x.2 }
    if 1536 < 5 * x.2 then crackedJoint s 3 (chipUnit 0 0) (x.1 / 4) (x.1 % 4) x.2 else s

/-- TEST_STACK (R665): findings fence, retire, spare or cap; they fail no step. A fault of the self-test logic does. -/
def execTestStack (sb : Bool) (findings : List Finding) (vias : List (Nat × Nat)) (logicFault : Bool) (s : State) :
    Host.Outcome State Fault Refusal :=
  .next (runStep s sb 4 fun s =>
    let s := vias.foldl (fun s x => if x.1 < 128 then s.updPw (x.1 / 4) fun p => { p with viaRatio := 0 } else s) s
    if logicFault then causeStep s 7 else vias.foldl testVia (findings.foldl testHalf s))

/-! ### RELEASE_CORE (R559, R560) -/

/-- A region's row of the voltage table is valid (R559). -/
def rowOk (most : Nat) (t : Bytes) (r : Nat) : Bool :=
  let row := slice t (r * 57) 57
  let used := row.filter fun b => b.toNat != 255
  row.all (fun b => b.toNat == 255 || (20 ≤ b.toNat && b.toNat ≤ 120)) &&
  (used.zip (used.drop 1)).all (fun e => e.1.toNat ≤ e.2.toNat) &&
  (row.take (most + 1)).all (fun b => b.toNat != 255)

/-- The setpoint to which RELEASE_CORE raises (R665): what every good region would want awake at the pace in force (DEDUCED; log entry 59). -/
def releaseSetpoint (s : State) : Nat :=
  let t := ((List.range 32).map fun r =>
    if s.regionReason r == 0 && vByte s r s.pwr.pace != 255 then targetHalf s r s.pwr.pace else 0).foldl max 0
  max 550 (min 800 (cdiv (t + 30) 2))

/-- Firmware raises the setpoint by 1 mV in 0.5 µs (R558), the last write as the one still to be acknowledged. -/
def raiseSetpoint (s : State) : State :=
  (upto (s.pwr.setpoint + 1) (releaseSetpoint s - s.pwr.setpoint)).foldl (fun s mv => sendVoltage (s.advancePs 500000) 0 mv) s

/-- RELEASE_CORE (R665): the voltage table is loaded, regions with an invalid row are fenced, guards go to +25 mV, every region
starts gated, the setpoint rises, D4 to D6 are requested. -/
def execReleaseCore (sb : Bool) (s : State) : Host.Outcome State Fault Refusal :=
  .next (runStep s sb 5 fun s =>
    let t := s.keep.voltageTable
    let s := { s with pwr := { s.pwr with vtable := t, vtableOk := true } }
    let s := ((List.range 32).filter fun r => !rowOk s.grade.paceMax t r).foldl (fun s r => fenceRegion s r 1) s
    let s := (List.range 32).foldl (fun s r => s.updPw r fun p => { p with guard := 20, gated := true, wake := none }) s
    let s := request (raiseSetpoint (latchPace s)) 0x70
    if (List.range 32).all fun r => s.regionReason r != 0 then causeStep s 8 else s)

/-! ### TRAIN_LINKS (R532, R533) -/

/-- A port whose partner was detected: the lanes that entered service, from saved settings where the partner is the one of the training
record and no lane had to be trained in full (R532, R533). -/
def trainPort (saved : List SavedLink) (s : State) (f : LinkFinding) : State :=
  let m := (f.lanes.filter fun l => decide (l < 8)).dedup.foldl (fun m l => m + 2 ^ l) 0
  let old := saved[f.port]?.filter fun x => x.serial == f.serial && x.port == f.partnerPort
  if 8 ≤ f.port || !wholeHalf m then s
  else
    let s := s.updPort f.port fun p =>
      { p with lanes := m, up := true, fast := old.isSome && !f.full, taps := f.taps.foldl (fun m e => sset 0 m e.1 e.2) []
               rx := f.rx.foldl (fun m e => sset {} m e.1 e.2) [], partnerSerial := f.serial, partnerPort := f.partnerPort }
    let s := sendAck s f.port
    sendControl s f.port 3 0 (formFields s 0)

/-- TRAIN_LINKS (R665): D7 is requested; the ports with a partner are trained once it is released. -/
def execTrainLinks (sb : Bool) (links : List LinkFinding) (s : State) : Host.Outcome State Fault Refusal :=
  .next (runStep s sb 6 fun s => request { s with rst := { s.rst with linkFind := links } } 0x80)

/-- The work of a step that waits for the domains it requested (R665): TRAIN_LINKS trains the ports. -/
def afterDomains (s : State) (n : Nat) : State :=
  if n != 6 then s
  else
    let saved := ((trainingRecord s).map (·.links)).getD []
    s.rst.linkFind.foldl (trainPort saved) { s with rst := { s.rst with linkFind := [] } }

/-! ### PUBLISH_SURVEY (R42, R43, R615) -/

/-- The wear counts of the newest snapshot of the error history (R672), over the regions of a part of it. -/
def wearFrom (h : List Bytes) (m : Sparse Nat) (part : Nat) : Sparse Nat :=
  match h.reverse.find? fun e => num e 4 2 == 0 && num e 6 1 == part with
  | none => m
  | some e => (List.range 12).foldl (fun m k =>
      if part * 12 + k < 32 then supd 0 m (part * 12 + k) fun v => sat32 v (num e (8 + 4 * k) 4) else m) m

/-- The ports as the training record holds them (R533). -/
def savedLinks (s : State) : List SavedLink :=
  (List.range 8).map fun p =>
    ⟨(s.port p).partnerSerial, (s.port p).partnerPort, (s.port p).taps, (s.port p).rx⟩

/-- The DATA bytes of the training record, in the model's own order, since the spec gives none (log entry 38): serial number, stack
identities, and by port the partner and each lane's taps, CTLE code and first eight DFE taps. -/
def trainBytes (s : State) : Bytes :=
  let i8 (t : Int) : Bytes := leBytes 1 (t % 256).toNat
  leBytes 8 s.keep.serial ++ (List.range 12).flatMap (fun n => leBytes 8 (s.rst.stackIds.getD n 0)) ++
  (savedLinks s).flatMap fun x => leBytes 8 x.serial ++ leBytes 1 x.port ++
    (List.range 32).flatMap (fun k => i8 (sget 0 x.taps k)) ++
    (List.range 8).flatMap fun l =>
      let r : LaneRx := sget {} x.rx l
      leBytes 1 r.ctle ++ (List.range 8).flatMap fun k => i8 (r.dfe.getD k 0)

/-- Something was trained in full at this boot (R665). -/
def trainedInFull (s : State) : Bool := !s.rst.memFast || (List.range 8).any fun p => (s.port p).up && !(s.port p).fast

/-- An entry of the error history found invalid at boot (R674). The kind item is open for it (R670 numbers the slots' kinds only;
log entry 2). -/
def checkEntry (s : State) (e : Bytes × Nat) : State :=
  if entryFault e.1 == 0 then s
  else
    let (w, s) := s.fresh
    raiseChip s 0x3402 0 0 0 0 [w.toNat, (s.keep.histBase + e.2 / 64) % 576, entryFault e.1]

/-- PUBLISH_SURVEY (R42): generation 1 is merged, published and written to the NOR, and the training record with it. The counts
are those of failed NOR writes. -/
def execPublishSurvey (sb : Bool) (fails trainFails : Nat) (s : State) : Host.Outcome State Fault Refusal :=
  .next (runStep s sb 7 fun s =>
    let k := s.keep
    let s := checkSlot (checkSlot s 3 0 k.surveyA) 3 1 k.surveyB
    let s := k.history.zipIdx.foldl checkEntry s
    let h := k.history.filter fun e => entryFault e == 0
    let base := newestOf k.surveyA k.surveyB
    let s := { s with plan := bootPlan s ((base.map (·.plan)).getD k.testPlan) h }
    let x := { snap s 1 base.isNone with tick := s.sht.tick }
    let s := { s with svy := { s.svy with window := some x, fromTest := base.isNone, belowGrade := decide (s.goodCells .M < s.grade.minGoodM) }
                      thm := { s.thm with wear := (List.range 3).foldl (wearFrom h) s.thm.wear, l0Suspect := s.thm.l0Suspect ||| historyL0 h } }
    let s := writeSurvey s x fails
    if trainedInFull s then
      let slot : NorSlot := { data := some x, serial := s.keep.serial, stackIds := s.rst.stackIds, links := savedLinks s }
      let (a, b, n) := writeSlots 2 s.keep.trainA s.keep.trainB slot (trainBytes s) (decide (trainFails < 2))
      let s := { s with keep := { s.keep with trainA := a, trainB := b } }
      if trainFails < 2 then s else norWriteFail s 2 n
    else s)

/-! ### LOCK and READY (R689, R732, R733) -/

/-- STS_FLIP of a stash (R400). -/
def flipWordOf (x : Stash) : Nat :=
  x.flipA + b2n x.flipEnA * 2 ^ 7 + x.flipB * 2 ^ 8 + b2n x.flipEnB * 2 ^ 15 + x.flipLine * 2 ^ 16 + x.flipWord * 2 ^ 29

/-- The RWL words of a cell window: MM_TOL_0, MM_TOL_1, STS_FLIP; a fenced cell contributes zeros (R733). -/
def rwlCell (s : State) (c : Nat) : List Nat :=
  if !s.goodCell c then [0, 0, 0]
  else
    let x := s.cell c
    if kindOf c = .M then [x.mm.tol0, x.mm.tol1, flipWordOf x.stash] else [0, 0, flipWordOf x.stash]

/-- The string of measurement 5 (R733). -/
def rwlString (s : State) : Bytes :=
  ([b2n s.rst.compat, s.pwr.rate, s.thm.kFactor + s.thm.tinMax * 2 ^ 14, s.thm.wMax] ++
    (List.range 32).flatMap fun r => (s.region r).bulkShare :: (regionCells r).flatMap (rwlCell s)).flatMap (leBytes 4)

/-- LOCK (R732, R733): every RWL field is frozen and measured. -/
def execLock (sb : Bool) (s : State) : Host.Outcome State Fault Refusal :=
  .next (runStep s sb 8 fun s =>
    { s with rst := { s.rst with locked := true }, sec := { s.sec with meas5 := some (sha3 (rwlString s)) } })

/-- READY (R96, R665): READY is set, and the first sheet opens with the tick count at 0. -/
def execReady (sb : Bool) (s : State) : Host.Outcome State Fault Refusal :=
  .next (runStep s sb 9 fun s =>
    let sht := { s.sht with opened := true, openCycle := s.clk.cycles, openPs := s.clk.ps, lastDone := some s.clk.cycles, tick := 0 }
    { s with rst := { s.rst with ready := true }, sht, keep := { s.keep with lastSnap := s.clk.ps } })

/-- The domains that a step waits for (R665). -/
def stepDomains (s : State) (n : Nat) : Bool :=
  match n with
  | 1 => s.up 1 && s.up 2 && s.up 3
  | 5 => s.up 4 && s.up 5 && s.up 6
  | 6 => s.up 7
  | _ => true

/-- BRG_STEP_COMPLETE (R665, R666, R681): the running step ends. A failed LOAD_FW opens the staging window again; a completed
one starts the firmware, and the window holds zeros from then on. -/
def execBrgStepComplete (s : State) : Host.Outcome State Fault Refusal :=
  match s.rst.step with
  | none => .next s
  | some (n, _) =>
    if !s.rst.worked then .next s
    else if s.rst.stepFail != 0 then
      let s := failStep s s.rst.stepFail
      .next (if n == 2 then { s with sec := { s.sec with windowShut := false } } else s)
    else if !stepDomains s n then .next s
    else
      let s := afterDomains s n
      let s := { s with rst := { s.rst with done := n, step := none, worked := false } }
      .next (if n == 2 then { s with sec := { s.sec with fwRunning := true, window := [] } } else s)

end Sys2Proof.Machine
end

