-- ==== Sys2Proof/Machine/Ticks.lean ====
section
/-! DEFINITION. The tick and what happens at it (R45, R69 to R90, R139, R163, R394, R578, R591, R597, R644, R662, R712, R758, R760). -/

namespace Sys2Proof.Machine

open Sys2Proof

/-! ### Counts of the sheet that closes (R72, R75, R712, R715) -/

/-- What the closing tick counts: the tick wait of a group, the overrun that ends with the tick, the cells' sleep, the tick. -/
def closeCounts (s : State) : State :=
  let now := s.clk.cycles
  let s := endOverrun (match s.sht.doneSent with
    | some t => s.countChip 0x304 (now - t)
    | none => s)
  let ran := s.jobs.filter fun j => decide (j.phase = .running)
  let s := ran.foldl (fun s j => (jobCells j).foldl (fun s c =>
    let q := (s.cell c).seq
    if q.job != j.id then s
    else (s.countCell 0x001 c (q.doneAt - s.sht.openCycle - q.slept)).countCell 0x00D c (now - q.doneAt)) s) s
  s.countChip 0x301 1

/-- Every counter copies its count to its snapshot, and a new selection begins (R712, R713). -/
def snapCounters (s : State) : State :=
  let f (c : Counter) : Counter := match c.pend with
    | some sel => { c with snap := c.count, sel, count := 0, pend := none }
    | none => { c with snap := c.count }
  { s with mon := { s.mon with counters := smap {} f s.mon.counters } }

/-- The count goes on, or becomes the group's largest at the first tick after formation (R96, R536); the next sheet's budget
starts, under a new period if one was written (R64, R75). -/
def openSheet (s : State) : State :=
  let sht := { s.sht with
    tick := s.grp.adopt.getD (s.sht.tick + 1), groupActive := s.sht.groupActive || s.grp.adopt.isSome
    openCycle := s.clk.cycles, openPs := s.clk.ps, lastDone := none, overrun := false, doneSent := none
    period := s.sht.nextPeriod.getD s.sht.period, nextPeriod := none }
  { s with sht, grp := { s.grp with adopt := none } }

/-- ERR_SUMMARY (R644): a drop counter differs from its last reported value, at least 64 ticks later. -/
def errSummary (s : State) : State :=
  let due := s.err.lastSummary.all fun t => decide (t + 64 ≤ s.sht.tick)
  if !due || decide (s.err.drops = s.err.lastDrops) then s
  else
    let det := (List.range 8).map fun k => (sget 0 s.err.drops k : Nat) - sget 0 s.err.lastDrops k
    raiseChip { s with err := { s.err with lastSummary := some s.sht.tick, lastDrops := s.err.drops } } 0x3002 0 0 0 0 det

/-! ### Jobs (R82, R86 to R90, R163, R758, R760) -/

/-- The closing tick is a yield tick for a job (R85). -/
def yieldTick (s : State) (noYield : Nat) (j : Job) : Bool :=
  (jobCells j).all (fun c => (s.cell c).seq.yields) && (!grouped j || !bit noYield (j.id % 4))

/-- An interactive job latched at least 64 core cycles ago waits for this one (R86). -/
def claimed (s : State) (j : Job) : Bool :=
  !j.interactive && s.jobs.any fun k => decide (k.phase = .claiming) && decide (k.claimedAt + 64 ≤ s.clk.cycles) &&
    (rivals s k).any fun x => x.id == j.id

/-- An ended job leaves (R758). -/
def finishEnded (s : State) (id : Nat) : State :=
  match s.job? id with
  | none => s
  | some j => match j.ending with
    | some e => finishJob s j e.status e.seq
    | none => s

/-- The wait timeout of a descriptor of a job that is switched out stops counting (R500). -/
def stopWait (job now : Nat) (d : Desc) : Desc :=
  match d.waitFrom with
  | some t => if dJob d.raw == job && d.phase = .waiting then { d with waited := d.waited + (now - t) } else d
  | none => d

/-- A bulk job is switched out (R86 to R88), or ends where its save would not fit (R760) or a master copy of its cairns cannot be read
(R491). What its twin's comparison held belongs to the sheets before (R540). -/
def preempt (s : State) (j : Job) : State :=
  let liveAt := (jobCells j).map fun c => (c, (s.cell c).seq.live)
  let kept := (jobCells j).map fun c => ⟨c, (s.cell c).seq.gran, (s.cell c).seq.banks⟩
  let j' := { j with liveAt, kept }
  let need := saveHead j' + saveLive j'
  if j.params.saveLen < need then finishEnded (raiseChip s 0x3005 2 0 0 j.id [need, j.params.saveLen]) j.id
  else
    let s := takeHead (s.updJob j.id fun x => { x with liveAt, kept, twinMine := [], twinTheirs := [] }) { j with liveAt, kept }
    if (s.job? j.id).any (·.ending.isSome) then finishEnded s j.id else
    let s := s.updJob j.id fun x => { x with phase := .saving }
    let s := { s with hif := { s.hif with descs := s.hif.descs.map (stopWait j.id s.clk.cycles) } }
    let s := takeCells s j
    { s with clearing := s.clearing ++ [⟨j.id, jobCells j, j.params.cairnBase, j.params.cairnCount, s.clk.cycles, true, s.thm.stopped, false⟩] }

/-- A running job's next sheet opens: the check value starts at 0, and of its twin's values only one for this sheet stays (R539,
R540). -/
def nextSheet (s : State) (j : Job) : State :=
  let theirs (x : Job) := x.twinTheirs.filter fun e => e.1 == s.sht.tick % 4
  (jobCells j).foldl openCell (s.updJob j.id fun x =>
    { x with sheet := x.sheet + 1, phase := .running, twinSum := 0, twinMine := [], twinTheirs := theirs x })

/-- The forecast word that the closing sheet should have posted (R82). -/
def checkForecast (s : State) (j : Job) : State :=
  let n := j.sheet + 4
  if n ≤ j.image.sheetCount && !j.forecasts.any fun e => e.1 == n then
    { s with sht := { s.sht with forecastMissing := true } }
  else s

/-- A running job at a tick: it ends, is switched out, or goes on to its next sheet. -/
def tickRunning (noYield : Nat) (s : State) (id : Nat) : State :=
  match s.job? id with
  | none => s
  | some j =>
    if j.phase ≠ .running then s
    else if j.ending.isSome then finishEnded s id
    else if j.image.sheetCount ≤ j.sheet then finishJob s j 0 0
    else
      let s := checkForecast s j
      if yieldTick s noYield j && claimed s j then preempt s j else nextSheet s j

/-- An ended job that does not run leaves as well. -/
def tickEnded (s : State) (id : Nat) : State :=
  match s.job? id with
  | some j => if j.phase = .running then s else finishEnded s id
  | none => s

/-- An interactive job takes cells that every rival has yielded (R86, R90); its placement is held against the fences that fell
while it waited (R127). -/
def tickClaiming (s : State) (id : Nat) : State :=
  match s.job? id with
  | none => s
  | some j =>
    if j.phase ≠ .claiming || !(rivals s j).all yielded then s
    else if !cellsFit s j.image then
      let t := dropJob s j
      match startDesc s j with
      | some d => complete t d 0x23 0
      | none => t
    else beginPrepare (s.updJob id fun x => { x with phase := .preparing }) j

/-- A prepared or restored job opens its sheet once no clearing of its cells or cairns is left (R89, R90); none opens during an
emergency stop (R613). -/
def tickReady (s : State) (id : Nat) : State :=
  match s.job? id with
  | none => s
  | some j =>
    if s.thm.stopped || j.ending.isSome then s
    else if j.phase = .restored then nextSheet (flushRings s id) j
    else if j.phase ≠ .ready || s.clearing.any (clearTouches · j) then s
    else
      let s := match startDesc s j with
        | some d => updDesc s d fun x => { x with phase := .begun }
        | none => s
      nextSheet (s.updJob id fun x => { x with started := s.sht.tick }) j

/-- A pre-empted job resumes when no running job holds what it held and the clearing is over (R90). -/
def tickPreempted (s : State) (id : Nat) : State :=
  match s.job? id with
  | none => s
  | some j =>
    if j.phase ≠ .preempted || j.ending.isSome || s.thm.stopped || (rivals s j).any (fun k => !yielded k)
        || s.clearing.any (clearTouches · j) then s
    else s.updJob id fun x => { x with phase := .restoring }

/-- Every job at a tick. -/
def tickJobs (s : State) (noYield : Nat) : State :=
  let ids := s.jobs.map (·.id)
  let s := ids.foldl tickEnded s
  let s := ids.foldl (tickRunning noYield) s
  let s := ids.foldl tickPreempted s
  let s := ids.foldl tickClaiming s
  ids.foldl tickReady s

/-! ### Pace (R73, R577, R578) -/

/-- The code agreed at the tick joins the ones to apply; the code agreed two ticks before is applied; the next code to
advertise is formed (R73, R578). Pace holds while the PWR or the THM block is in reset (R659). -/
def tickPace (s : State) (groupPace : Option Nat) : State :=
  if powerHeld s then s
  else
    let agreed := match groupPace with
      | some p => if p < s.grp.own.1 then (p, 6) else (p, s.grp.own.2)
      | none => advertisedNow s
    let s := { s with pwr := { s.pwr with agreed := s.pwr.agreed ++ [agreed] } }
    let s := match s.pwr.agreed with
      | (code, term) :: a :: b :: rest =>
        let s := { s with pwr := { s.pwr with agreed := a :: b :: rest } }
        if code == s.pwr.pace then s
        else
          let s := paceHistory s code term false
          ({ s with pwr := { s.pwr with pace := code } }).countChip 0xF03 1
      | _ => s
    let (code, term) := paceTerms s
    relock { s with pwr := { s.pwr with advertised := min code (s.pwr.advertised + 4), limitTerm := term } }

/-! ### Store-die estimates and the thermal code's hold (R591, R592, R597) -/

/-- One column's estimate at a tick; `dt` is the length of the closing sheet in ps. The marks raise SENSOR_SUSPECT as every mark does (R617). -/
def storeEstimate (dt : Nat) (s : State) (c : Nat) : State :=
  let watts := 2500000 + 30000000 * (s.column c).lines / max 1 dt
  let t : Int := 137500 * regionTemp s c + 112500 * regionTemp s (c + 16) + (15 * watts / 100 : Nat)
  let g := micro (governing s (128 + 2 * c))
  let run := if g + 6000000 < t then (s.column c).estRun + 1 else 0
  let was := estGoverns s c
  let s := s.updColumn c fun x => { x with tEst := t, estRun := min 3 run, lines := 0 }
  if run != 3 || was then s
  else
    let gen := nextGeneration s
    let head := 128 + 2 * c
    let fresh := [head, head + 1].filter fun n => !suspect s n
    let s := fresh.foldl (fun s n => sensorRecord s n head gen true) (surveyChange (markSensor (markSensor s head) (head + 1)))
    let s := s.updColumn c fun x => { x with estGoverns := true }
    raiseChip s 0x6102 0 7 0 0 [c, word32 (t / 250000), word32 (g / 250000), gen] true true

/-- A column forecast high for four sheets and at 92 °C or more (R597). -/
def columnHot (s : State) (c : Nat) : Bool :=
  (List.range 4).all (fun k => columnLevel s c k == 3) &&
  decide (micro 368 ≤ max (storeTemp s c) (max (micro (regionTemp s c)) (micro (regionTemp s (c + 16)))))

/-- The thermal controller at a tick. -/
def tickHeat (s : State) (dt : Nat) : State :=
  let s := (List.range 16).foldl (storeEstimate dt) s
  { s with thm := { s.thm with holdCode := (List.range 16).any (columnHot s) } }

/-! ### Regions (R84, R332, R571) -/

/-- A cell loses what its logic holds as its region is gated: buffers, accumulators, the stream segments fetched; registers and stash
keep their values (R660, R731; log entry 35). -/
def loseLogic (s : State) (c : Nat) : State :=
  if s.cells.all fun e => e.1 != c then s
  else (clearLogic s c).updSeq c fun q => { q with stream := [], fetched := false, next := none }

/-- A region's power gate opens: what it still draws goes onto the ballast, which decays as release grants arrive (R567, R568). -/
def gateRegion (s : State) (r : Nat) : State :=
  (regionCells r).foldl loseLogic (s.updPw r fun p =>
    { p with gated := true, ballast := p.ballast + p.draw, gliding := [], draw := 0, want := 0, clip := 8 })

/-- One region at a tick: gated where it is idle, woken where its column is forecast busy two sheets on. -/
def tickRegion (busy : List Nat) (s : State) (r : Nat) : State :=
  let p := (s.region r).pw
  let c := columnOf r
  if p.gated then
    if p.wake.isNone && !s.thm.stopped && columnLevel s c 2 != 0 && s.regionReason r == 0 then beginWake s r false else s
  else
    let s := s.updPw r fun p => { p with liveTicks := p.liveTicks + 1 }
    if p.ballast == 0 && !busy.contains r && (List.range 3).all (fun k => columnLevel s c k == 0)
    then gateRegion s r else s

/-- The regions whose cells issued work in the closing sheet. -/
def busyRegions (s : State) : List Nat := ((s.cells.filter fun e => e.2.seq.issued).map fun e => regionOf e.1).dedup

/-! ### The group's next sheet (R528, R529) -/

/-- The new sheet starts its fields from the held values, its ABORT from the member's own as well; the aborts reach the jobs (R78,
R528). -/
def tickGroup (s : State) : State :=
  let held := s.grp.heldAbort
  let s := { s with grp := { s.grp with level := 14, noYield := s.grp.heldNoYield, abort := held ||| s.grp.ownAbort, ownAbort := 0, pace := s.grp.heldPace,
                                        heldNoYield := 0, heldAbort := 0, heldPace := 63 } }
  if s.sht.groupActive then announce (peerAborts s held) else s

/-! ### The tick (R69, R70) -/

/-- Everything that happens at a tick, in order. DESIGN CHOICE (log entry 40): the tables switch before the jobs end, so a TABLE whose
commit flag was written before the tick at which its job ends completes OK and not JOB_ENDED (R139 and R145 leave the order open). -/
def fireTick (s : State) : State :=
  let inGroup := s.sht.groupActive
  let noYield := s.grp.noYield
  let groupPace := if inGroup then some s.grp.pace else none
  let busy := busyRegions s
  let dt := s.clk.ps - s.sht.openPs
  let s := errSummary (openSheet (snapCounters (closeCounts s)))
  let s := switchTables s
  let s := endUnbegun (tickJobs s noYield)
  let s := (applyRequest s).cells.foldl (fun s e => if e.2.stash.marked == 0 then s else retireGranules s e.1) (applyRequest s)
  let s := tickPace (switchSurvey s) groupPace
  let s := (List.range 32).foldl (tickRegion busy) (tickHeat s dt)
  let s := tickGroup (compatResets s)
  flushJobs s.noteDone

/-- The tick may fire: the sheet is open, the time of R69 has come, and in a group the level is that of the diameter. -/
def mayTick (s : State) : Bool :=
  s.sht.opened && s.allDone && (!s.sht.groupActive || (s.grp.level == s.grp.diam && !s.grp.neighbourLost))

/-- TICK (R69, R70): fires at max(P, D + 64) core cycles after the last one, once every cell and every member is done. -/
def execTick (ph : List Phys) (s : State) : Host.Outcome State Fault Refusal :=
  let s := injectAll s ph
  match dueCycle s with
  | none => .next s
  | some d =>
    if !s.sht.opened then .next s
    else
      let s := agree (s.untilCycle d)
      .next (if mayTick s then fireTick s else s)

/-! ### The tick wait limit (R79) -/

/-- Hops between two members of a shape (R535). -/
def hops (topology ringSize a b : Nat) : Nat :=
  let ring (x y : Nat) : Nat := let d := (max x y - min x y) % ringSize; min d (ringSize - d)
  match topology with
  | 0 => ring a b
  | 1 => if a == b then 0 else 1
  | _ => ring (a % 16) (b % 16) + (if a / 16 == b / 16 then 0 else 1)

/-- The members whose done has not arrived, as a mask: a level of k, the member's own or a neighbour's, tells that every member within k
hops of it is done (R79, R528). -/
def missingMembers (s : State) : Nat :=
  let known := (s.sht.member, s.grp.level) :: (groupRoles s.grp.topology).filterMap fun r =>
    (neighbourOf s.grp.topology s.grp.ringSize s.sht.member r).bind fun m => (neighbourLevel s r).map fun k => (m, k)
  (List.range 32).foldl (fun m k =>
    if bit s.sht.mask k && known.all (fun e => decide (e.2 < hops s.grp.topology s.grp.ringSize e.1 k)) then m ||| 2 ^ k else m) 0

/-- TICK_WAIT_LIMIT (R79): the tick wait reaches LIMIT + 4 periods: the device leaves its group, its group jobs end, and it fires its
tick and ticks alone. -/
def execTickWaitLimit (s : State) : Host.Outcome State Fault Refusal :=
  match s.sht.doneSent with
  | none => .next s
  | some t =>
    if !s.sht.groupActive then .next s
    else
      let s := agree (s.untilCycle (t + (s.sht.limit + 4) * s.sht.period))
      if mayTick s then .next s
      else
        let m := missingMembers s
        let js := s.jobs.filter fun j => grouped j && j.phase ≠ .claiming
        let s := if js.isEmpty then raiseChip s 0x3102 0 0x0A 0 0 [m]
          else js.foldl (fun s j => raiseChip s 0x3102 2 0x0A 0 j.id [m] false true) s
        .next (fireTick (leaveGroup s))

end Sys2Proof.Machine
end

