-- ==== Sys2Proof/Machine/ErrEvents.lean ====
section
/-! DEFINITION. Events of the error controllers, the host error ring, and the error history of the NOR (R626 to R645, R672). -/

namespace Sys2Proof.Machine

open Sys2Proof

/-! ### Controllers that fail (R630, R633) -/

/-- REGION_CTRL_FAULT (R633): the region is fenced with reason 0xB. -/
def execRegionCtrlFault (r : Nat) (s : State) : Host.Outcome State Fault Refusal :=
  if !regionUp s r || s.regionReason r != 0 then .next s
  else
    let gen := nextGeneration s
    let s := raise s { code := 0x2001, sev := 1, level := 2, unit := r * 256, job := holderOf s (regionCells r), det := [r, gen]
                       ends := true, hist := true, cells := regionCells r }
    .next (fenceRegion s r 0xB)

/-- BLOCK_ERR_FAULT (R633): chip-fatal; with EB5_COMPAT the block is reset (R661). -/
def execBlockErrFault (b : Nat) (s : State) : Host.Outcome State Fault Refusal :=
  if 384 ≤ b || !regionUp s (b / 12) || s.blockReason b != 0 then .next s
  else .next (compatNow (raise s { code := 0x1001, sev := 3, level := 1, unit := blockId b, det := [blockId b] }))

/-- REGION_ERR_FAULT (R633): chip-fatal; with EB5_COMPAT the region is reset (R661). -/
def execRegionErrFault (r : Nat) (s : State) : Host.Outcome State Fault Refusal :=
  if !regionUp s r || s.regionReason r != 0 then .next s
  else .next (compatNow (raise s { code := 0x2002, sev := 3, level := 2, unit := r * 256, det := [r] }))

/-- ERR_HANDLER_FAULT (R630): chip-fatal; its record goes to the side-band past the chip-level controller, which numbers
nothing: SEQ 0 (DEDUCED). -/
def execErrHandlerFault (kind : Nat) (s : State) : Host.Outcome State Fault Refusal :=
  let s := chipFatal { s with err := { s.err with handlerFault := true } }
  let marks := alarmBits 0x3001 3 0 [kind]
  let a : Alarm := sget {} s.err.alarms (marks.headD 0)
  let s := marks.foldl (alarmOne 0x3001 0 0) s
  let r : ErrRec := { code := 0x3001, sev := 3, alarm := true, level := 3, cycle := s.sinceTick, tick := s.sht.tick, det := [kind] }
  let s := { s with keep := { s.keep with historyQ := s.keep.historyQ ++ [r] } }
  .next (if a.set && a.srcCode == 0x3001 then dropped s 7 1 else pushSideBand s r)

/-! ### Queues and the host ring (R628, R640, R643, R645) -/

/-- The oldest record of a list enters the queue above it; `rest` takes it off the list. -/
def promote (s : State) (q : List ErrRec) (into : State → ErrRec → Option State) (rest : State → List ErrRec → State) : State :=
  match q with
  | [] => s
  | r :: q' => match into s r with
    | some s => rest s q'
    | none => s

/-- A record that waits at a unit of a level enters that level's queue where it has room (R628). -/
def admitWaiting (s : State) (lvl unit : Nat) : State :=
  match s.err.chipWait.find? fun r => r.level == lvl && controllerOf lvl r.unit == controllerOf lvl unit with
  | none => s
  | some r => match enqueue s lvl r.unit r with
    | some s => { s with err := { s.err with chipWait := dropFirst (fun x => x = r) s.err.chipWait } }
    | none => s

/-- ERROR_RECORD_ACCEPTED (R628): the oldest record of a level's queue enters its parent's queue, the staging FIFO
for the chip's, and one that waits at a unit takes its place. -/
def execErrorRecordAccepted (level unit : Nat) (s : State) : Host.Outcome State Fault Refusal :=
  let s := match level with
    | 3 => promote s s.err.chipQ stage fun s q => setQueue s 3 unit q
    | 2 => promote s (queueOf s 2 unit) (fun s r => enqueue s 3 unit r) fun s q => setQueue s 2 unit q
    | 1 => promote s (queueOf s 1 unit) (fun s r => enqueue s 2 unit r) fun s q => setQueue s 1 unit q
    | 0 => promote s (queueOf s 0 unit) (fun s r => enqueue s 1 unit r) fun s q => setQueue s 0 unit q
    | _ => s
  .next (flushJobs (admitWaiting s level unit))

/-- The host copy of the oldest staged record is written (R640, R645). -/
def writeErrRing (s : State) (r : ErrRec) (rest : List ErrRec) : State :=
  let size := 2 ^ s.err.sizeLog2
  let addr := s.err.base + s.err.pi % size * 64
  let lap := s.err.pi / size % 2 == 0
  let s := (s.emit (.hostWrite addr (recBytes r lap)))
  let s := { s with err := { s.err with staging := rest, pi := inc32 s.err.pi } }
  if r.sev == 0 then moderate s s.err.vector else sendVector s s.err.vector

/-- ERR_RING_WRITE (R640): a staged record goes to the host while the ring has room; a failed write turns the ring off. -/
def execErrRingWrite (refused : Bool) (s : State) : Host.Outcome State Fault Refusal :=
  match s.err.staging with
  | [] => .next s
  | r :: rest =>
    if !s.err.enable || 2 ^ s.err.sizeLog2 ≤ dist32 s.err.pi s.err.ci then .next s
    else if refused || !s.hif.linkUp then
      let addr := s.err.base + s.err.pi % 2 ^ s.err.sizeLog2 * 64
      let pi := s.err.pi
      .next (flushJobs (hostFail (discardStaged s) 4 0xFFFFFFFF pi addr))
    else .next (flushJobs (writeErrRing s r rest))

/-- LIMITER_SLOT_EXPIRY (R642): the oldest limiter slot frees 1,024 core cycles after its admission. -/
def execLimiterSlotExpiry (s : State) : Host.Outcome State Fault Refusal :=
  match s.err.slots with
  | [] => .next s
  | x :: rest => .next ({ s with err := { s.err with slots := rest } }.untilCycle x.till)

/-! ### The error history (R672, R673) -/

/-- The 64 bytes of an entry. -/
def historyEntry (b : Bytes) : Bytes :=
  let b := slice b 0 56
  b ++ leBytes 4 (crc32c b) ++ [0x5A, 0xFF, 0xFF, 0xFF]

/-- A PAIR_MARKED entry whose pair is still marked: TRAIN_MEM has not acted on it. -/
def stillMarked (s : State) (e : Bytes) : Bool :=
  num e 4 2 == 0x4008 && (s.stackPlan (num e 0x18 4)).marked.contains (num e 0x1C 4)

/-- A wear snapshot entry. -/
def isSnapshot (e : Bytes) : Bool := num e 4 2 == 0

/-- With fewer than 8 free sectors of 64 entries the oldest is erased, once a committed survey and a later snapshot hold what it
records; the marks still open are appended again first. -/
def eraseOldest (s : State) : State :=
  let h := s.keep.history
  let held := (slotValid s.keep.surveyA || slotValid s.keep.surveyB) && (s.svy.building.isNone || s.svy.committed)
  if h.length ≤ 568 * 64 || !held || !(h.drop 64).any isSnapshot then s
  else { s with keep := { s.keep with history := h.drop 64 ++ (h.take 64).filter (stillMarked s), histBase := s.keep.histBase + 1 } }

/-- Appends entries; `fails` counts the failed writes, the second of which raises NOR_WRITE_FAIL. The kind item of a history
write is open (R670 numbers the slots' kinds only; log entry 2). -/
def appendHistory (s : State) (es : List Bytes) (fails : Nat) : State :=
  if 2 ≤ fails then
    let (w, s) := s.fresh
    norWriteFail s w.toNat ((s.keep.histBase + s.keep.history.length / 64) % 576)
  else eraseOldest { s with keep := { s.keep with history := s.keep.history ++ es } }

/-- ERROR_HISTORY_APPEND (R672): the oldest record due for the history is appended. -/
def execErrorHistoryAppend (fails : Nat) (s : State) : Host.Outcome State Fault Refusal :=
  match s.keep.historyQ with
  | [] => .next s
  | r :: rest =>
    let s := { s with keep := { s.keep with historyQ := rest } }
    .next (appendHistory s [historyEntry (recBytes r false)] fails)

/-- One entry of a wear snapshot. -/
def snapshotEntry (s : State) (part : Nat) : Bytes :=
  let wear := (List.range 12).flatMap fun k =>
    let r := part * 12 + k
    leBytes 4 (if r < 32 then sget 0 s.thm.wear r else if r == 32 then s.thm.l0Suspect else 0)
  historyEntry (leBytes 4 0 ++ leBytes 2 0 ++ leBytes 2 part ++ wear)

/-- WEAR_SNAPSHOT (R672): every hour after READY. -/
def execWearSnapshot (fails : Nat) (s : State) : Host.Outcome State Fault Refusal :=
  if !s.rst.ready then .next s
  else
    let s := s.untilPs (s.keep.lastSnap + 3600 * 10 ^ 12)
    let s := { s with keep := { s.keep with lastSnap := s.clk.ps } }
    .next (appendHistory s ((List.range 3).map (snapshotEntry s)) fails)

end Sys2Proof.Machine
end

