-- ==== Sys2Proof/Machine/Monitor.lean ====
section
/-! DEFINITION. Event counters, the host trace ring, in-band interrupts (R699, R712 to R721). -/

namespace Sys2Proof.Machine

open Sys2Proof

/-! ### The trace ring (R718, R719) -/

/-- Slots of the trace ring. -/
def trcSize (s : State) : Nat := 2 ^ s.mon.trcSize

/-- The trace ring takes a record (R719). -/
def trcRoom (s : State) : Bool := s.mon.trcEnable && decide (dist32 s.mon.trcPi s.mon.trcCi < trcSize s)

/-- The records of a region go to the trace ring: it streams, or its capture is being sent (R718). -/
def traceLeaves (x : RegionSt) : Bool := (x.trcCtrl % 4 == 1 || x.draining) && !x.trace.isEmpty

/-- MON_STATUS.TRACE_FULL: records wait for ring space. -/
def traceFull (s : State) : Bool := !trcRoom s && s.regions.any fun e => traceLeaves e.2

/-- A capture that has been sent whole sets MODE to 0 (R718). -/
def endDrain (s : State) (r : Nat) : State :=
  s.updRegion r fun x => if x.draining && x.trace.isEmpty
    then { x with draining := false, trcCtrl := x.trcCtrl / 4 * 4, trcFrozen := false } else x

/-- TRACE_RING_WRITE (R719): a region's oldest record goes to the host; a failed write turns the ring off. -/
def execTraceRingWrite (r : Nat) (refused : Bool) (s : State) : Host.Outcome State Fault Refusal :=
  if !traceLeaves (s.region r) || !trcRoom s then .next s
  else
    let b := (s.region r).trace.headD []
    let pi := s.mon.trcPi
    let addr := s.mon.trcBase + pi % trcSize s * 32
    let lap := pi / trcSize s % 2 == 0
    let s := s.updRegion r fun x => { x with trace := x.trace.drop 1 }
    if refused || !s.hif.linkUp then
      let s := dropped { s with mon := { s.mon with trcEnable := false } } 6 1
      .next (endDrain (hostFail s 5 0xFFFFFFFF pi addr) r)
    else
      let s := s.emit (.hostWrite addr (slice b 0 4 ++ leBytes 4 (num b 4 4 + b2n lap * 2 ^ 31) ++ slice b 8 24))
      let s := { s with mon := { s.mon with trcPi := inc32 pi } }
      .next (endDrain (moderate s s.mon.traceVector) r)

/-- DRAIN (R718): a capture buffer begins to leave; an empty one leaves at once. -/
def execDrain (r : Nat) (s : State) : Host.Outcome State Fault Refusal :=
  if (s.region r).trcCtrl % 4 != 2 || reach s (regionBase r + 0xA00) = .dead then .next s
  else .next (endDrain (s.updRegion r fun x => { x with draining := true }) r)

/-! ### Counters (R712 to R716) -/

/-- A code is valid in a counter's level (R715): 0 cell, 1 block, 2 region, 3 chip. -/
def codeValid (level code : Nat) : Bool :=
  code == 0 || (1 ≤ code && code ≤ 0xE) || (1 ≤ level && (code == 0x101 || code == 0x102)) ||
  (2 ≤ level && 0x201 ≤ code && code ≤ 0x207 && code != 0x206) ||
  (level == 3 && ((0x301 ≤ code && code ≤ 0x30A) || (0xF01 ≤ code && code ≤ 0xF05)))

/-- Chip counters 32 to 63 are the side-band's (R716). -/
def sideBandCounter (addr : Nat) : Bool := 0x91200 ≤ addr && addr < 0x91400

/-- A selection is taken (R713, R715, R716): the host selects in no side-band counter, and restricted codes stand in those
only. -/
def selAllowed (addr code level : Nat) (sb : Bool) : Bool :=
  codeValid level code && (!sideBandCounter addr || sb) && (code < 0xF00 || (sideBandCounter addr && sb))

/-- Changes a counter. -/
def updCounter (s : State) (addr : Nat) (f : Counter → Counter) : State :=
  { s with mon := { s.mon with counters := supd {} s.mon.counters addr f } }

/-- MON_SEL_WRITE (R713): the selection of the counter at `addr`, for the next tick; or SEL_REJ. -/
def execMonSelWrite (addr value : Nat) (sb : Bool) (s : State) : Host.Outcome State Fault Refusal :=
  match counterLevel addr with
  | none => .next s
  | some level =>
    let code := value % 4096
    if reach s addr = .dead then .next s
    else if selAllowed addr code level sb then .next (updCounter s addr fun c => { c with pend := some code })
    else .next { s with mon := { s.mon with selRej := true } }

/-- The counter is hidden from this reader: the host reads zero from counters 32 to 63 (R716). -/
def hiddenCounter (addr : Nat) (sb : Bool) : Bool := sideBandCounter addr && !sb

/-- A read of MON_SNAP_LO latches the high bits for its reader (R714). -/
def latchHigh (s : State) (addr : Nat) (sb : Bool) : State :=
  if hiddenCounter addr sb then s
  else updCounter s addr fun c =>
    let hi := c.snap / 2 ^ 32 % 65536
    if sb then { c with hiSb := hi } else { c with hiHost := hi }

/-- What MON_SNAP_LO shows a reader. -/
def snapLow (s : State) (addr : Nat) (sb : Bool) : Nat :=
  if hiddenCounter addr sb then 0 else (sget {} s.mon.counters addr).snap % 2 ^ 32

/-- MON_SNAP_LO_READ (R714): the low bits of the snapshot of the counter at `addr`, with the high ones latched. -/
def execMonSnapLoRead (addr : Nat) (sb : Bool) (s : State) : Host.Outcome State Fault Refusal :=
  match counterLevel addr with
  | none => .next s
  | some _ =>
    let (v, s) := match reach s addr with
      | .dead => (0, s)
      | .gated => (0, { s with hif := { s.hif with gatedRead := true } })
      | .open_ => (snapLow s addr sb, latchHigh s addr sb)
    .next (s.emit (if sb then .reply (leBytes 4 v) else .readValue (addr + 8) v))

/-! ### In-band interrupts (R699) -/

/-- IBI_HOLDOFF_EXPIRY (R699): 1 ms after an IBI of a kind, what came meanwhile is signalled together. -/
def execIbiHoldoffExpiry (kind : Nat) (s : State) : Host.Outcome State Fault Refusal :=
  if !bit s.sb.ibiPend kind then .next s
  else
    let s := s.untilPs (sget 0 s.sb.ibiLast kind + 10 ^ 9)
    .next (raiseIbi { s with sb := { s.sb with ibiPend := s.sb.ibiPend - 2 ^ kind } } kind)

end Sys2Proof.Machine
end

