-- ==== Sys2Proof/Machine/Security.lean ====
section
/-! DEFINITION. Staging, fuses, measurements and the SPDM responder (R677 to R695). The layout of SPDM messages is that of DMTF
DSP0274 (PRESUMED, log entry 15). -/

namespace Sys2Proof.Machine

open Sys2Proof

/-! ### Staging (R680, R681) -/

/-- Bytes of the BAR4 window (R104, R680). -/
def windowBytes : Nat := 16777216

/-- A write of the window by the side-band (`sb`) or the host: whether it was taken. -/
def stageWrite (s : State) (sb : Bool) (off : Nat) (data : Bytes) : Bool × State :=
  if !s.up 0 then (false, s)
  else if s.rst.owner != sb then (false, { s with sec := { s.sec with stageRej := true } })
  else if s.sec.windowShut || windowBytes < off + data.length then (false, s)
  else (true, { s with sec := { s.sec with window := Ram.write s.sec.window off data } })

/-- A write of SEC_STAGE (R680, R695): whether it was taken. -/
def stageSet (s : State) (sb : Bool) (value : Nat) : Bool × State :=
  if !s.up 0 || s.inReset 0 8 then (false, s)
  else if s.rst.owner != sb then (false, { s with sec := { s.sec with stageRej := true } })
  else if s.sec.windowShut then (false, s)
  else (true, { s with sec := { s.sec with length := value % 2 ^ 24, staged := bit value 24, source := sb } })

/-- STAGING_WRITE (R680): the host writes bytes of the BAR4 window. -/
def execStagingWrite (off : Nat) (data : Bytes) (s : State) : Host.Outcome State Fault Refusal :=
  .next (stageWrite s false off data).2

/-- SEC_STAGE_WRITE (R680): the host writes SEC_STAGE. -/
def execSecStageWrite (value : Nat) (s : State) : Host.Outcome State Fault Refusal := .next (stageSet s false value).2

/-- A claim or release of bring-up (R663, R680). -/
def setOwner (s : State) (sb : Bool) : State :=
  { s with rst := { s.rst with owner := sb }, sec := { s.sec with length := 0, staged := false } }

/-! ### Fuses (R683 to R685) -/

/-- A write of SEC_ROLLBACK.COMMIT: whether it was taken. -/
def commitRollback (s : State) : Bool × State :=
  if !s.rst.ready || s.inReset 0 8 then (false, s)
  else if s.keep.rollback == s.sec.svn || s.sec.fuseOp.isSome then (false, { s with sec := { s.sec with rollbackRej := true } })
  else (true, { s with sec := { s.sec with fuseOp := some (0, s.sec.svn) } })

/-- A write of SEC_REVOKE with GO: whether it was taken. -/
def revokeKey (s : State) (value : Nat) : Bool × State :=
  let k := value % 4
  if !s.rst.ready || s.inReset 0 8 || !bit value 31 then (false, s)
  else if k == s.sec.keyIndex || bit s.keep.revoked k || s.sec.fuseOp.isSome then
    (false, { s with sec := { s.sec with revokeRej := true } })
  else (true, { s with sec := { s.sec with fuseOp := some (1, k) } })

/-- COMMIT (R683). -/
def execCommit (s : State) : Host.Outcome State Fault Refusal := .next (commitRollback s).2

/-- SEC_REVOKE (R684). -/
def execSecRevoke (value : Nat) (s : State) : Host.Outcome State Fault Refusal := .next (revokeKey s value).2

/-- FUSE_OPERATION_DONE (R683 to R685, R693). -/
def execFuseOperationDone (s : State) : Host.Outcome State Fault Refusal :=
  match s.sec.fuseOp with
  | none => .next s
  | some (kind, v) =>
    let s := { s with sec := { s.sec with fuseOp := none } }
    if kind == 0 then
      .next (raiseChip { s with keep := { s.keep with rollback := v } } 0x8007 0 8 0 0 [s.keep.rollback, v])
    else .next (raiseChip { s with keep := { s.keep with revoked := s.keep.revoked ||| 2 ^ v } } 0x8008 0 8 0 0 [v])

/-! ### Measurements (R689) -/

/-- Key slots with a digest, as SEC_FUSE shows them. -/
def provisioned (s : State) : Nat := maskOf ((s.keep.keyDigests.take 4).map (· != 0))

/-- The digest of a measurement; none while it is absent. -/
def measurement (s : State) (n : Nat) : Option Nat :=
  match n with
  | 1 => some Config.romDigest
  | 2 => some s.sec.digest
  | 3 => some (sha3 (leBytes 1 s.sec.keyIndex ++ leBytes 1 s.sec.svn ++ leBytes 4 s.sec.version))
  | 4 => some (sha3 (leBytes 1 s.keep.rollback ++ leBytes 1 s.keep.revoked ++ leBytes 1 (provisioned s)))
  | 5 => s.sec.meas5
  | 6 => s.svy.window.map fun w => sha3 (snapBytes w)
  | _ => none

/-- The DMTF value type of a measurement, as a digest: 0 immutable ROM, 1 mutable firmware, 2 hardware configuration, 3 firmware
configuration (PRESUMED, log entry 15). -/
def measType (n : Nat) : Nat := [0, 0, 1, 3, 2, 3, 2].getD n 0

/-- The DMTF measurement block of an index. -/
def measBlock (s : State) (n : Nat) : Bytes :=
  match measurement s n with
  | some d => leBytes 1 n ++ leBytes 1 1 ++ leBytes 2 51 ++ leBytes 1 (measType n) ++ leBytes 2 48 ++ leBytes 48 d
  | none => []

/-- The indices present, of 1 to 6. -/
def presentMeas (s : State) : List Nat := (upto 1 6).filter fun n => (measurement s n).isSome

/-! ### The certificate chain (R688) -/

/-- A fused number of 64 bits as 16 hexadecimal digits (PRESUMED, log entry 15). -/
def hexText (v : Nat) : Bytes :=
  (List.range 16).map fun k =>
    let d := v / 16 ^ (15 - k) % 16
    BitVec.ofNat 8 (if d < 10 then 48 + d else 55 + d)

/-- The device certificate: its subject serial number is the fused one, its key the identity key. -/
def deviceCert (s : State) : Bytes :=
  let c := s.keep.chain
  c.head ++ hexText s.keep.serial ++ c.mid ++ ((s.sec.identity.map fun k => k.pkSeed ++ k.pkRoot).getD []) ++ c.tail

/-- The chain of slot 0 with its SPDM header and root hash: length, two reserved bytes, the hash, the certificates. -/
def chainBytes (s : State) : Bytes :=
  let body := s.keep.chain.rootHash ++ s.keep.chain.product ++ deviceCert s
  leBytes 2 (4 + body.length) ++ [0, 0] ++ body

/-- A chain that R688 allows: at most 61,440 bytes, and a root hash of SHA3-384. -/
def chainFits (s : State) : Bool := s.keep.chain.rootHash.length == 48 && (chainBytes s).length ≤ 61440

/-! ### The SPDM responder (R690 to R692) -/

/-- The connection over DOE (`doe`) or MCTP. -/
def conn (s : State) (doe : Bool) : Spdm := if doe then s.sec.doe else s.sec.mctp

/-- Changes a connection. -/
def updConn (s : State) (doe : Bool) (f : Spdm → Spdm) : State :=
  if doe then { s with sec := { s.sec with doe := f s.sec.doe } } else { s with sec := { s.sec with mctp := f s.sec.mctp } }

/-- The packets of an MCTP message: 64 bytes each but for the last (R700). -/
def mctpPackets (b : Bytes) : List MctpPacket :=
  let n := max 1 (cdiv b.length 64)
  (List.range n).map fun k => ⟨k == 0, k + 1 == n, k % 4, slice b (64 * k) (min 64 (b.length - 64 * k))⟩

/-- A message on MCTP waits to be read: it goes out over the binding in force (R698), and the IBI with it (R699). -/
def replyMctp (s : State) (b : Bytes) : State := (raiseIbi s 0).emit (.mctp s.sb.dynAddr.isSome (mctpPackets b))

/-- Sends a response on a connection; one larger than the requester's DataTransferSize goes in chunks, and the response to a
request that came in chunks stands in the acknowledgement of the last (R691). -/
def respond (s : State) (doe : Bool) (b : Bytes) : State :=
  let x := conn s doe
  let s := updConn s doe fun x => { x with ackHead := [] }
  let send (s : State) (b : Bytes) : State := if doe then s.emit (.reply (x.ackHead ++ b)) else replyMctp s (x.ackHead ++ b)
  if x.transfer != 0 && x.transfer < x.ackHead.length + b.length then
    let s := updConn s doe fun x => { x with chunkOut := some b, chunkSeq := 0, token := (x.token + 1) % 256 }
    send s (leBytes 1 (max 0x12 x.version) ++ [0x7F, 0x0F, 0] ++ leBytes 1 (conn s doe).token)
  else send s b

/-- An ERROR response. -/
def spdmError (s : State) (doe : Bool) (code : Nat) (data : Bytes := []) : Bytes :=
  leBytes 1 (max 0x12 (conn s doe).version) ++ [0x7F] ++ leBytes 1 code ++ [0] ++ data

/-- What an SPDM request brings about: an answer, one that needs a signature, or none. -/
inductive Answer where
  | plain (b : Bytes)
  | signed (b : Bytes)
  | error (code : Nat)

/-- The transcripts after a request of a code and its answer: those of the negotiation, of the certificates, of the measurements. A
request of another kind ends the measurements' transcript, one for measurements that of the certificates. -/
def Spdm.noted (x : Spdm) (code : Nat) (b : Bytes) : Spdm :=
  if code == 0xE0 then { x with meas := x.meas ++ b, certs := [] }
  else if code == 0x81 || code == 0x82 then { x with certs := x.certs ++ b, meas := [] }
  else if code == 0x83 then { x with meas := [] }
  else { x with vca := x.vca ++ b, meas := [] }

/-- What a signature covers: the prefix of the version and the context, and the hash of the transcript with the request and the
unsigned answer `b`. -/
def Spdm.covered (x : Spdm) (code : Nat) (b : Bytes) : Bytes :=
  let minor : Byte := if x.version == 0x13 then 0x33 else 0x32
  let label := if code == 0x83 then ascii "responder-challenge_auth signing" else ascii "responder-measurements signing"
  let head := ascii "dmtf-spdm-v1." ++ [minor] ++ ascii ".*"
  let m := x.vca ++ (if code == 0x83 then x.certs else x.meas) ++ b
  head ++ head ++ head ++ head ++ List.replicate (36 - label.length) 0 ++ label ++ sha3Bytes m

/-- Sends an answer: one that needs a signature waits for the key sequencer, with ResponseNotReady while the sequencer signs
for the other connection (R692). -/
def sendAnswer (s : State) (doe : Bool) (req : Bytes) (a : Answer) : State :=
  let code := num req 1 1
  match a with
  | .error c => respond (updConn s doe fun x => { x with meas := [] }) doe (spdmError s doe c)
  | .plain b => respond (updConn s doe fun x => x.noted code (req ++ b)) doe b
  | .signed b =>
    if (conn s doe).signing.isSome then respond s doe (spdmError s doe 0x03)
    else
      let wait := !s.sec.signQ.isEmpty
      let toSign := (conn s doe).covered code (req ++ b)
      let s := updConn s doe fun x => { x with signing := some b, toSign, certs := [], meas := [], deferred := wait, token := if wait then (x.token + 1) % 256 else x.token }
      let s := { s with sec := { s.sec with signQ := s.sec.signQ ++ [b2n doe] } }
      if wait then respond s doe (spdmError s doe 0x42 ([17] ++ leBytes 1 code ++ leBytes 1 (conn s doe).token ++ [1]))
      else s

/-- A nonce of 32 bytes: free words. -/
def nonce (s : State) : Bytes × State :=
  (List.range 8).foldl (fun (b, s) _ => let (w, s) := s.fresh; (b ++ leBytes 4 w.toNat, s)) ([], s)

/-- The private key in the key sequencer (R686); none before LOAD_FW. -/
def privateKey (s : State) : Bytes := (s.sec.identity.map (·.priv)).getD []

/-- SIGNATURE_DONE (R686, R687): the sequencer's oldest signature, under the identity key, is complete; the response goes out, or is kept for
RESPOND_IF_READY. -/
def execSignatureDone (s : State) : Host.Outcome State Fault Refusal :=
  match s.sec.signQ with
  | [] => .next s
  | k :: rest =>
    let doe := k == 1
    let x := conn s doe
    let s := { s with sec := { s.sec with signQ := rest } }
    match x.signing with
    | none => .next s
    | some b =>
      let (rnd, s) := nonce s
      let full := b ++ slhSign slh256f (privateKey s) rnd [] x.toSign
      let s := updConn s doe fun x => { x with signing := none, toSign := [] }
      if x.deferred then .next (updConn s doe fun x => { x with ready := some full }) else .next (respond s doe full)

/-- The first four bytes of a response. -/
def spdmHead (x : Spdm) (code p1 p2 : Nat) : Bytes := leBytes 1 x.version ++ leBytes 1 code ++ leBytes 1 p1 ++ leBytes 1 p2

/-- The request carries the version negotiated. -/
def sameVersion (x : Spdm) (req : Bytes) : Bool := num req 0 1 == x.version

/-- VERSION: 1.2 and 1.3; a new negotiation begins (R690). -/
def ansVersion (s : State) (doe : Bool) (req : Bytes) : Answer × State :=
  if num req 0 1 != 0x10 then (.error 0x41, s)
  else
    let q := s.sec.signQ.filter (· != b2n doe)
    let s := updConn { s with sec := { s.sec with signQ := q } } doe fun _ => {}
    (.plain ([0x10, 0x04, 0, 0, 0, 2] ++ leBytes 2 0x1200 ++ leBytes 2 0x1300), s)

/-- CAPABILITIES: CERT, CHAL, MEAS with signatures, CHUNK; CTExponent 16 (R691). Its own DataTransferSize and largest message are
free words. -/
def ansCapabilities (s : State) (doe : Bool) (req : Bytes) : Answer × State :=
  let v := num req 0 1
  if v != 0x12 && v != 0x13 then (.error 0x41, s)
  else if req.length < 20 || num req 12 4 < 42 then (.error 0x01, s)
  else
    let s := updConn s doe fun x => { x with version := v, caps := true, algs := false, transfer := num req 12 4 }
    let (a, s) := s.fresh
    let (b, s) := s.fresh
    (.plain (spdmHead (conn s doe) 0x61 0 0 ++ [0, 16, 0, 0] ++ leBytes 4 0x20016 ++ leBytes 4 a.toNat ++ leBytes 4 b.toNat), s)

/-- ALGORITHMS: SHA3-384, no BaseAsymAlgo, one ExtAsym entry (R691). -/
def ansAlgorithms (s : State) (doe : Bool) (req : Bytes) : Answer × State :=
  let x := conn s doe
  if !x.caps then (.error 0x04, s)
  else if !sameVersion x req then (.error 0x41, s)
  else
    let entry : Bytes := [4, 0] ++ leBytes 2 1 ++ leBytes 4 s.keep.vendor
    let s := updConn s doe fun x => { x with algs := true }
    (.plain (spdmHead x 0x63 0 0 ++ leBytes 2 44 ++ [1, 2] ++ leBytes 4 0x20 ++ leBytes 4 0 ++ leBytes 4 0x10 ++
      List.replicate 12 0 ++ [1, 0, 0, 0] ++ entry), s)

/-- A request that needs a finished negotiation. -/
def negotiated (s : State) (doe : Bool) (req : Bytes) (f : Spdm → Answer × State) : Answer × State :=
  let x := conn s doe
  if !x.algs then (.error 0x04, s) else if !sameVersion x req then (.error 0x41, s) else f x

/-- DIGESTS: slot 0 only. -/
def ansDigests (s : State) (doe : Bool) (req : Bytes) : Answer × State :=
  negotiated s doe req fun x => (.plain (spdmHead x 0x01 1 1 ++ leBytes 48 (sha3 (chainBytes s))), s)

/-- CERTIFICATE: a portion of the chain of slot 0. -/
def ansCertificate (s : State) (doe : Bool) (req : Bytes) : Answer × State :=
  negotiated s doe req fun x =>
    let off := num req 4 2
    let rest := (chainBytes s).drop off
    if num req 2 1 % 16 != 0 || (chainBytes s).length ≤ off then (.error 0x01, s)
    else
      let part := rest.take (num req 6 2)
      (.plain (spdmHead x 0x02 0 0 ++ leBytes 2 part.length ++ leBytes 2 (rest.length - part.length) ++ part), s)

/-- The measurement summary hash asked for by a CHALLENGE. -/
def summaryHash (s : State) (kind : Nat) : Bytes :=
  if kind == 0 then [] else leBytes 48 (sha3 ((presentMeas s).flatMap (measBlock s)))

/-- CHALLENGE_AUTH, to be signed. -/
def ansChallenge (s : State) (doe : Bool) (req : Bytes) : Answer × State :=
  negotiated s doe req fun x =>
    if num req 2 1 != 0 then (.error 0x01, s)
    else
      let (n, s) := nonce s
      let ctx := if x.version == 0x13 then slice req 36 8 else []
      (.signed (spdmHead x 0x03 0 1 ++ leBytes 48 (sha3 (chainBytes s)) ++ n ++ summaryHash s (num req 3 1) ++ leBytes 2 0 ++ ctx), s)

/-- MEASUREMENTS: the count, one index, or all; signed on request. -/
def ansMeasurements (s : State) (doe : Bool) (req : Bytes) : Answer × State :=
  negotiated s doe req fun x =>
    let op := num req 3 1
    let signed := bit (num req 2 1) 0
    let idx := if op == 0 then [] else if op == 0xFF then presentMeas s else [op]
    if op != 0 && idx.any (fun n => (measurement s n).isNone) then (.error 0x01, s)
    else
      let record := idx.flatMap (measBlock s)
      let (n, s) := nonce s
      let ctx := if x.version == 0x13 then slice req (if signed then 37 else 4) 8 else []
      let b := spdmHead x 0x60 (if op == 0 then (presentMeas s).length else 0) 0 ++ leBytes 1 idx.length ++ leBytes 3 record.length ++
        record ++ n ++ leBytes 2 0 ++ ctx
      (if signed then .signed b else .plain b, s)

/-- The answer to a request other than the chunk messages and RESPOND_IF_READY (R691). -/
def answer (s : State) (doe : Bool) (req : Bytes) : Answer × State :=
  match num req 1 1 with
  | 0x84 => ansVersion s doe req
  | 0xE1 => ansCapabilities s doe req
  | 0xE3 => ansAlgorithms s doe req
  | 0x81 => ansDigests s doe req
  | 0x82 => ansCertificate s doe req
  | 0x83 => ansChallenge s doe req
  | 0xE0 => ansMeasurements s doe req
  | _ => (.error 0x07, s)

/-- A request on a connection: Busy before LOAD_FW completes (R692); a request of another code than the row's is answered for
what it is. -/
def spdm (s : State) (doe : Bool) (act : State → State) : Host.Outcome State Fault Refusal :=
  if !s.up 0 then .next s
  else if !s.sec.fwRunning then .next (respond s doe (spdmError s doe 0x03))
  else .next (act s)

/-- A request answered by itself. -/
def plainReq (s : State) (doe : Bool) (req : Bytes) : State :=
  let (a, s) := answer s doe req
  sendAnswer s doe req a

/-- GET_VERSION (R690, R691). -/
def execGetVersion (doe : Bool) (req : Bytes) (s : State) : Host.Outcome State Fault Refusal :=
  spdm s doe fun s => plainReq s doe req

/-- GET_CAPABILITIES (R691). -/
def execGetCapabilities (doe : Bool) (req : Bytes) (s : State) : Host.Outcome State Fault Refusal :=
  spdm s doe fun s => plainReq s doe req

/-- NEGOTIATE_ALGORITHMS (R691). -/
def execNegotiateAlgorithms (doe : Bool) (req : Bytes) (s : State) : Host.Outcome State Fault Refusal :=
  spdm s doe fun s => plainReq s doe req

/-- GET_DIGESTS (R691). -/
def execGetDigests (doe : Bool) (req : Bytes) (s : State) : Host.Outcome State Fault Refusal :=
  spdm s doe fun s => plainReq s doe req

/-- GET_CERTIFICATE (R691). -/
def execGetCertificate (doe : Bool) (req : Bytes) (s : State) : Host.Outcome State Fault Refusal :=
  spdm s doe fun s => plainReq s doe req

/-- CHALLENGE (R691). -/
def execChallenge (doe : Bool) (req : Bytes) (s : State) : Host.Outcome State Fault Refusal :=
  spdm s doe fun s => plainReq s doe req

/-- GET_MEASUREMENTS (R691). -/
def execGetMeasurements (doe : Bool) (req : Bytes) (s : State) : Host.Outcome State Fault Refusal :=
  spdm s doe fun s => plainReq s doe req

/-- CHUNK_SEND (R691): a piece of a large request; the acknowledgement of the last carries the answer to the whole. -/
def execChunkSend (doe : Bool) (req : Bytes) (s : State) : Host.Outcome State Fault Refusal :=
  spdm s doe fun s =>
    let x := conn s doe
    let seq := num req 4 2
    let last := bit (num req 2 1) 0
    let size := num req 8 4
    let part := slice req (if seq == 0 then 16 else 12) size
    if num req 1 1 != 0x85 then plainReq s doe req
    else if !x.caps || (seq != 0 && seq != x.chunkInSeq) then respond s doe (spdmError s doe 0x01)
    else
      let whole := if seq == 0 then part else x.chunkIn ++ part
      let ack := spdmHead x 0x05 0 (num req 3 1) ++ leBytes 2 seq
      if last then plainReq (updConn s doe fun x => { x with chunkIn := [], chunkInSeq := 0, ackHead := ack }) doe whole
      else respond (updConn s doe fun x => { x with chunkIn := whole, chunkInSeq := seq + 1 }) doe ack

/-- CHUNK_GET (R691): the next piece of a large response. -/
def execChunkGet (doe : Bool) (req : Bytes) (s : State) : Host.Outcome State Fault Refusal :=
  spdm s doe fun s =>
    let x := conn s doe
    match x.chunkOut with
    | none => if num req 1 1 != 0x86 then plainReq s doe req else respond s doe (spdmError s doe 0x04)
    | some b =>
      let room := x.transfer - 16
      let part := (b.drop (x.chunkSeq * room)).take room
      let last := decide (b.length ≤ (x.chunkSeq + 1) * room)
      if num req 1 1 != 0x86 then plainReq s doe req
      else if num req 3 1 != x.token || num req 4 2 != x.chunkSeq then respond s doe (spdmError s doe 0x01)
      else
        let head := spdmHead x 0x06 (b2n last) x.token ++ leBytes 2 x.chunkSeq ++ leBytes 2 0 ++ leBytes 4 part.length ++
          (if x.chunkSeq == 0 then leBytes 4 b.length else [])
        respond (updConn s doe fun x => { x with chunkSeq := x.chunkSeq + 1, chunkOut := if last then none else some b }) doe (head ++ part)

/-- RESPOND_IF_READY (R692): the deferred response, if its signature is complete. -/
def execRespondIfReady (doe : Bool) (req : Bytes) (s : State) : Host.Outcome State Fault Refusal :=
  spdm s doe fun s =>
    let x := conn s doe
    if num req 1 1 != 0xFF then plainReq s doe req
    else if num req 3 1 != x.token then respond s doe (spdmError s doe 0x01)
    else match x.ready with
      | some b => respond (updConn s doe fun x => { x with ready := none, deferred := false }) doe b
      | none =>
        if x.signing.isSome then respond s doe (spdmError s doe 0x42 ([17] ++ leBytes 1 (num req 2 1) ++ leBytes 1 x.token ++ [1]))
        else respond s doe (spdmError s doe 0x04)

end Sys2Proof.Machine
end

