-- ==== Sys2Proof/Machine/Registers.lean ====
section
/-! DEFINITION. The register map: what each register of BAR0 reads as, and what a write does (R722 to R739). -/

namespace Sys2Proof.Machine

open Sys2Proof

/-! ### Values of the datum-die registers (R736) -/

/-- Bit `n` when `b`. -/
def flag (b : Bool) (n : Nat) : Nat := b2n b * 2 ^ n

/-- GLB (R161, R735). -/
def glbReg (s : State) (o : Nat) : Nat :=
  match o with
  | 0x00 => 0x0007
  | 0x04 => s.grade.part + s.grade.code * 2 ^ 16 + s.grade.paceMax * 2 ^ 24
  | 0x08 => 0x1200 + s.grade.minGoodM * 2 ^ 16
  | 0x0C => s.grade.pkgWatts + s.grade.reliefWatts * 2 ^ 12
  | 0x10 => 0x00000001
  | 0x14 => s.scratch.toNat
  | _ => 0

/-- RST_STATUS (R676). -/
def rstStatus (s : State) : Nat :=
  let r := s.rst
  let held := r.heldFrom.isSome
  r.released + flag held 8 + (if held then (nextDomain s).getD 0 * 2 ^ 9 else 0) + flag r.clockTimeout 12 + r.lastCause * 2 ^ 13 +
    flag r.swRej 15 + flag (!r.units.isEmpty) 16 + flag r.railLost 17

/-- RST. -/
def rstReg (s : State) (o : Nat) : Nat :=
  match o with
  | 0x00 => rstStatus s
  | 0x04 => b2n s.rst.compat
  | _ => 0

/-- BRG_STATUS (R676). -/
def brgStatus (s : State) : Nat :=
  let r := s.rst
  r.done + flag r.step.isSome 4 + flag r.failed 5 + r.cause * 2 ^ 8 + flag r.orderRej 12 + flag r.ownerRej 13 + flag r.ready 14 +
    flag r.memFast 15

/-- BRG. -/
def brgReg (s : State) (o : Nat) : Nat :=
  match o with
  | 0x04 => brgStatus s
  | 0x08 => b2n s.rst.owner
  | _ => 0

/-- SEC (R694, R695). -/
def secReg (s : State) (o : Nat) : Nat :=
  let x := s.sec
  match o with
  | 0x00 => b2n x.fwRunning + flag x.stageRej 1 + flag x.rollbackRej 2 + flag x.revokeRej 3 + flag x.fuseFault 4 + flag x.fuseOp.isSome 5
  | 0x04 => x.length + flag x.staged 24 + flag x.source 25
  | 0x08 => x.keyIndex + x.svn * 2 ^ 8
  | 0x0C => x.version
  | 0x10 => s.keep.rollback + s.keep.revoked * 2 ^ 8 + provisioned s * 2 ^ 12
  | 0x20 => s.keep.serial % 2 ^ 32
  | 0x24 => s.keep.serial / 2 ^ 32
  | 0x28 => s.keep.vendor
  | _ => if 0x40 ≤ o && o < 0x70 then x.digest / 2 ^ (8 * (o - 0x40)) % 2 ^ 32 else 0

/-- A ring's registers (R154). -/
def ringReg (r : Ring) (o : Nat) : Nat :=
  match o with
  | 0x00 => r.base % 2 ^ 32
  | 0x04 => r.base / 2 ^ 32
  | 0x08 => r.cqBase % 2 ^ 32
  | 0x0C => r.cqBase / 2 ^ 32
  | 0x10 => b2n r.enable + flag r.interactive 1 + flag r.priv 3 + r.sizeLog2 * 2 ^ 8 + r.vector * 2 ^ 16
  | 0x14 => r.state
  | 0x18 => r.sqCi
  | 0x1C => r.cqPi
  | 0x20 => r.sqPi
  | _ => 0

/-- A word of the MSI-X table (PCIe). -/
def msixReg (e : Msix) (o : Nat) : Nat :=
  match o with
  | 0 => e.addr % 2 ^ 32
  | 4 => e.addr / 2 ^ 32
  | 8 => e.data
  | _ => b2n e.masked

/-- HIF (R151, R152). -/
def hifReg (s : State) (o : Nat) : Nat :=
  let x := s.hif
  if o == 0 then flag x.degraded 0 + flag x.dbPartial 1 + flag x.dbInvalid 2 + flag x.gatedRead 3 + flag x.hostErr 4
  else if o == 8 then b2n x.fetchEn + x.bulkEngines * 2 ^ 8
  else if 0x1000 ≤ o && o < 0x2000 then ringReg (s.ring ((o - 0x1000) / 0x40)) (o % 0x40)
  else if 0x4000 ≤ o && o < 0x6000 then
    let m : Mod := sget {} x.mods ((o - 0x4000) / 4)
    m.count + m.time * 2 ^ 8
  else if 0x7000 ≤ o && o < 0x7100 then
    maskOf ((upto ((o - 0x7000) * 8) 32).map fun v => (sget {} x.msix v : Msix).pend)
  else if 0x8000 ≤ o then msixReg (sget {} x.msix ((o - 0x8000) / 16)) (o % 16)
  else 0

/-- A pre-emption waits for a yield tick (R93). -/
def yieldPending (s : State) : Bool :=
  s.jobs.any fun k => decide (k.phase = .claiming) && (rivals s k).any fun x => !yielded x

/-- SHT (R92 to R98). SHT_PERIOD reads back an accepted value before the tick at which it takes effect (R64 does not say which of the
two it reads: DESIGN CHOICE; log entry 39). -/
def shtReg (s : State) (o : Nat) : Nat :=
  let x := s.sht
  match o with
  | 0x00 => b2n s.jobActive + flag x.overrun 1 + flag x.stall 2 + flag x.writeRej 3 + flag x.groupActive 4 + flag (yieldPending s) 5 +
      flag x.forecastMissing 6
  | 0x08 => x.nextPeriod.getD x.period
  | 0x0C => x.limit
  | 0x10 => x.tick % 2 ^ 32
  | 0x14 => x.tick / 2 ^ 32 % 2 ^ 32
  | 0x18 => x.overCount
  | 0x20 => x.overCycles % 2 ^ 32
  | 0x24 => x.overCycles / 2 ^ 32
  | 0x30 => x.member + flag x.enable 31
  | 0x34 => x.mask
  | _ => 0

/-- PWR (R585, R586). -/
def pwrReg (s : State) (o : Nat) : Nat :=
  let x := s.pwr
  match o with
  | 0x00 => b2n x.vtableOk + flag x.avsOk 1 + flag x.avsFault 2 + (s.plan.regions.filter fun e => e.2.capped).length * 2 ^ 3 +
      (s.plan.blocks.filter fun e => popcount 8 e.2.trimFailed == 1).length * 2 ^ 9 + flag x.limitRej 18
  | 0x04 => x.pendPkgW.getD x.pkgW
  | 0x08 => x.pendCap.getD x.capGoal
  | 0x0C => x.rate
  | _ => 0

/-- THM_STATUS (R619). -/
def thmStatus (s : State) : Nat :=
  let x := s.thm
  b2n x.stopped + (if x.stopped || x.stopSeen then x.stopCause * 2 else 0) + flag x.stopSeen 3 + flag x.tinOk 4 + flag x.toutOk 5 +
    flag x.implaus 6 + x.l0Suspect * 2 ^ 16

/-- THM (R618, R619). -/
def thmReg (s : State) (o : Nat) : Nat :=
  match o with
  | 0x00 => thmStatus s
  | 0x08 => s.thm.kFactor + s.thm.tinMax * 2 ^ 14
  | 0x0C => s.thm.wMax
  | 0x10 => (List.range 16).foldl (fun n c => n + advice s c * 4 ^ c) 0
  | _ => 0

/-- ERR_STATUS (R647). -/
def errStatus (s : State) : Nat :=
  let e := s.err
  let full := e.enable && !e.staging.isEmpty && decide (2 ^ e.sizeLog2 ≤ dist32 e.pi e.ci)
  b2n e.fatal + flag e.handlerFault 1 + flag full 2 + flag (decide (512 ≤ e.staging.length)) 3

/-- ERR (R646, R647). -/
def errReg (s : State) (o : Nat) : Nat :=
  let e := s.err
  match o with
  | 0x00 => errStatus s
  | 0x08 => e.base % 2 ^ 32
  | 0x0C => e.base / 2 ^ 32
  | 0x10 => b2n e.enable + e.sizeLog2 * 2 ^ 8 + e.vector * 2 ^ 16
  | 0x14 => e.pi
  | 0x18 => e.ci
  | 0x1C => e.nextSeq
  | 0x20 => e.staging.length + min 64 e.chipQ.length * 2 ^ 16
  | _ => if 0x40 ≤ o && o < 0x60 && o % 4 == 0 then sget 0 e.drops ((o - 0x40) / 4) else 0

/-- A counter's registers for a reader (R714, R716): the counter at `base`, offset 0 to 15. -/
def counterReg (s : State) (base o : Nat) (sb : Bool) : Nat :=
  let c : Counter := sget {} s.mon.counters base
  if hiddenCounter base sb then 0
  else match o with
    | 0 => c.pend.getD c.sel
    | 8 => snapLow s base sb
    | 12 => if sb then c.hiSb else c.hiHost
    | _ => 0

/-- MON (R720, R721). -/
def monReg (s : State) (o : Nat) (sb : Bool) : Nat :=
  let m := s.mon
  match o with
  | 0x00 => b2n m.selRej + flag (traceFull s) 1
  | 0x04 => m.alarmVector + m.traceVector * 2 ^ 16
  | 0x20 => m.trcBase % 2 ^ 32
  | 0x24 => m.trcBase / 2 ^ 32
  | 0x28 => b2n m.trcEnable + m.trcSize * 2 ^ 8
  | 0x2C => m.trcPi
  | 0x30 => m.trcCi
  | _ =>
    if 0x100 ≤ o && o < 0x120 then maskOf ((upto ((o - 0x100) * 8) 32).map fun b => sget false m.pend b)
    else if 0x1000 ≤ o && o < 0x1400 then counterReg s (0x90000 + o / 16 * 16) (o % 16) sb else 0

/-- SYN (R513, R514). -/
def synReg (s : State) (o : Nat) : Nat :=
  let x := s.syn
  if o == 0 then b2n x.latched + flag x.timeout 1 + flag x.wrap 2 + x.corrected * 2 ^ 16
  else if o == 8 then x.dlJob + x.dlWaiters * 2 ^ 16 + flag x.dlGroup 24
  else if 0x40 ≤ o && o < 0x80 then x.dlWaiter.getD ((o - 0x40) / 4) 0
  else if 0x1000 ≤ o && o < 0x5000 then cairnVal s ((o - 0x1000) / 4) 32
  else 0

/-- SVY (R51 to R54). -/
def svyReg (s : State) (o : Nat) : Nat :=
  let x := s.svy
  let shown := if 7 ≤ s.rst.done then x.window else none
  if o == 0 then b2n shown.isSome + flag (x.building.isSome || x.waiting) 1 + flag x.changed 2 + flag x.belowGrade 3 + flag x.fromTest 4 +
    flag x.request.isSome 5
  else if o == 8 then (shown.map (·.generation)).getD 0
  else if o == 0xC then 20808
  else if 0x8000 ≤ o then (shown.map fun w => num (snapBytes w) (o - 0x8000) 4).getD 0
  else 0

/-- MSC (R451, R452). -/
def mscReg (s : State) (n o : Nat) : Nat :=
  let x := s.stack n
  let p := s.stackPlan n
  let valid := decide (3 ≤ s.rst.done)
  match o with
  | 0x00 => b2n x.trained + flag (decide (8 ≤ n)) 1 + flag p.fenced 2 + flag x.uncorr 3 + flag x.cacheUncorr 4 +
      (if valid then (32 - p.sparesUsed) * 2 ^ 5 else 0) + x.markedCount * 2 ^ 11
  | 0x04 => x.corrected + x.uncorrected * 2 ^ 16
  | 0x08 => x.lapCode + x.laps * 2 ^ 16
  | 0x0C => x.postponeMax + flag x.doubled 4
  | 0x10 => min 32 x.bulkQ.length + min 32 x.interQ.length * 2 ^ 8 + flag (x.bulkQ.any (·.started)) 16 + flag (x.interQ.any (·.started)) 17
  | 0x14 => if valid then plotUnits s n else 0
  | _ => 0

/-- LNK (R549, R550). -/
def lnkReg (s : State) (n o : Nat) : Nat :=
  let p := s.port n
  match o with
  | 0x00 => p.role
  | 0x04 => p.lanes + portWidth p * 2 ^ 8 + flag p.fast 10 + flag p.writeRej 11 + flag p.lost 12
  | 0x08 => p.retries + p.fecUncorr * 2 ^ 16
  | 0x0C => p.partnerMember + p.partnerPort * 2 ^ 8
  | 0x100 => if n == 0 then s.grp.topology + s.grp.ringSize * 4 else 0
  | 0x104 => if n == 0 then flag s.grp.forming.isSome 0 + flag s.grp.formed 1 + flag s.grp.formFail 2 + s.grp.diam * 2 ^ 3 else 0
  | _ => 0

/-! ### Values of the relief's registers (R737 to R739) -/

/-- A region controller's registers. -/
def regionReg (s : State) (r o : Nat) (sb : Bool) : Nat :=
  let x := s.region r
  match o with
  | 0x400 => x.netCorrected + flag x.netFault 16
  | 0x404 => x.bulkShare
  | 0x408 => min 8 (atRouter s.reds r) + x.redSat * 2 ^ 16
  | 0x500 => b2n x.fallback + x.scrubMax * 2 ^ 8
  | 0x504 => b2n x.stsRej + flag x.stsUncorr 1 + x.laps * 2 ^ 16
  | 0x600 => min 1023 x.pw.viaRatio + flag (s.regionPlan r).capped 10 + flag x.pw.gated 11
  | 0x700 => min 8 (queueOf s 2 (r * 256)).length + sget 0 s.err.overRegion r * 2 ^ 16
  | 0xA00 => x.trcCtrl
  | 0xA04 => x.trace.length + flag x.trcFrozen 12 + x.trcDropped * 2 ^ 16
  | _ => if 0x900 ≤ o && o < 0xA00 then counterReg s (regionBase r + o / 16 * 16) (o % 16) sb else 0

/-- A block's registers. -/
def blockReg (s : State) (b o : Nat) (sb : Bool) : Nat :=
  let p := s.blockPlan b
  match o with
  | 0x3000 => p.trimFailed + flag (popcount 8 p.trimFailed == 1) 8
  | 0x3100 => min 8 (queueOf s 1 (blockId b)).length + sget 0 s.err.overBlock b * 2 ^ 16
  | _ => if 0x3300 ≤ o && o < 0x3340 then counterReg s (blockBase b + o / 16 * 16) (o % 16) sb else 0

/-- The MM registers of an M cell (R255, R256). BUSY reads 0: a command is whole (log entry 16). -/
def mmReg (s : State) (c o : Nat) : Nat :=
  let m := (s.cell c).mm
  let valid := s.svy.window.isSome
  let run := heldRun s c
  match o with
  | 0x100 =>
    let tiles := run.elim (if valid then 16 * (s.goodBanks c).length else 0) fun r => 16 * r.length
    (if valid then maskOf ((List.range 4).map fun b => (s.goodBanks c).contains b) * 2 else 0) +
      maskOf ((List.range 4).map (run.getD []).contains) * 2 ^ 5 + tiles * 2 ^ 9
  | 0x104 => m.mismatches + m.tilesSince * 2 ^ 16 + flag m.replayed 27
  | 0x108 => m.skipped
  | 0x10C => m.accCorrected + m.lastBank * 2 ^ 16 + flag m.uncorr 18
  | 0x110 => m.tol0
  | 0x114 => m.tol1
  | 0x300 => m.fetchTiles
  | 0x304 => m.storeRows
  | _ => 0

/-- The STS registers of a cell window (R399, R400). -/
def stsReg (s : State) (c o : Nat) : Nat :=
  let x := s.cell c
  let p := s.cellPlan c
  let tested := decide (4 ≤ s.rst.done)
  match o with
  | 0x280 =>
    (if tested then b2n (!p.eastGone) + flag (!p.westGone) 1 else 0) + (if tested then (16 - p.eastSpares.length) * 2 ^ 2 + (16 - p.westSpares.length) * 2 ^ 7 else 0) +
      flag x.plumb.eastTest.isSome 12 + flag x.plumb.westTest.isSome 13
  | 0x284 => x.plumb.replays + x.plumb.bondTests * 2 ^ 16
  | 0x288 => (if tested then (s.goodGranules c).length else 0) + popcount 24 x.stash.marked * 2 ^ 5 + x.stash.scrubLog2 * 2 ^ 10 +
      x.stash.corrected * 2 ^ 16
  | 0x28C => flipWordOf x.stash
  | 0x290 => flag x.stash.flipFired 1
  | _ => 0

/-- A cell's registers (R739). -/
def cellReg (s : State) (c o : Nat) (sb : Bool) : Nat :=
  let x := (s.cell c).misc
  let k := kindOf c
  let b := s.block (blockIndex c)
  if (0x100 ≤ o && o ≤ 0x114) || o == 0x300 || o == 0x304 then (if k = .M then mmReg s c o else 0)
  else if o == 0x180 then (if k = .S then 0 else x.nanCvt + (if k = .M then x.intSat * 2 ^ 16 else 0))
  else if o == 0x184 then (if k = .S || (s.cell c).seq.job == 0 then 0 else x.rng)
  else if o == 0x200 then
    (if k = .M then 0 else x.prfLast + flag x.prfPass 4 + sheetsSince s c * 2 ^ 5 + flag x.prfRetried 12 + x.prfNext * 2 ^ 16)
  else if o == 0x204 then (if k = .M then 0 else x.prfCount)
  else if o == 0x210 then (if k = .S then b.preds / 2 * 2 + 1 else 0)
  else if 0x240 ≤ o && o < 0x280 then (if k = .S then (sget (0 : Word) b.extents ((o - 0x240) / 4)).toNat else 0)
  else if 0x280 ≤ o && o < 0x294 then stsReg s c o
  else if 0x380 ≤ o && o < 0x3C0 then counterReg s (cellBase c + o / 16 * 16) (o % 16) sb
  else 0

/-! ### A read (R149, R150, R727, R731) -/

/-- The value at an aligned address that can be reached. -/
def regValue (s : State) (addr : Nat) (sb : Bool) : Nat :=
  let o := addr % 0x10000
  if addr < 0xC0000 then
    match addr / 0x10000 with
    | 0 => glbReg s o | 1 => rstReg s o | 2 => brgReg s o | 3 => secReg s o | 4 => hifReg s o | 5 => shtReg s o
    | 6 => pwrReg s o | 7 => thmReg s o | 8 => errReg s o | 9 => monReg s o sb | 10 => synReg s o | 11 => svyReg s o
    | _ => 0
  else if addr < 0x1C0000 then mscReg s ((addr - 0x100000) / 0x10000) o
  else if addr < 0x280000 then lnkReg s ((addr - 0x200000) / 0x10000) o
  else
    let r := (addr - 0x1000000) / 0x80000
    let w := addr % 0x80000
    if w < 0x10000 then regionReg s r w sb
    else
      let b := r * 12 + (w - 0x10000) / 0x4000
      let v := (w - 0x10000) % 0x4000
      if v < 0x3000 then cellReg s (blockId b + v / 0x400) (v % 0x400) sb else blockReg s b v sb

/-- A block has a register that holds a value at an offset of its window (R738); RST_BLOCK reads as zero. -/
def blockHas (v : Nat) : Bool := v == 0x3000 || v == 0x3100 || (decide (0x3300 ≤ v) && decide (v < 0x3340) && v % 16 != 4)

/-- A cell of a kind has a register that holds a value at an offset of its window (R739); +0x4 of a counter is reserved (R716). -/
def cellHas (k : Kind) (o : Nat) : Bool :=
  match k with
  | .M => decide (0x100 ≤ o && o ≤ 0x114 || 0x300 ≤ o && o ≤ 0x304 || o == 0x180 || o == 0x184) || decide (0x280 ≤ o && o ≤ 0x290 || 0x380 ≤ o && o < 0x3C0 && o % 16 != 4)
  | .V => decide (o == 0x180 || o == 0x184 || o == 0x200 || o == 0x204) || decide (0x280 ≤ o && o ≤ 0x290 || 0x380 ≤ o && o < 0x3C0 && o % 16 != 4)
  | .S => decide (o == 0x200 || o == 0x204 || o == 0x210 || 0x240 ≤ o && o < 0x280) || decide (0x280 ≤ o && o ≤ 0x290 || 0x380 ≤ o && o < 0x3C0 && o % 16 != 4)

/-- A block or cell window holds a value at an aligned address: GATED_READ marks only a zero in place of one (R150). -/
def holdsValue (addr : Nat) : Bool :=
  let w := addr % 0x80000
  let v := (w - 0x10000) % 0x4000
  if v < 0x3000 then cellHas (kindOf (v / 0x400)) (v % 0x400) else blockHas v

/-- A read of a 32-bit register, with its side effect: MON_SNAP_LO latches, a gated window sets GATED_READ (R714, R150), a cairn's
master copy is decoded (R491). -/
def readReg (s : State) (addr : Nat) (sb : Bool) : Nat × State :=
  if addr % 4 != 0 then (0, s)
  else match reach s addr with
    | .dead => (0, s)
    | .gated => (0, if holdsValue addr then { s with hif := { s.hif with gatedRead := true } } else s)
    | .open_ =>
      let s := if 0xA1000 ≤ addr && addr < 0xA5000 then scanMaster s ((addr - 0xA1000) / 4) else s
      let v := regValue s addr sb
      (v, if addr % 16 == 8 && (counterLevel (addr - 8)).isSome then latchHigh s (addr - 8) sb else s)

/-- Reads `len` bytes of BAR0 as consecutive 4-byte reads in ascending address (R725, R726). -/
def readSpan (s : State) (addr len : Nat) : Bytes × State :=
  let first := addr / 4 * 4
  let (b, s) := (List.range (cdiv (addr % 4 + len) 4)).foldl (fun (b, s) k =>
    let (v, s) := readReg s (first + 4 * k) false
    (b ++ leBytes 4 v, s)) ([], s)
  (slice b (addr % 4) len, s)

/-- GATED_READ (R150, R723, R725, R726): the host reads registers, or the staging window, which keeps what was last written until
LOAD_FW completes. A TLP that is an Unsupported Request reads nothing. -/
def execGatedRead (req : ReadReq) (s : State) : Host.Outcome State Fault Refusal :=
  let addr := req.addr
  let len := req.len
  if len == 0 || 64 < len || 4096 < addr % 4096 + len then .next s
  else if req.bar == 4 then .next (s.emit (.windowValue addr (if s.up 0 then Ram.read s.sec.window addr len else List.replicate len 0)))
  else
    let (b, s) := readSpan s addr len
    .next (s.emit (.readValue addr (leNat b)))

/-! ### Writes (R728, R732) -/

/-- The state after a meaning that always goes on. -/
def ran (o : Host.Outcome State Fault Refusal) (s : State) : State :=
  match o with
  | .next t => t
  | _ => s

/-- Replaces the low or high half of a 64-bit base; bits [11:0] stay zero. -/
def setHalf (base v : Nat) (high : Bool) : Nat :=
  if high then v * 2 ^ 32 + base % 2 ^ 32 else base / 2 ^ 32 * 2 ^ 32 + v / 4096 * 4096

/-- A field that takes a value within a range, and keeps the earlier one otherwise. -/
def within (lo hi v old : Nat) : Nat := if lo ≤ v && v ≤ hi then v else old

/-- A write of a ring's registers (R154 to R156). RESET governs over the ENABLE written with it. -/
def writeRing (s : State) (n o v : Nat) : State :=
  let r := s.ring n
  if o == 0x10 then
    let s := if r.enable then s else s.updRing n fun r =>
      { r with interactive := bit v 1, priv := bit v 3, sizeLog2 := within 4 16 (bits v 12 8) r.sizeLog2, vector := bits v 26 16 }
    if bit v 2 then ran (execRingReset n s) s
    else s.updRing n fun r =>
      if r.state == 3 then r
      else if bit v 0 then
        (if r.enable then r
         else if r.state == 0 then { r with enable := true, state := 1, sqCi := 0, cqPi := 0, sqPi := 0, cqCi := 0 }
         else { r with enable := true })
      else { r with enable := false, state := if r.state == 1 then 0 else r.state }
  else if r.enable then s
  else if o < 8 then s.updRing n fun r => { r with base := setHalf r.base v (o == 4) }
  else if o < 0x10 then s.updRing n fun r => { r with cqBase := setHalf r.cqBase v (o == 0xC) }
  else s

/-- A write of the MSI-X table (PCIe): an entry unmasked with its pending bit set sends its message. -/
def writeMsix (s : State) (n o v : Nat) : State :=
  let upd (f : Msix → Msix) : State := { s with hif := { s.hif with msix := supd {} s.hif.msix n f } }
  match o with
  | 0 => upd fun e => { e with addr := e.addr / 2 ^ 32 * 2 ^ 32 + v / 4 * 4 }
  | 4 => upd fun e => { e with addr := v * 2 ^ 32 + e.addr % 2 ^ 32 }
  | 8 => upd fun e => { e with data := v }
  | _ =>
    let e : Msix := sget {} s.hif.msix n
    let s := upd fun e => { e with masked := bit v 0, pend := e.pend && bit v 0 }
    if e.pend && !bit v 0 then sendVector s n else s

/-- A write of HIF (R152 to R156, R620, R668). A COUNT at or below the completions already pending sends nothing before the next one
(DESIGN CHOICE; log entry 40). -/
def writeHif (s : State) (o v : Nat) : State :=
  let x := s.hif
  if o == 0 then
    { s with hif := { x with dbPartial := x.dbPartial && !bit v 1, dbInvalid := x.dbInvalid && !bit v 2, gatedRead := x.gatedRead && !bit v 3
                             hostErr := x.hostErr && !bit v 4 } }
  else if o == 8 then
    { s with hif := { x with fetchEn := bit v 0 && s.rst.ready && !s.err.fatal, bulkEngines := within 1 16 (bits v 12 8) x.bulkEngines } }
  else if o == 0x10 then ran (execHifJobAbort v s) s
  else if 0x1000 ≤ o && o < 0x2000 then writeRing s ((o - 0x1000) / 0x40) (o % 0x40) v
  else if 0x4000 ≤ o && o < 0x6000 then
    { s with hif := { x with mods := supd {} x.mods ((o - 0x4000) / 4) fun m => { m with count := v % 256, time := bits v 23 8 } } }
  else if 0x8000 ≤ o then writeMsix s ((o - 0x8000) / 16) (o % 16) v
  else s

/-- A write of RST (R657, R661, R676). -/
def writeRst (s : State) (o v : Nat) : State :=
  match o with
  | 0x00 => { s with rst := { s.rst with clockTimeout := s.rst.clockTimeout && !bit v 12, swRej := s.rst.swRej && !bit v 15 } }
  | 0x04 => if s.rst.locked then s else { s with rst := { s.rst with compat := bit v 0 } }
  | 0x10 => ran (execDatumBlockReset v s) s
  | 0x14 => ran (execMscReset v s) s
  | 0x18 => ran (execLnkReset v s) s
  | 0x1C => let s := ran (execCopyEngineReset (v % 2 ^ 16) s) s; ran (execLinkEngineReset (bits v 23 16) s) s
  | _ => s

/-- A write of BRG by the host (R664, R676). -/
def writeBrg (s : State) (o v : Nat) : State :=
  match o with
  | 0x00 => (writeStep s false (v % 16)).2
  | 0x04 => { s with rst := { s.rst with orderRej := s.rst.orderRej && !bit v 12, ownerRej := s.rst.ownerRej && !bit v 13 } }
  | _ => s

/-- A write of SEC by the host (R680, R683, R684, R695). -/
def writeSec (s : State) (o v : Nat) : State :=
  match o with
  | 0x00 => { s with sec := { s.sec with stageRej := s.sec.stageRej && !bit v 1, rollbackRej := s.sec.rollbackRej && !bit v 2
                                         revokeRej := s.sec.revokeRej && !bit v 3 } }
  | 0x04 => (stageSet s false v).2
  | 0x14 => if bit v 31 then (commitRollback s).2 else s
  | 0x18 => (revokeKey s v).2
  | _ => s

/-- A write of SHT (R93 to R98). -/
def writeSht (s : State) (o v : Nat) : State :=
  let x := s.sht
  match o with
  | 0x00 => { s with sht := { x with stall := x.stall && !bit v 2, writeRej := x.writeRej && !bit v 3
                                     forecastMissing := x.forecastMissing && !bit v 6 } }
  | 0x08 => ran (execShtPeriodWrite v s) s
  | 0x0C => ran (execShtOverrunLimitWrite v s) s
  | 0x30 => ran (execGroupFormation v s) s
  | 0x34 => if s.jobActive then { s with sht := { x with writeRej := true } } else { s with sht := { x with mask := v } }
  | _ => s

/-- A write of PWR_LIMIT (R586): taken, clamped, or ignored. -/
def setLimit (s : State) (v : Nat) : Bool × State :=
  let w := v % 2 ^ 12
  if w < 600 then (false, { s with pwr := { s.pwr with limitRej := true } })
  else (true, { s with pwr := { s.pwr with pendPkgW := some (min w s.grade.pkgWatts), limitRej := s.pwr.limitRej || s.grade.pkgWatts < w } })

/-- A write of PWR_PACE_CAP (R586). -/
def setCap (s : State) (v : Nat) : State :=
  let c := v % 2 ^ 6
  { s with pwr := { s.pwr with pendCap := some (min c s.grade.paceMax), limitRej := s.pwr.limitRej || s.grade.paceMax < c } }

/-- A write of PWR (R586). -/
def writePwr (s : State) (o v : Nat) : State :=
  match o with
  | 0x00 => { s with pwr := { s.pwr with avsFault := s.pwr.avsFault && !bit v 2, limitRej := s.pwr.limitRej && !bit v 18 } }
  | 0x04 => (setLimit s v).2
  | 0x08 => setCap s v
  | 0x0C => if s.rst.locked then s else { s with pwr := { s.pwr with rate := within 100 480 (v % 2 ^ 9) s.pwr.rate } }
  | _ => s

/-- A write of THM_COOL_CFG (R619): whether either field was taken. -/
def setCoolCfg (s : State) (v : Nat) : Bool × State :=
  let k := v % 2 ^ 14
  let t := bits v 20 14
  if s.rst.locked then (false, s)
  else ((600 ≤ k && k ≤ 16000) || (30 ≤ t && t ≤ 60),
    { s with thm := { s.thm with kFactor := within 600 16000 k s.thm.kFactor, tinMax := within 30 60 t s.thm.tinMax } })

/-- A write of THM_COL_LIMIT (R619). -/
def setColLimit (s : State) (v : Nat) : Bool × State :=
  let w := v % 2 ^ 9
  if s.rst.locked || w < 100 || 240 < w then (false, s) else (true, { s with thm := { s.thm with wMax := w } })

/-- A write of THM_CTRL (R614): whether a RESUME was taken. -/
def setThmCtrl (s : State) (v : Nat) : Bool × State :=
  if !bit v 0 then (true, s)
  else
    let t := ran (execResume s) s
    (s.thm.stopped && !t.thm.stopped, t)

/-- A write of THM (R619). -/
def writeThm (s : State) (o v : Nat) : State :=
  match o with
  | 0x00 => { s with thm := { s.thm with stopSeen := s.thm.stopSeen && !bit v 3, implaus := s.thm.implaus && !bit v 6 } }
  | 0x04 => (setThmCtrl s v).2
  | 0x08 => (setCoolCfg s v).2
  | 0x0C => (setColLimit s v).2
  | _ => s

/-- A write of ERR (R640, R647). -/
def writeErr (s : State) (o v : Nat) : State :=
  let e := s.err
  match o with
  | 0x08 => if e.enable then s else { s with err := { e with base := setHalf e.base v false } }
  | 0x0C => if e.enable then s else { s with err := { e with base := setHalf e.base v true } }
  | 0x10 =>
    let s := if e.enable then s
      else { s with err := { e with sizeLog2 := within 4 16 (bits v 12 8) e.sizeLog2, vector := bits v 26 16 } }
    if bit v 0 then { s with err := { s.err with enable := true } }
    else if e.enable then flushJobs (discardStaged s) else s
  | 0x18 => { s with err := { e with ci := v } }
  | _ => s

/-- A write of MON by the host (R709, R713, R721). -/
def writeMon (s : State) (o v : Nat) : State :=
  let m := s.mon
  match o with
  | 0x00 => { s with mon := { m with selRej := m.selRej && !bit v 0 } }
  | 0x04 => if m.trcEnable then s else { s with mon := { m with alarmVector := v % 2 ^ 11, traceVector := bits v 26 16 } }
  | 0x20 => if m.trcEnable then s else { s with mon := { m with trcBase := setHalf m.trcBase v false } }
  | 0x24 => if m.trcEnable then s else { s with mon := { m with trcBase := setHalf m.trcBase v true } }
  | 0x28 =>
    let size := if m.trcEnable then m.trcSize else within 4 16 (bits v 12 8) m.trcSize
    { s with mon := { m with trcSize := size, trcEnable := bit v 0 } }
  | 0x30 => { s with mon := { m with trcCi := v } }
  | _ =>
    if 0x100 ≤ o && o < 0x120 then
      { s with mon := { m with pend := skeep (fun b => !(b / 32 == (o - 0x100) / 4 && bit v (b % 32))) m.pend } }
    else s

/-- A write of SYN (R514). -/
def writeSyn (s : State) (o v : Nat) : State :=
  if o != 0 then s
  else { s with syn := { s.syn with latched := s.syn.latched && !bit v 0, timeout := s.syn.timeout && !bit v 1, wrap := s.syn.wrap && !bit v 2 } }

/-- A write of SVY (R52, R56). -/
def writeSvy (s : State) (o v : Nat) : State :=
  match o with
  | 0x00 => { s with svy := { s.svy with changed := s.svy.changed && !bit v 2 } }
  | 0x10 => ran (execSvyFenceReq v s) s
  | _ => s

/-- A write of MSC (R452). -/
def writeMsc (s : State) (n o v : Nat) : State :=
  if o != 0 then s
  else s.updStack n fun x => { x with uncorr := x.uncorr && !bit v 3, cacheUncorr := x.cacheUncorr && !bit v 4 }

/-- A write of LNK (R550): ROLE and the group's shape are refused while SHT_GROUP.ENABLE is 1. -/
def writeLnk (s : State) (n o v : Nat) : State :=
  let refuse : State := s.updPort n fun p => { p with writeRej := true }
  match o with
  | 0x00 =>
    let s := if s.sht.enable then refuse else s.updPort n fun p => { p with role := v % 4 }
    if bit v 2 then ran (execPortRetrain n s) s else s
  | 0x04 => s.updPort n fun p => { p with writeRej := p.writeRej && !bit v 11, lost := p.lost && !bit v 12 }
  | 0x100 =>
    if n != 0 then s
    else if s.sht.enable then refuse
    else { s with grp := { s.grp with topology := v % 4, ringSize := within 2 16 (bits v 6 2) s.grp.ringSize } }
  | 0x104 => if n != 0 then s else { s with grp := { s.grp with formFail := s.grp.formFail && !bit v 2 } }
  | _ => s

/-- A write of TRC_CTRL (R718, R721): MODE 3 is ignored; DRAIN sends a capture. A new MODE unfreezes. -/
def writeTrc (s : State) (r v : Nat) : State :=
  let x := s.region r
  let old := x.trcCtrl % 4
  let drain := bit v 2 && old == 2
  let mode := if drain || v % 4 == 3 then old else v % 4
  let s := s.updRegion r fun x => { x with trcCtrl := mode + bits v 13 8 * 2 ^ 8 + bits v 31 16 * 2 ^ 16
                                           trcFrozen := x.trcFrozen && mode == old }
  if drain then ran (execDrain r s) s else s

/-- A write of a region controller (R389, R400, R657, R721). -/
def writeRegion (s : State) (r o v : Nat) : State :=
  match o with
  | 0x404 => if s.rst.locked then s else s.updRegion r fun x => { x with bulkShare := within 2 16 (v % 32) x.bulkShare }
  | 0x500 =>
    let held := (regionCells r).any fun c => !(s.heldBy c).isEmpty
    s.updRegion r fun x => { x with fallback := if held then x.fallback else bit v 0, stsRej := x.stsRej || held
                                    scrubMax := within 8 15 (bits v 11 8) x.scrubMax }
  | 0x504 => s.updRegion r fun x => { x with stsRej := x.stsRej && !bit v 0, stsUncorr := x.stsUncorr && !bit v 1 }
  | 0x800 =>
    let s := if bit v 12 then ran (execRegionReset r s) s else s
    if s.inReset 5 r then s else (bitsOf 12 v).foldl (fun s b => ran (execBlockReset r b s) s) s
  | 0xA00 => writeTrc s r v
  | _ => s

/-- A write of a block (R657): the whole block, and where that is refused the cells named with it. -/
def writeBlock' (s : State) (b o v : Nat) : State :=
  if o != 0x3200 then s
  else
    let s := if bit v 12 then ran (execBlockReset (b / 12) (b % 12) s) s else s
    if s.inReset 6 b then s else (bitsOf 12 v).foldl (fun s k => ran (execCellReset (blockId b + k) s) s) s

/-- Fields of 5 bits, each of which takes 8 to 22 (R256). -/
def setTol (n old v : Nat) : Nat :=
  (List.range n).foldl (fun t k => t + within 8 22 (v / 32 ^ k % 32) (old / 32 ^ k % 32) * 32 ^ k) 0

/-- A write of STS_FLIP (R400). -/
def setFlip (x : Stash) (v : Nat) : Stash :=
  { x with flipA := within 0 71 (v % 2 ^ 7) x.flipA, flipEnA := bit v 7, flipB := within 0 71 (bits v 14 8) x.flipB, flipEnB := bit v 15
           flipLine := bits v 28 16, flipWord := bits v 31 29 }

/-- A write of a cell window (R255, R256, R336, R396, R400). -/
def writeCell (s : State) (c o v : Nat) : State :=
  let m := decide (kindOf c = .M)
  match o with
  | 0x104 => if m then s.updMm c fun x => { x with replayed := x.replayed && !bit v 27 } else s
  | 0x10C => if m then s.updMm c fun x => { x with uncorr := x.uncorr && !bit v 18 } else s
  | 0x110 => if !m || s.rst.locked then s else s.updMm c fun x => { x with tol0 := setTol 6 x.tol0 v }
  | 0x114 => if !m || s.rst.locked then s else s.updMm c fun x => { x with tol1 := setTol 3 x.tol1 v }
  | 0x200 => if m then s else s.updMisc c fun x => { x with prfRetried := x.prfRetried && !bit v 12 }
  | 0x28C => if s.rst.locked then s else s.updStash c (setFlip · v)
  | 0x290 =>
    let s := s.updStash c fun x => { x with flipFired := x.flipFired && !bit v 1 }
    if bit v 0 then ran (execStsFlipArm c s) s else s
  | _ => s

/-- The effect of a write on a register that can be reached. -/
def writeAt (s : State) (addr v : Nat) : State :=
  let o := addr % 0x10000
  if (counterLevel addr).isSome then ran (execMonSelWrite addr v false s) s
  else if addr < 0xC0000 then
    match addr / 0x10000 with
    | 0 => if o == 0x14 then { s with scratch := BitVec.ofNat 32 v } else s
    | 1 => writeRst s o v | 2 => writeBrg s o v | 3 => writeSec s o v | 4 => writeHif s o v | 5 => writeSht s o v
    | 6 => writePwr s o v | 7 => writeThm s o v | 8 => writeErr s o v | 9 => writeMon s o v | 10 => writeSyn s o v
    | 11 => writeSvy s o v
    | _ => s
  else if addr < 0x1C0000 then writeMsc s ((addr - 0x100000) / 0x10000) o v
  else if addr < 0x280000 then writeLnk s ((addr - 0x200000) / 0x10000) o v
  else
    let r := (addr - 0x1000000) / 0x80000
    let w := addr % 0x80000
    if w < 0x10000 then writeRegion s r w v
    else
      let b := r * 12 + (w - 0x10000) / 0x4000
      let x := (w - 0x10000) % 0x4000
      if x < 0x3000 then writeCell s (blockId b + x / 0x400) (x % 0x400) v else writeBlock' s b x v

/-- A write of 4 bytes; one whose byte enables do not cover them all, or that reaches nothing, is ignored (R725, R727, R731). -/
def writeWord (s : State) (addr value enables : Nat) : State :=
  if addr % 4 != 0 || enables != 15 || reach s addr == .dead then s else writeAt s addr value

/-- REGISTER_WRITE (R725 to R729): the host writes 4 bytes, or 8 as two writes, the lower first. -/
def execRegisterWrite (addr value enables : Nat) (s : State) : Host.Outcome State Fault Refusal :=
  .next (writeWord (writeWord s addr (value % 2 ^ 32) (enables % 16)) (addr + 4) (value / 2 ^ 32 % 2 ^ 32) (enables / 16))

end Sys2Proof.Machine
end

