-- ==== Sys2Proof/Machine/Scalar.lean ====
section
/-! DEFINITION. The scalar rows: predicates and extents (R171 to R174, R181 to R186), forecasts (R81), SHEET.NOP. -/

namespace Sys2Proof.Machine

open Sys2Proof

/-- Sets an extent of a block (R174). -/
def setExt (s : State) (b n v : Nat) : State :=
  s.updBlock b fun x => { x with extents := sset (0 : Word) x.extents n (BitVec.ofNat 32 v) }

/-- Sets a predicate of a block; a write of P0 is ignored (R171). -/
def setPred (s : State) (b n : Nat) (v : Bool) : State :=
  if n == 0 then s
  else s.updBlock b fun x => { x with preds := x.preds - b2n (bit x.preds n) * 2 ^ n + b2n v * 2 ^ n }

/-- SHEET.NOP (R181): nothing, for one issue cycle. -/
def execSheetNop (c : Nat) (s : State) : Host.Outcome State Fault Refusal := issue 0x02 c [] s fun _ s => s

/-- SHEET.FORECAST (R81): the forecast word of sheet n + 4; a word for a sheet beyond the last is ignored. -/
def execSheetForecast (c : Nat) (s : State) : Host.Outcome State Fault Refusal :=
  issue 0x01 c [] s fun x s =>
    if x.j.image.sheetCount < x.j.sheet + 4 then s
    else s.updJob x.j.id fun j => { j with forecasts := sput j.forecasts (x.j.sheet + 4) x.i.opb }

/-- SC.EXT (R182). -/
def execScExt (c : Nat) (s : State) : Host.Outcome State Fault Refusal :=
  issue 0x10 c [] s fun x s => setExt s (blockIndex c) x.od.reg x.i.opb

/-- Writes E0 to E15 from a 64-byte record (R183). -/
def loadExtents (s : State) (b : Nat) (d : Bytes) : State :=
  (List.range 16).foldl (fun s n => setExt s b n (num d (4 * n) 4)) s

/-- SC.LDEXT (R183): from the stash, or from device memory. An extent of 0 on the operand skips it (R196). -/
def execScLdext (c : Nat) (ph : List Phys) (s : State) : Host.Outcome State Fault Refusal :=
  issue 0x11 c ph s fun x s =>
    if bound s c x.oa == some 0 then s.countCell 0x004 c 1
    else if x.oa.space == 4 then
      match readOpnd s x x.oa 64 none false with
      | (some d, s) => loadExtents s (blockIndex c) d
      | (none, s) => s
    else match readMem s (devAddr x x.oa) 64 x.acc with
      | (.ok d, s) => loadExtents (s.countRegion 0x201 (regionOf c) 1) (blockIndex c) d
      | (.error _, s) => s

/-- SC.EXTSUB (R184). -/
def execScExtsub (c : Nat) (s : State) : Host.Outcome State Fault Refusal :=
  issue 0x12 c [] s fun x s => setExt s (blockIndex c) x.od.reg (extOf s c x.oa.reg - x.i.opb)

/-- SC.EXTMIN (R184). -/
def execScExtmin (c : Nat) (s : State) : Host.Outcome State Fault Refusal :=
  issue 0x13 c [] s fun x s => setExt s (blockIndex c) x.od.reg (min (extOf s c x.oa.reg) x.i.opb)

/-- SC.PSET (R185). -/
def execScPset (c : Nat) (ph : List Phys) (s : State) : Host.Outcome State Fault Refusal :=
  issue 0x14 c ph s fun x s =>
    if bound s c x.oa == some 0 then s.countCell 0x004 c 1
    else match readOpnd s x x.oa 64 none false with
      | (some d, s) =>
        let w := num d 0 4
        setPred s (blockIndex c) x.od.reg (if x.i.x then w == x.i.opb else x.i.opb ≤ w)
      | (none, s) => s

/-- SC.PLOG (R186). -/
def execScPlog (c : Nat) (s : State) : Host.Outcome State Fault Refusal :=
  issue 0x15 c [] s fun x s =>
    let a := predOf s c x.oa.reg
    let b := predOf s c x.ob.reg
    setPred s (blockIndex c) x.od.reg (if x.i.x then a || b else a && b)

end Sys2Proof.Machine
end

