-- ==== Sys2Proof/Machine/Sideband.lean ====
section
/-! DEFINITION. The side-band port: I3C, MCTP control, PLDM, the Stavsan messages (R696 to R711). The layout of MCTP, PLDM and I3C
messages is that of DMTF and MIPI (PRESUMED, log entry 15). -/

namespace Sys2Proof.Machine

open Sys2Proof

/-! ### I3C (R696 to R699) -/

/-- The static address (R696). -/
def staticAddr (s : State) : Nat := 0x4C + s.pins.straps % 4

/-- Changes the side-band port, once D0 is released. -/
def port0 (s : State) (f : SideBand → SideBand) : State := if s.up 0 then { s with sb := f s.sb } else s

/-- ENTDAA (R697, R698): a target without a dynamic address takes one. -/
def execEntdaa (addr : Nat) (s : State) : Host.Outcome State Fault Refusal :=
  .next (port0 s fun x => if x.dynAddr.isNone && addr < 128 then { x with dynAddr := some addr } else x)

/-- SETDASA (R697, R698): the target at its static address takes a dynamic one. -/
def execSetdasa (stat addr : Nat) (s : State) : Host.Outcome State Fault Refusal :=
  let mine := stat == staticAddr s
  .next (port0 s fun x => if mine && x.dynAddr.isNone && addr < 128 then { x with dynAddr := some addr } else x)

/-- RSTDAA (R698): back to I2C operation. -/
def execRstdaa (s : State) : Host.Outcome State Fault Refusal := .next (port0 s fun x => { x with dynAddr := none })

/-- ENEC (R699): bit 0 enables in-band interrupts. -/
def execEnec (events : Nat) (s : State) : Host.Outcome State Fault Refusal :=
  .next (port0 s fun x => { x with ibiEnable := x.ibiEnable || bit events 0 })

/-- DISEC (R699). -/
def execDisec (events : Nat) (s : State) : Host.Outcome State Fault Refusal :=
  .next (port0 s fun x => { x with ibiEnable := x.ibiEnable && !bit events 0 })

/-- The answer of a direct CCC, at the dynamic address. -/
def direct (s : State) (b : Bytes) : State := if s.up 0 && s.sb.dynAddr.isSome then s.emit (.reply b) else s

/-- A direct CCC whose value no rule gives: a free word, `n` bytes of it (log entry 2). -/
def freeDirect (s : State) (n : Nat) : State :=
  let (w, s) := s.fresh
  direct s (leBytes n w.toNat)

/-- GETPID (R697). -/
def execGetpid (s : State) : Host.Outcome State Fault Refusal :=
  let (w, s) := s.fresh
  let (v, s) := s.fresh
  .next (direct s (leBytes 4 w.toNat ++ leBytes 2 v.toNat))

/-- GETBCR (R697). -/
def execGetbcr (s : State) : Host.Outcome State Fault Refusal := .next (freeDirect s 1)

/-- GETDCR (R697). -/
def execGetdcr (s : State) : Host.Outcome State Fault Refusal := .next (freeDirect s 1)

/-- GETMWL (R697). -/
def execGetmwl (s : State) : Host.Outcome State Fault Refusal := .next (direct s (leBytes 2 s.sb.mwl).reverse)

/-- GETMRL (R697). -/
def execGetmrl (s : State) : Host.Outcome State Fault Refusal := .next (direct s (leBytes 2 s.sb.mrl).reverse)

/-- SETMWL (R697): at most 256 bytes. -/
def execSetmwl (value : Nat) (s : State) : Host.Outcome State Fault Refusal := .next (port0 s fun x => { x with mwl := min 256 value })

/-- SETMRL (R697): at most 256 bytes. -/
def execSetmrl (value : Nat) (s : State) : Host.Outcome State Fault Refusal := .next (port0 s fun x => { x with mrl := min 256 value })

/-- GETSTATUS (R697). -/
def execGetstatus (s : State) : Host.Outcome State Fault Refusal := .next (freeDirect s 2)

/-! ### MCTP control (R700) -/

/-- A response to an MCTP control or PLDM request: the header with the request bit cleared, then a completion code and data. -/
def answerTo (s : State) (req : Bytes) (at_ cc : Nat) (data : Bytes) : State :=
  let head := (slice req 0 3).zipIdx.map fun e => if e.2 == at_ then e.1 &&& 0x7F else e.1
  if s.up 0 then replyMctp s (head ++ leBytes 1 cc ++ data) else s

/-- An MCTP control response. -/
def control (s : State) (req : Bytes) (cc : Nat) (data : Bytes) : State := answerTo s req 1 cc data

/-- Set Endpoint ID. -/
def execSetEndpointId (req : Bytes) (s : State) : Host.Outcome State Fault Refusal :=
  let op := num req 3 1 % 4
  let eid := num req 4 1
  if 2 ≤ op || eid == 0 || eid == 0xFF then .next (control s req 2 [])
  else .next (control (port0 s fun x => { x with eid }) req 0 ([0] ++ leBytes 1 eid ++ [0]))

/-- Get Endpoint ID. -/
def execGetEndpointId (req : Bytes) (s : State) : Host.Outcome State Fault Refusal :=
  .next (control s req 0 (leBytes 1 s.sb.eid ++ [0, 0]))

/-- Four free words. -/
def freeBytes16 (s : State) : Bytes × State :=
  (List.range 4).foldl (fun (b, s) _ => let (w, s) := s.fresh; (b ++ leBytes 4 w.toNat, s)) ([], s)

/-- Get Endpoint UUID: no rule gives it (log entry 2). -/
def execGetEndpointUuid (req : Bytes) (s : State) : Host.Outcome State Fault Refusal :=
  let (b, s) := freeBytes16 s
  .next (control s req 0 b)

/-- The message types of R700. -/
def messageTypes : List Nat := [0x00, 0x01, 0x05, 0x7F]

/-- Get MCTP Version Support: the numbers of the versions are not given (log entry 2). -/
def execGetMctpVersionSupport (req : Bytes) (s : State) : Host.Outcome State Fault Refusal :=
  let ty := num req 3 1
  if ty == 0xFF || messageTypes.contains ty then
    let (w, s) := s.fresh
    .next (control s req 0 ([1] ++ leBytes 4 w.toNat))
  else .next (control s req 0x80 [])

/-- Get Message Type Support: the types besides control itself. -/
def execGetMessageTypeSupport (req : Bytes) (s : State) : Host.Outcome State Fault Refusal :=
  .next (control s req 0 ([3] ++ ((messageTypes.drop 1).flatMap (leBytes 1))))

/-- Get Vendor Defined Message Support: one set, by IANA number. Its type word is not given (log entry 2). -/
def execGetVendorDefinedMsgSupport (req : Bytes) (s : State) : Host.Outcome State Fault Refusal :=
  if num req 3 1 != 0 then .next (control s req 2 [])
  else
    let (w, s) := s.fresh
    .next (control s req 0 ([0xFF, 1] ++ (leBytes 4 s.keep.vendor).reverse ++ leBytes 2 w.toNat))

/-! ### PLDM (R701, R702) -/

/-- A PLDM response. -/
def pldm (s : State) (req : Bytes) (cc : Nat) (data : Bytes) : State := answerTo s req 0 cc data

/-- GetTID. -/
def execGettid (req : Bytes) (s : State) : Host.Outcome State Fault Refusal := .next (pldm s req 0 (leBytes 1 s.sb.tid))

/-- SetTID. -/
def execSettid (req : Bytes) (s : State) : Host.Outcome State Fault Refusal :=
  let tid := num req 3 1
  if tid == 0 || tid == 0xFF then .next (pldm s req 2 []) else .next (pldm (port0 s fun x => { x with tid }) req 0 [])

/-- GetPLDMVersion: the numbers are not given (log entry 2). -/
def execGetpldmversion (req : Bytes) (s : State) : Host.Outcome State Fault Refusal :=
  let ty := num req 8 1
  if ty != 0 && ty != 2 then .next (pldm s req 0x83 [])
  else
    let (w, s) := s.fresh
    .next (pldm s req 0 (leBytes 4 0 ++ [5] ++ leBytes 4 w.toNat))

/-- GetPLDMTypes: 0 and 2. -/
def execGetpldmtypes (req : Bytes) (s : State) : Host.Outcome State Fault Refusal := .next (pldm s req 0 (leBytes 8 5))

/-- The command codes of a PLDM type (R701). -/
def pldmCommands (ty : Nat) : List Nat :=
  if ty == 0 then [1, 2, 3, 4, 5] else if ty == 2 then [0x04, 0x0B, 0x11, 0x21, 0x50, 0x51] else []

/-- GetPLDMCommands: those of R701. -/
def execGetpldmcommands (req : Bytes) (s : State) : Host.Outcome State Fault Refusal :=
  let ty := num req 3 1
  if ty != 0 && ty != 2 then .next (pldm s req 0x83 [])
  else .next (pldm s req 0 (leBytes 32 ((pldmCommands ty).foldl (fun m c => m + 2 ^ c) 0)))

/-- The sensor IDs of R702 but for the state sensors. -/
def numericSensors : List Nat :=
  upto 0x100 128 ++ upto 0x180 32 ++ upto 0x1A0 16 ++ upto 0x1B0 16 ++ upto 0x1C0 12 ++ upto 0x1D0 3 ++ upto 0x200 7 ++
    upto 0x210 4 ++ upto 0x300 16 ++ upto 0x320 32 ++ upto 0x400 32 ++ upto 0x500 3

/-- The state sensors of R702. -/
def stateSensors : List Nat := [0x600, 0x601]

/-- The reading of a sensor in its unit and resolution (R702). -/
def sensorReading (s : State) (id : Nat) : Int :=
  let tail (base : Nat) : Nat := id - base
  if id < 0x180 then reading s (tail 0x100)
  else if id < 0x1A0 then reading s (128 + tail 0x180)
  else if id < 0x1B0 then reading s (160 + tail 0x1A0)
  else if id < 0x1C0 then storeTemp s (tail 0x1B0) / 250000
  else if id < 0x1D0 then (s.stack (tail 0x1C0)).temp
  else if id == 0x1D0 then s.thm.tin else if id == 0x1D1 then s.thm.tout else if id == 0x1D2 then (s.thm.flow / 10000 : Nat)
  else if id == 0x200 then (reliefPower s + s.share.memory + s.share.io : Nat)
  else if id == 0x201 then (reliefPower s : Nat)
  else if id == 0x202 then s.share.memory else if id == 0x203 then s.share.io
  else if id == 0x204 then s.pwr.setpoint else if id == 0x205 then (totalDraw s / 1000 : Nat) else if id == 0x206 then s.pwr.sustained
  else if id == 0x210 then s.pwr.pace else if id == 0x211 then (advertisedNow s).1 else if id == 0x212 then s.pwr.thermal
  else if id == 0x213 then s.pwr.budget
  else if id < 0x320 then (weightedMw (s.column (tail 0x300)).samples / 100 : Nat)
  else if id < 0x400 then (s.region (tail 0x320)).pw.frac
  else if id < 0x500 then (sget 0 s.thm.wear (tail 0x400) : Nat)
  else if id == 0x500 then s.share.unglidedFalls else if id == 0x501 then s.sb.emergencies else s.sb.alerts

/-- The sensor is marked suspect (R589, R702). -/
def sensorWarns (s : State) (id : Nat) : Bool :=
  if id < 0x180 then suspect s (id - 0x100) else if id < 0x1A0 then suspect s (128 + (id - 0x180))
  else if id < 0x1B0 then suspect s (160 + (id - 0x1A0)) else false

/-- What a numeric sensor's record says of its unit (R702): base unit, power of ten, rate unit, and the resolution as a float of
32 bits. Units by their DSP0248 numbers (PRESUMED, log entry 15): 2 °C, 34 litres, 4 per minute, 7 W, 5 V, 6 A, 21 s, 67 counts,
0 none. -/
def sensorUnit (id : Nat) : Nat × Nat × Nat × Nat :=
  let quarter := 0x3E800000
  let one := 0x3F800000
  if id < 0x1C0 then (2, 0, 0, quarter) else if id < 0x1D0 then (2, 0, 0, one)
  else if id < 0x1D2 then (2, 0, 0, quarter) else if id == 0x1D2 then (34, 0, 4, 0x3C23D70A)
  else if id < 0x204 then (7, 0, 0, one) else if id == 0x204 then (5, 0xFD, 0, one) else if id < 0x207 then (6, 0, 0, one)
  else if id < 0x214 then (0, 0, 0, one) else if id < 0x310 then (7, 0, 0, 0x3DCCCCCD) else if id < 0x340 then (0, 0, 0, 0x3E000000)
  else if id < 0x420 then (21, 0, 0, one) else (67, 0, 0, one)

/-- GetPDRRepositoryInfo: one record for each sensor; times and sizes are not given (log entry 2). -/
def execGetpdrrepositoryinfo (req : Bytes) (s : State) : Host.Outcome State Fault Refusal :=
  let (b, s) := freeBytes16 s
  let (c, s) := freeBytes16 s
  let (d, s) := freeBytes16 s
  let n := numericSensors.length + stateSensors.length
  .next (pldm s req 0 ([0] ++ (b ++ c).take 26 ++ leBytes 4 n ++ d.take 9))

/-- GetPDR: the record of one sensor: handle, version, type, sensor ID, and for a numeric one unit, resolution, offset 0 and the
update interval of 1 ms (R702; layout of DSP0248, PRESUMED, log entry 15); the rest of its fields is not given. -/
def execGetpdr (req : Bytes) (s : State) : Host.Outcome State Fault Refusal :=
  let h := max 1 (num req 3 4)
  let all := numericSensors ++ stateSensors
  if all.length < h then .next (pldm s req 0x82 [])
  else
    let id := all.getD (h - 1) 0
    let (b, s) := nonce s
    let (c, s) := nonce s
    let (d, s) := nonce s
    let (unit, power, rate, resolution) := sensorUnit id
    let numeric := b.take 8 ++ leBytes 1 unit ++ leBytes 1 power ++ leBytes 1 rate ++ slice b 8 6 ++ [1, 5] ++
      leBytes 4 resolution ++ leBytes 4 0 ++ slice b 14 14 ++ leBytes 4 0x3A83126F ++ c.take 8 ++ [5, 0] ++ c.drop 8 ++ d.take 12
    let body := if id < 0x600 then numeric else b.take 12
    let record := leBytes 4 h ++ [1] ++ leBytes 1 (if id < 0x600 then 2 else 4) ++ [0, 0] ++ leBytes 2 (4 + body.length) ++
      [0, 0] ++ leBytes 2 id ++ body
    .next (pldm s req 0 (leBytes 4 (if h < all.length then h + 1 else 0) ++ leBytes 4 0 ++ [5] ++ leBytes 2 record.length ++ record))

/-- The reading that a sensor shows: refreshed once 1 ms has passed since its last refresh (R702). That each sensor's own 1 ms
begins with the first read after the last has ended is the model's choice (DESIGN CHOICE, log entry 61). -/
def refreshed (s : State) (id : Nat) : Int × State :=
  match s.sb.readings.find? fun e => e.1 == id && s.clk.ps < e.2.1 + 1000000000 with
  | some e => (e.2.2, s)
  | none =>
    let v := sensorReading s id
    (v, { s with sb := { s.sb with readings := sput s.sb.readings id (s.clk.ps, v) } })

/-- GetSensorReading (R702): present state warning (2) for a suspect sensor, else normal (1). -/
def execGetsensorreading (req : Bytes) (s : State) : Host.Outcome State Fault Refusal :=
  let id := num req 3 2
  if !numericSensors.contains id then .next (pldm s req 0x80 [])
  else
    let st := if sensorWarns s id then 2 else 1
    let (v, s) := refreshed s id
    .next (pldm s req 0 ([5, 0, 0] ++ leBytes 1 st ++ leBytes 1 st ++ leBytes 1 st ++ leBytes 4 (word32 v)))

/-- GetStateSensorReadings (R702): emergency stop and bring-up. -/
def execGetstatesensorreadings (req : Bytes) (s : State) : Host.Outcome State Fault Refusal :=
  let id := num req 3 2
  if !stateSensors.contains id then .next (pldm s req 0x80 [])
  else
    let v := if id == 0x600 then thmStatus s / 2 % 4 else s.rst.done
    .next (pldm s req 0 ([1, 0] ++ leBytes 1 v ++ leBytes 1 v ++ leBytes 1 v))

/-- SetEventReceiver (R701): kept; the part never sends an event of itself. -/
def execSeteventreceiver (req : Bytes) (s : State) : Host.Outcome State Fault Refusal :=
  .next (pldm (port0 s fun x => { x with evReceiver := some (num req 3 1, num req 5 1) }) req 0 [])

/-- PollForPlatformEventMessage (R701): no event while no alarm is set; what an event carries is not given (log entry 2). -/
def execPollforplatformeventmessage (req : Bytes) (s : State) : Host.Outcome State Fault Refusal :=
  if s.err.alarms.isEmpty then .next (pldm s req 0 (leBytes 1 s.sb.tid ++ leBytes 2 0))
  else
    let (w, s) := s.fresh
    .next (pldm s req 0 (leBytes 1 s.sb.tid ++ leBytes 2 w.toNat))

/-! ### Stavsan messages (R703 to R711) -/

/-- A Stavsan response: vendor number, command, completion code, data. -/
def stavsan (s : State) (cmd code : Nat) (data : Bytes) : State :=
  if s.up 0 then replyMctp s ([0x7F] ++ leBytes 4 s.keep.vendor ++ leBytes 1 cmd ++ leBytes 1 code ++ data) else s

/-- A command completes with SUCCESS, or REJECTED. -/
def verdict (x : Bool × State) (cmd : Nat) : State := stavsan x.2 cmd (if x.1 then 0 else 1) []

/-- GET_STATUS (R704). -/
def execGetStatus (s : State) : Host.Outcome State Fault Refusal :=
  .next (stavsan s 1 0 (([0x20004, 0x20008, 0x10000, 0x80000, 0x70000, 0x50010, 0x50014].map fun a => (readReg s a true).1).flatMap (leBytes 4)))

/-- CLAIM_BRG (R663, R704). -/
def execClaimBrg (s : State) : Host.Outcome State Fault Refusal :=
  .next (if s.up 0 then stavsan (setOwner s true) 2 0 [] else s)

/-- RELEASE_BRG (R704). -/
def execReleaseBrg (s : State) : Host.Outcome State Fault Refusal :=
  .next (if !s.rst.owner then stavsan s 3 3 [] else stavsan (setOwner s false) 3 0 [])

/-- WRITE_STEP (R664, R704). -/
def execWriteStep (value : Nat) (s : State) : Host.Outcome State Fault Refusal :=
  let owner := s.rst.owner
  let (ok, s) := writeStep s true (value % 16)
  .next (stavsan s 4 (if !owner then 3 else if ok then 0 else 1) [])

/-- STAGE_DATA (R680, R704). -/
def execStageData (off : Nat) (data : Bytes) (s : State) : Host.Outcome State Fault Refusal :=
  if data.length < 4 || 4096 < data.length || data.length % 4 != 0 then .next (stavsan s 5 2 [])
  else .next (verdict (stageWrite s true off data) 5)

/-- STAGE_SET (R680, R704). -/
def execStageSet (value : Nat) (s : State) : Host.Outcome State Fault Refusal := .next (verdict (stageSet s true value) 6)

/-- Reads consecutive registers. -/
def readRegs (s : State) (off count : Nat) : List Nat × State :=
  (List.range count).foldl (fun (l, s) k => let (v, s) := readReg s (off + 4 * k) true; (l ++ [v], s)) ([], s)

/-- READ_REG (R704, R706, R707). -/
def execReadReg (off count : Nat) (s : State) : Host.Outcome State Fault Refusal :=
  if count == 0 || 1024 < count || off % 4 != 0 then .next (stavsan s 7 2 [])
  else
    let (l, s) := readRegs s off count
    .next (stavsan s 7 0 (l.flatMap (leBytes 4)))

/-- A permitted write by the side-band (R705): none where the register is not permitted; else whether it was taken. -/
def writePermitted (s : State) (off v : Nat) : Option (Bool × State) :=
  let selBase := off / 16 * 16
  if sideBandCounter off && off % 16 == 0 then
    let ok := selAllowed selBase (v % 4096) 3 true
    some (ok, ran (execMonSelWrite selBase v true s) s)
  else match off with
    | 0x60004 => some (setLimit s v)
    | 0x60008 => some (true, setCap s v)
    | 0x70004 => some (setThmCtrl s v)
    | 0x70008 => some (setCoolCfg s v)
    | 0x7000C => some (setColLimit s v)
    | 0xB0010 =>
      let lvl := bits v 14 13
      some (!bit v 31 || (namesUnit (v % 2 ^ 13) lvl && s.svy.request.isNone), ran (execSvyFenceReq v s) s)
    | 0x30014 => some (if bit v 31 then commitRollback s else (true, s))
    | 0x30018 => some (if bit v 31 then revokeKey s v else (true, s))
    | _ => none

/-- WRITE_REG (R705): NOT_PERMITTED for any other register; REJECTED where the register ignores the write. -/
def execWriteReg (off value : Nat) (s : State) : Host.Outcome State Fault Refusal :=
  match writePermitted s off (value % 2 ^ 32) with
  | none => .next (stavsan s 8 4 [])
  | some x => if reach s off = .dead then .next (stavsan s 8 1 []) else .next (verdict x 8)

/-- READ_ALARMS (R704, R708). -/
def execReadAlarms (s : State) : Host.Outcome State Fault Refusal :=
  let a (b : Nat) : Alarm := sget {} s.err.alarms b
  .next (stavsan s 9 0 (leBytes 32 (maskOf ((List.range 256).map fun b => (a b).set)) ++ (List.range 256).flatMap fun b => leBytes 2 (a b).count))

/-- CLEAR_ALARMS (R710): each masked bit and its count become 0. -/
def execClearAlarms (mask : Nat) (s : State) : Host.Outcome State Fault Refusal :=
  .next (if s.up 0 then stavsan { s with err := { s.err with alarms := skeep (fun b => !bit mask b) s.err.alarms } } 10 0 [] else s)

/-- READ_RECORDS (R704): the oldest records leave the side-band FIFO. -/
def execReadRecords (count : Nat) (s : State) : Host.Outcome State Fault Refusal :=
  if count == 0 || 4 < count || !s.up 0 then .next (stavsan s 11 2 [])
  else
    let l := s.err.sbFifo.take count
    .next (stavsan { s with err := { s.err with sbFifo := s.err.sbFifo.drop count } } 11 0 (leBytes 1 l.length ++ l.flatMap fun r => recBytes r false))

/-- The 16 bytes of a pace-history entry (R711). -/
def paceEntry (e : PaceEnt) : Bytes :=
  leBytes 8 e.tick ++ leBytes 4 (e.old + e.new * 2 ^ 8 + e.limit * 2 ^ 16 + flag e.emerg 19) ++ leBytes 4 e.index

/-- READ_PACE (R711): from the requested entry, or from the oldest one kept if that is later. -/
def execReadPace (first count : Nat) (s : State) : Host.Outcome State Fault Refusal :=
  if count == 0 || 16 < count then .next (stavsan s 12 2 [])
  else
    let l := (s.sb.pace.filter fun e => decide (dist32 e.index first < 2 ^ 31)).take count
    .next (stavsan s 12 0 (leBytes 4 ((l.head?.map (·.index)).getD first) ++ l.flatMap paceEntry))

end Sys2Proof.Machine
end

