-- ==== Sys2Proof/Machine/Dispatch.lean ====
section
/-! DEFINITION. One arm per command: each calls the meaning of its row. -/

namespace Sys2Proof.Machine

open Sys2Proof

def exec (i : Instr) (s : State) : Host.Outcome State Fault Refusal :=
  match i with
  | .sheetEnd c => Sys2Proof.Machine.execSheetEnd c s
  | .sheetEndDone c => Sys2Proof.Machine.execSheetEndDone c s
  | .sheetForecast c => Sys2Proof.Machine.execSheetForecast c s
  | .sheetNop c => Sys2Proof.Machine.execSheetNop c s
  | .scExt c => Sys2Proof.Machine.execScExt c s
  | .scLdext c ph => Sys2Proof.Machine.execScLdext c ph s
  | .scExtsub c => Sys2Proof.Machine.execScExtsub c s
  | .scExtmin c => Sys2Proof.Machine.execScExtmin c s
  | .scPset c ph => Sys2Proof.Machine.execScPset c ph s
  | .scPlog c => Sys2Proof.Machine.execScPlog c s
  | .mmLdw c ph => Sys2Proof.Machine.execMmLdw c ph s
  | .mmLda c ph => Sys2Proof.Machine.execMmLda c ph s
  | .mmSweep c ph => Sys2Proof.Machine.execMmSweep c ph s
  | .mmDrain c ph => Sys2Proof.Machine.execMmDrain c ph s
  | .mmClr c => Sys2Proof.Machine.execMmClr c s
  | .vxAdd c ph => Sys2Proof.Machine.execVxAdd c ph s
  | .vxMul c ph => Sys2Proof.Machine.execVxMul c ph s
  | .vxFma c ph => Sys2Proof.Machine.execVxFma c ph s
  | .vxMax c ph => Sys2Proof.Machine.execVxMax c ph s
  | .vxSfu c ph => Sys2Proof.Machine.execVxSfu c ph s
  | .vxSort c ph => Sys2Proof.Machine.execVxSort c ph s
  | .vxTopk c ph => Sys2Proof.Machine.execVxTopk c ph s
  | .vxHash c ph => Sys2Proof.Machine.execVxHash c ph s
  | .vxBmap c ph => Sys2Proof.Machine.execVxBmap c ph s
  | .vxCvt c ph => Sys2Proof.Machine.execVxCvt c ph s
  | .vxRed c ph => Sys2Proof.Machine.execVxRed c ph s
  | .vxProof c ph => Sys2Proof.Machine.execVxProof c ph s
  | .mvLoad c ph => Sys2Proof.Machine.execMvLoad c ph s
  | .mvStore c ph => Sys2Proof.Machine.execMvStore c ph s
  | .mvStoreComplete c => Sys2Proof.Machine.execMvStoreComplete c s
  | .mvPut c ph => Sys2Proof.Machine.execMvPut c ph s
  | .mvPutComplete c => Sys2Proof.Machine.execMvPutComplete c s
  | .mvGather c ph => Sys2Proof.Machine.execMvGather c ph s
  | .mvScatter c ph => Sys2Proof.Machine.execMvScatter c ph s
  | .rdSum c ph => Sys2Proof.Machine.execRdSum c ph s
  | .rdSumTotalWritten c off tag ph => Sys2Proof.Machine.execRdSumTotalWritten c off tag ph s
  | .rdRing c ph => Sys2Proof.Machine.execRdRing c ph s
  | .caSignal c => Sys2Proof.Machine.execCaSignal c s
  | .caSignalSend c => Sys2Proof.Machine.execCaSignalSend c s
  | .cairnSignalArrival cairn copy ph => Sys2Proof.Machine.execCairnSignalArrival cairn copy ph s
  | .caWait c ph => Sys2Proof.Machine.execCaWait c ph s
  | .caRead c ph => Sys2Proof.Machine.execCaRead c ph s
  | .atScore c ph => Sys2Proof.Machine.execAtScore c ph s
  | .atPv c ph => Sys2Proof.Machine.execAtPv c ph s
  | .atSoftmax c ph => Sys2Proof.Machine.execAtSoftmax c ph s
  | .atMerge c ph => Sys2Proof.Machine.execAtMerge c ph s
  | .atTree c ph => Sys2Proof.Machine.execAtTree c ph s
  | .atRollback c ph => Sys2Proof.Machine.execAtRollback c ph s
  | .plIssue c ph => Sys2Proof.Machine.execPlIssue c ph s
  | .plFence c => Sys2Proof.Machine.execPlFence c s
  | .plotFence stack job => Sys2Proof.Machine.execPlotFence stack job s
  | .streamSegmentFetch c ph => Sys2Proof.Machine.execStreamSegmentFetch c ph s
  | .bondTestEnd c west failed => Sys2Proof.Machine.execBondTestEnd c west failed s
  | .cairnTimeout c => Sys2Proof.Machine.execCairnTimeout c s
  | .deadlockSample => Sys2Proof.Machine.execDeadlockSample s
  | .tick ph => Sys2Proof.Machine.execTick ph s
  | .contextClearDone job => Sys2Proof.Machine.execContextClearDone job s
  | .clearTimeout job => Sys2Proof.Machine.execClearTimeout job s
  | .preemptSaveDone job ph => Sys2Proof.Machine.execPreemptSaveDone job ph s
  | .restoreDone job ph => Sys2Proof.Machine.execRestoreDone job ph s
  | .sheetBudgetExpiry => Sys2Proof.Machine.execSheetBudgetExpiry s
  | .sheetStall => Sys2Proof.Machine.execSheetStall s
  | .tickWaitLimit => Sys2Proof.Machine.execTickWaitLimit s
  | .regionWakeDone region => Sys2Proof.Machine.execRegionWakeDone region s
  | .proofAuto c ph => Sys2Proof.Machine.execProofAuto c ph s
  | .doorbell page off access => Sys2Proof.Machine.execDoorbell page off access s
  | .descriptorFetch ans => Sys2Proof.Machine.execDescriptorFetch ans s
  | .descriptorBegin ring src ph => Sys2Proof.Machine.execDescriptorBegin ring src ph s
  | .nop ring ph => Sys2Proof.Machine.execNop ring ph s
  | .jobStart ring param image ph => Sys2Proof.Machine.execJobStart ring param image ph s
  | .jobPrepareDone job ph => Sys2Proof.Machine.execJobPrepareDone job ph s
  | .copy ring ph => Sys2Proof.Machine.execCopy ring ph s
  | .copyPieceDone engine src ph => Sys2Proof.Machine.execCopyPieceDone engine src ph s
  | .plot ring ph => Sys2Proof.Machine.execPlot ring ph s
  | .table ring src ph => Sys2Proof.Machine.execTable ring src ph s
  | .fenceRing ring ph => Sys2Proof.Machine.execFenceRing ring ph s
  | .fenceJob ring ph => Sys2Proof.Machine.execFenceJob ring ph s
  | .fencePlot ring ph => Sys2Proof.Machine.execFencePlot ring ph s
  | .waitTimeout ring => Sys2Proof.Machine.execWaitTimeout ring s
  | .msixModTimeout vector => Sys2Proof.Machine.execMsixModTimeout vector s
  | .hifJobAbort value => Sys2Proof.Machine.execHifJobAbort value s
  | .ringReset ring => Sys2Proof.Machine.execRingReset ring s
  | .ringResetDone ring => Sys2Proof.Machine.execRingResetDone ring s
  | .pcieLinkUp width setup => Sys2Proof.Machine.execPcieLinkUp width setup s
  | .ecrcMismatch w0 w1 w2 w3 => Sys2Proof.Machine.execEcrcMismatch w0 w1 w2 w3 s
  | .unsupportedRequest write addr tlp => Sys2Proof.Machine.execUnsupportedRequest write addr tlp s
  | .pcieHotReset => Sys2Proof.Machine.execPcieHotReset s
  | .svyFenceReq value => Sys2Proof.Machine.execSvyFenceReq value s
  | .surveyCommit fails => Sys2Proof.Machine.execSurveyCommit fails s
  | .shtPeriodWrite value => Sys2Proof.Machine.execShtPeriodWrite value s
  | .shtOverrunLimitWrite value => Sys2Proof.Machine.execShtOverrunLimitWrite value s
  | .groupFormation value => Sys2Proof.Machine.execGroupFormation value s
  | .groupFormTimeout => Sys2Proof.Machine.execGroupFormTimeout s
  | .form port flit => Sys2Proof.Machine.execForm port flit s
  | .ack port flit credits => Sys2Proof.Machine.execAck port flit credits s
  | .nak port flit => Sys2Proof.Machine.execNak port flit s
  | .controlNop port sync => Sys2Proof.Machine.execControlNop port sync s
  | .twinCheck port sync body => Sys2Proof.Machine.execTwinCheck port sync body s
  | .ringDone port sync body => Sys2Proof.Machine.execRingDone port sync body s
  | .eq port sync body => Sys2Proof.Machine.execEq port sync body s
  | .headFlit port sync body => Sys2Proof.Machine.execHeadFlit port sync body s
  | .dataFlit port sync body ph => Sys2Proof.Machine.execDataFlit port sync body ph s
  | .idleFlit port sync => Sys2Proof.Machine.execIdleFlit port sync s
  | .linkPortDown port cause => Sys2Proof.Machine.execLinkPortDown port cause s
  | .linkRetrain port lane => Sys2Proof.Machine.execLinkRetrain port lane s
  | .portRetrain port => Sys2Proof.Machine.execPortRetrain port s
  | .ledgerSlot reports agentFault => Sys2Proof.Machine.execLedgerSlot reports agentFault s
  | .vcoreAlertAssert => Sys2Proof.Machine.execVcoreAlertAssert s
  | .vcoreAlertRelease => Sys2Proof.Machine.execVcoreAlertRelease s
  | .vcoreAlertLong => Sys2Proof.Machine.execVcoreAlertLong s
  | .avsAck rail => Sys2Proof.Machine.execAvsAck rail s
  | .avsWriteTimeout rail status => Sys2Proof.Machine.execAvsWriteTimeout rail status s
  | .avsRetry => Sys2Proof.Machine.execAvsRetry s
  | .marginSample codes datum => Sys2Proof.Machine.execMarginSample codes datum s
  | .guardUpdate => Sys2Proof.Machine.execGuardUpdate s
  | .viaMeasure ratios => Sys2Proof.Machine.execViaMeasure ratios s
  | .trimCellFault block trim => Sys2Proof.Machine.execTrimCellFault block trim s
  | .budgetShare memory io vstore => Sys2Proof.Machine.execBudgetShare memory io vstore s
  | .sensorSample readings => Sys2Proof.Machine.execSensorSample readings s
  | .staircaseStep => Sys2Proof.Machine.execStaircaseStep s
  | .thermalCodeUpdate => Sys2Proof.Machine.execThermalCodeUpdate s
  | .columnGovernor => Sys2Proof.Machine.execColumnGovernor s
  | .flowInPulse after => Sys2Proof.Machine.execFlowInPulse after s
  | .flowUpdate tin tout watts => Sys2Proof.Machine.execFlowUpdate tin tout watts s
  | .wearCount => Sys2Proof.Machine.execWearCount s
  | .resume => Sys2Proof.Machine.execResume s
  | .refresh stack bank busy => Sys2Proof.Machine.execRefresh stack bank busy s
  | .stackTempReadout stack temp => Sys2Proof.Machine.execStackTempReadout stack temp s
  | .patrolRead stack ph => Sys2Proof.Machine.execPatrolRead stack ph s
  | .stackTrainingLost stack => Sys2Proof.Machine.execStackTrainingLost stack s
  | .stackFenced stack => Sys2Proof.Machine.execStackFenced stack s
  | .plotSequenceStart stack => Sys2Proof.Machine.execPlotSequenceStart stack s
  | .plotStrokeEnd stack ph => Sys2Proof.Machine.execPlotStrokeEnd stack ph s
  | .plotSequenceComplete stack => Sys2Proof.Machine.execPlotSequenceComplete stack s
  | .scrubRead c ph => Sys2Proof.Machine.execScrubRead c ph s
  | .stsFlipArm c => Sys2Proof.Machine.execStsFlipArm c s
  | .regionCtrlFault region => Sys2Proof.Machine.execRegionCtrlFault region s
  | .blockErrFault block => Sys2Proof.Machine.execBlockErrFault block s
  | .regionErrFault region => Sys2Proof.Machine.execRegionErrFault region s
  | .errHandlerFault kind => Sys2Proof.Machine.execErrHandlerFault kind s
  | .errorRecordAccepted level unit => Sys2Proof.Machine.execErrorRecordAccepted level unit s
  | .errRingWrite refused => Sys2Proof.Machine.execErrRingWrite refused s
  | .limiterSlotExpiry => Sys2Proof.Machine.execLimiterSlotExpiry s
  | .errorHistoryAppend fails => Sys2Proof.Machine.execErrorHistoryAppend fails s
  | .wearSnapshot fails => Sys2Proof.Machine.execWearSnapshot fails s
  | .traceRingWrite region refused => Sys2Proof.Machine.execTraceRingWrite region refused s
  | .drain region => Sys2Proof.Machine.execDrain region s
  | .monSelWrite addr value sb => Sys2Proof.Machine.execMonSelWrite addr value sb s
  | .monSnapLoRead addr sb => Sys2Proof.Machine.execMonSnapLoRead addr sb s
  | .ibiHoldoffExpiry kind => Sys2Proof.Machine.execIbiHoldoffExpiry kind s
  | .powerOn => Sys2Proof.Machine.execPowerOn s
  | .resetN => Sys2Proof.Machine.execResetN s
  | .railLost input => Sys2Proof.Machine.execRailLost input s
  | .d0Release fuseBad => Sys2Proof.Machine.execD0Release fuseBad s
  | .domainRelease locked => Sys2Proof.Machine.execDomainRelease locked s
  | .resetClockTimeout => Sys2Proof.Machine.execResetClockTimeout s
  | .clockLost domain => Sys2Proof.Machine.execClockLost domain s
  | .datumBlockReset mask => Sys2Proof.Machine.execDatumBlockReset mask s
  | .mscReset mask => Sys2Proof.Machine.execMscReset mask s
  | .lnkReset mask => Sys2Proof.Machine.execLnkReset mask s
  | .copyEngineReset mask => Sys2Proof.Machine.execCopyEngineReset mask s
  | .linkEngineReset mask => Sys2Proof.Machine.execLinkEngineReset mask s
  | .regionReset region => Sys2Proof.Machine.execRegionReset region s
  | .blockReset region block => Sys2Proof.Machine.execBlockReset region block s
  | .cellReset c => Sys2Proof.Machine.execCellReset c s
  | .swResetRelease clkOk => Sys2Proof.Machine.execSwResetRelease clkOk s
  | .clocks sb => Sys2Proof.Machine.execClocks sb s
  | .loadFw sb => Sys2Proof.Machine.execLoadFw sb s
  | .trainMem sb trained ids unrepaired => Sys2Proof.Machine.execTrainMem sb trained ids unrepaired s
  | .testStack sb findings vias logicFault => Sys2Proof.Machine.execTestStack sb findings vias logicFault s
  | .releaseCore sb => Sys2Proof.Machine.execReleaseCore sb s
  | .trainLinks sb links => Sys2Proof.Machine.execTrainLinks sb links s
  | .publishSurvey sb fails trainFails => Sys2Proof.Machine.execPublishSurvey sb fails trainFails s
  | .lock sb => Sys2Proof.Machine.execLock sb s
  | .ready sb => Sys2Proof.Machine.execReady sb s
  | .brgStepComplete => Sys2Proof.Machine.execBrgStepComplete s
  | .stagingWrite off data => Sys2Proof.Machine.execStagingWrite off data s
  | .secStageWrite value => Sys2Proof.Machine.execSecStageWrite value s
  | .commit => Sys2Proof.Machine.execCommit s
  | .secRevoke value => Sys2Proof.Machine.execSecRevoke value s
  | .fuseOperationDone => Sys2Proof.Machine.execFuseOperationDone s
  | .signatureDone => Sys2Proof.Machine.execSignatureDone s
  | .getVersion doe req => Sys2Proof.Machine.execGetVersion doe req s
  | .getCapabilities doe req => Sys2Proof.Machine.execGetCapabilities doe req s
  | .negotiateAlgorithms doe req => Sys2Proof.Machine.execNegotiateAlgorithms doe req s
  | .getDigests doe req => Sys2Proof.Machine.execGetDigests doe req s
  | .getCertificate doe req => Sys2Proof.Machine.execGetCertificate doe req s
  | .challenge doe req => Sys2Proof.Machine.execChallenge doe req s
  | .getMeasurements doe req => Sys2Proof.Machine.execGetMeasurements doe req s
  | .chunkSend doe req => Sys2Proof.Machine.execChunkSend doe req s
  | .chunkGet doe req => Sys2Proof.Machine.execChunkGet doe req s
  | .respondIfReady doe req => Sys2Proof.Machine.execRespondIfReady doe req s
  | .getStatus => Sys2Proof.Machine.execGetStatus s
  | .claimBrg => Sys2Proof.Machine.execClaimBrg s
  | .releaseBrg => Sys2Proof.Machine.execReleaseBrg s
  | .writeStep value => Sys2Proof.Machine.execWriteStep value s
  | .stageData off data => Sys2Proof.Machine.execStageData off data s
  | .stageSet value => Sys2Proof.Machine.execStageSet value s
  | .readReg off count => Sys2Proof.Machine.execReadReg off count s
  | .writeReg off value => Sys2Proof.Machine.execWriteReg off value s
  | .readAlarms => Sys2Proof.Machine.execReadAlarms s
  | .clearAlarms mask => Sys2Proof.Machine.execClearAlarms mask s
  | .readRecords count => Sys2Proof.Machine.execReadRecords count s
  | .readPace first count => Sys2Proof.Machine.execReadPace first count s
  | .setEndpointId req => Sys2Proof.Machine.execSetEndpointId req s
  | .getEndpointId req => Sys2Proof.Machine.execGetEndpointId req s
  | .getEndpointUuid req => Sys2Proof.Machine.execGetEndpointUuid req s
  | .getMctpVersionSupport req => Sys2Proof.Machine.execGetMctpVersionSupport req s
  | .getMessageTypeSupport req => Sys2Proof.Machine.execGetMessageTypeSupport req s
  | .getVendorDefinedMsgSupport req => Sys2Proof.Machine.execGetVendorDefinedMsgSupport req s
  | .gettid req => Sys2Proof.Machine.execGettid req s
  | .settid req => Sys2Proof.Machine.execSettid req s
  | .getpldmversion req => Sys2Proof.Machine.execGetpldmversion req s
  | .getpldmtypes req => Sys2Proof.Machine.execGetpldmtypes req s
  | .getpldmcommands req => Sys2Proof.Machine.execGetpldmcommands req s
  | .getpdrrepositoryinfo req => Sys2Proof.Machine.execGetpdrrepositoryinfo req s
  | .getpdr req => Sys2Proof.Machine.execGetpdr req s
  | .getsensorreading req => Sys2Proof.Machine.execGetsensorreading req s
  | .getstatesensorreadings req => Sys2Proof.Machine.execGetstatesensorreadings req s
  | .seteventreceiver req => Sys2Proof.Machine.execSeteventreceiver req s
  | .pollforplatformeventmessage req => Sys2Proof.Machine.execPollforplatformeventmessage req s
  | .entdaa addr => Sys2Proof.Machine.execEntdaa addr s
  | .setdasa stat addr => Sys2Proof.Machine.execSetdasa stat addr s
  | .rstdaa => Sys2Proof.Machine.execRstdaa s
  | .enec events => Sys2Proof.Machine.execEnec events s
  | .disec events => Sys2Proof.Machine.execDisec events s
  | .getpid => Sys2Proof.Machine.execGetpid s
  | .getbcr => Sys2Proof.Machine.execGetbcr s
  | .getdcr => Sys2Proof.Machine.execGetdcr s
  | .getmwl => Sys2Proof.Machine.execGetmwl s
  | .getmrl => Sys2Proof.Machine.execGetmrl s
  | .setmwl value => Sys2Proof.Machine.execSetmwl value s
  | .setmrl value => Sys2Proof.Machine.execSetmrl value s
  | .getstatus => Sys2Proof.Machine.execGetstatus s
  | .registerWrite addr value enables => Sys2Proof.Machine.execRegisterWrite addr value enables s
  | .mvLoadComplete c => Sys2Proof.Machine.execMvLoadComplete c s
  | .stackRetrainDone stack => Sys2Proof.Machine.execStackRetrainDone stack s
  | .linkTrainingDone port lanes fast => Sys2Proof.Machine.execLinkTrainingDone port lanes fast s
  | .flitDiscard flit => Sys2Proof.Machine.execFlitDiscard flit s
  | .gatedRead req => Sys2Proof.Machine.execGatedRead req s
  | .d3hotTransition enter => Sys2Proof.Machine.execD3hotTransition enter s
  | .powerOff => Sys2Proof.Machine.execPowerOff s

end Sys2Proof.Machine
end

