-- ==== Sys2Proof/Safety.lean ====
section
/-! DEFINITION. What the statements are made in: when a cell's next instruction is carried out, what issuing it does, what a run of
the part keeps. -/

namespace Sys2Proof.Machine

open Sys2Proof

/-! ### Instructions of a cell (R167, R187) -/

/-- What the cell's next instruction is carried out with when the command brings the physical faults `ph`: there where that
instruction has opcode `op`, it passes every check of R187, its predicate holds, its region is awake where it is work that no
extent skips, and its transfers go through. -/
def readyCtx (op c : Nat) (ph : List Phys) (s0 : State) : Option Ctx :=
  let s := injectAll s0 ph
  (issuingJob s c).bind fun j =>
  (j.image.cells[(s.cell c).seq.vindex]?).bind fun v =>
  ((s.cell c).seq.stream[(s.cell c).seq.index]?).bind fun w =>
    let i := readIns w
    let o := operands i ((opInfo i.op).getD { op := 0 })
    let bias := ((segmentOf j.image v j.sheet).map (·.2)).getD 0
    let who : Issuer := ⟨c, v.vcell, i.op, j.sheet, (s.cell c).seq.index, j.id⟩
    if i.op = op ∧ encodingFault i (kindOf c) (v.vcell == j.image.lead) = none ∧ predOf s c i.pred ≠ i.pneg ∧
        resourceFault s c j v bias i o = none ∧
        ¬((isWork i.op && !skippedWhole s c o) = true ∧ (s.region (regionOf c)).pw.gated = true) ∧
        goesThrough s c j v i o who ph = true
    then some ⟨c, j, v, bias, i, o, who⟩ else none

/-- The state in which an instruction's own effect takes place: the stream has moved on, the issue is counted and traced, and
the plumb failures of the command have struck. -/
def issued (s : State) (x : Ctx) (ph : List Phys) : State :=
  let s1 := strike s x.c x.j x.i x.o x.who ph
  traceIssue ((advance s1 x.c (isWork x.i.op && !skippedWhole s x.c x.o)).countCell 0x002 x.c 1) x.c x.who

/-! ### What a scalar instruction changes (R171, R174) -/

/-- `t` is `u` but for extent `n` of cell `c`'s block, which holds `v`. -/
def ExtentSet (u t : State) (c n v : Nat) : Prop :=
  (∀ k, extOf t c k = if k = n then v else extOf u c k) ∧ (∀ k, predOf t c k = predOf u c k) ∧
  (∀ b, b ≠ blockIndex c → t.block b = u.block b) ∧ { t with blocks := u.blocks } = u

/-- `t` is `u` but for predicate `n` of cell `c`'s block, which holds `v`; predicate 0 reads 1 whatever is written. -/
def PredSet (u t : State) (c n : Nat) (v : Bool) : Prop :=
  (∀ k, predOf t c k = if k = n ∧ k ≠ 0 then v else predOf u c k) ∧ (∀ k, extOf t c k = extOf u c k) ∧
  (∀ b, b ≠ blockIndex c → t.block b = u.block b) ∧ { t with blocks := u.blocks } = u

/-! ### Plot units between strokes (R429, R445, R448) -/

/-- What a plot unit holds of the block that it works on is what the stack holds: the words it has read; or, while an UPDATE writes, the
block with the words written so far. -/
def bufAgrees (s : State) (n : Nat) (q : PlotSeq) (y : UnitCtx) : Prop :=
  ∀ c p, (plotCmds q)[y.cmd]? = some c → cmdStep q c y.step = some p →
    let b := unitByte (columnBase s p.col) y.unit (p.k * 4096) / 4096
    ∀ i, i < 4096 →
      let held := (s.stack n).data.get (b * 4096 + i)
      if y.writes = [] then (i < 32 * y.word → y.buf.get i = held)
      else held = if (b * 4096 + i) / 32 ∈ (writtenWords y.writes).take y.word then (blockImage y b).get i else y.buf.get i

/-- The columns of a sequence begin at slab boundaries, and its units are those of a stack, as decoding found them. -/
def seqPlaced (s : State) (q : PlotSeq) : Prop :=
  (∀ c ∈ plotCmds q, ∀ e ∈ cmdColumns c, columnBase s e.1 % 2 ^ 24 = 0) ∧ q.unitBase + q.unitCount ≤ 4096

/-! ### What every run keeps (R649, R664, R665, R681 to R685) -/

/-- An image runs, or the boot ROM has found nothing wrong with the one that LOAD_FW is about to start. -/
def imageTaken (s : State) : Prop :=
  s.sec.fwRunning = true ∨ (s.rst.step.map (·.1) = some 2 ∧ s.rst.worked = true ∧ s.rst.stepFail = 0)

/-- The image is one that the fuses allow: its key slot is provisioned and not revoked, its SVN not below the rollback count. -/
def imageAllowed (s : State) : Prop :=
  s.keep.keyDigests.getD s.sec.keyIndex 0 ≠ 0 ∧ bit s.keep.revoked s.sec.keyIndex = false ∧ s.keep.rollback ≤ s.sec.svn

/-- The invariant of bring-up and of the fuses. -/
def SecureBoot (s : State) : Prop :=
  (imageTaken s → imageAllowed s) ∧
  (s.rst.ready = true → s.sec.fwRunning = true) ∧
  (2 ≤ s.rst.done → s.sec.fwRunning = true) ∧
  (s.sec.fwRunning = true → 2 ≤ s.rst.done ∨ s.rst.railLost = true) ∧
  (∀ n t0, s.rst.step = some (n, t0) → n = s.rst.done + 1 ∧ s.rst.railLost = false) ∧
  (∀ kind v, s.sec.fuseOp = some (kind, v) → s.sec.fwRunning = true ∧ if kind = 0 then v = s.sec.svn else v ≠ s.sec.keyIndex)

end Sys2Proof.Machine
end

