-- ==== Sys2Proof/Certificates/Slice0/Obligations.lean ====
section
/-! DEFINITION. The statements for the provers. -/

open Sys2Proof Sys2Proof.Machine

/-- A step of a state with command `c` at the front of its queue is `exec c` on the state that keeps the rest of the queue. -/
def Obligations.StepRunsTheFrontCommand : Prop :=
  ∀ (c : Instr) (rest : List Instr) (s : State),
    step { s with pending := c :: rest } = exec c { s with pending := rest }

/-- On an empty queue the part idles for one reference cycle (the model's choice, log entry 12). -/
def Obligations.AnEmptyQueueLetsTenNanosecondsPass : Prop :=
  ∀ s : State, s.pending = [] → ∃ t, step s = .next t ∧ t = idle s ∧ t.clk.ps = s.clk.ps + 10000 ∧ t.pending = []

/-- No command stops the part, and a command changes everything but the queue. -/
def Obligations.EveryCommandGoesOnAndLeavesTheQueue : Prop :=
  ∀ (c : Instr) (s : State), ∃ t : State, exec c s = .next t ∧ t.pending = s.pending

/-- Issuing moves the cell's stream on by one, and leaves everything but the trace buffers and event counts (R167, R718). -/
def Obligations.IssueMovesTheStreamOn : Prop :=
  ∀ (op c : Nat) (s : State) (x : Ctx), readyCtx op c [] s = some x →
    (∀ d, (issued s x []).cell d = if d = c then
        { s.cell c with
          seq := { (s.cell c).seq with index := (s.cell c).seq.index + 1, issued := (s.cell c).seq.issued || (isWork op && !skippedWhole s c x.o) }
          misc := { (s.cell c).misc with issues := ((s.cell c).misc.issues + 1) % 32768 } }
      else s.cell d) ∧
    { issued s x [] with cells := s.cells, regions := s.regions, mon := s.mon, err := s.err } = s ∧
    (∀ r, { (issued s x []).region r with
        trace := (s.region r).trace, trcSeq := (s.region r).trcSeq, trcDropped := (s.region r).trcDropped } = s.region r) ∧
    { (issued s x []).err with drops := s.err.drops } = s.err ∧
    { (issued s x []).mon with counters := s.mon.counters } = s.mon

/-- SC.EXT, SC.EXTSUB, SC.EXTMIN complete, and write exactly the extent that OPD names (R182, R184). -/
def Obligations.ScalarInstructionsWriteExtents : Prop :=
  ∀ (c : Nat) (s : State) (x : Ctx),
    (readyCtx 0x10 c [] s = some x → ∃ t, exec (.scExt c) s = .next t ∧
      ExtentSet (issued s x []) t c x.od.reg x.i.opb) ∧
    (readyCtx 0x12 c [] s = some x → ∃ t, exec (.scExtsub c) s = .next t ∧
      ExtentSet (issued s x []) t c x.od.reg (max 0 (extOf s c x.oa.reg - x.i.opb))) ∧
    (readyCtx 0x13 c [] s = some x → ∃ t, exec (.scExtmin c) s = .next t ∧
      ExtentSet (issued s x []) t c x.od.reg (min (extOf s c x.oa.reg) x.i.opb))

/-- SC.PLOG completes, and writes exactly the predicate that OPD names; P0 keeps reading 1 (R186, R171). -/
def Obligations.PredicateLogicWritesThePredicate : Prop :=
  ∀ (c : Nat) (s : State) (x : Ctx), readyCtx 0x15 c [] s = some x →
    ∃ t, exec (.scPlog c) s = .next t ∧
      PredSet (issued s x []) t c x.od.reg
        (if x.i.x then predOf s c x.oa.reg || predOf s c x.ob.reg else predOf s c x.oa.reg && predOf s c x.ob.reg)

/-- SC.LDEXT and SC.PSET complete with the bytes they read, or skip under an extent of 0 (R183, R185, R196). -/
def Obligations.ScalarLoadsReadTheirOperand : Prop :=
  ∀ (c : Nat) (ph : List Phys) (s u : State) (x : Ctx) (d : Bytes),
    (readyCtx 0x11 c ph s = some x → bound (issued (injectAll s ph) x ph) c x.oa ≠ some 0 →
      (x.oa.space = 4 ∧ readOpnd (issued (injectAll s ph) x ph) x x.oa 64 none false = (some d, u) ∨
        x.oa.space ≠ 4 ∧ readMem (issued (injectAll s ph) x ph) (devAddr x x.oa) 64 x.acc = (.ok d, u)) →
      ∃ t, exec (.scLdext c ph) s = .next t ∧ (∀ n, n < 16 → extOf t c n = num d (4 * n) 4) ∧
        (∀ k, predOf t c k = predOf u c k) ∧ (∀ b, b ≠ blockIndex c → t.block b = u.block b) ∧
        { t with blocks := u.blocks, mon := u.mon } = u) ∧
    (readyCtx 0x14 c ph s = some x → bound (issued (injectAll s ph) x ph) c x.oa ≠ some 0 →
      readOpnd (issued (injectAll s ph) x ph) x x.oa 64 none false = (some d, u) →
      ∃ t, exec (.scPset c ph) s = .next t ∧
        PredSet u t c x.od.reg (if x.i.x then num d 0 4 == x.i.opb else decide (x.i.opb ≤ num d 0 4))) ∧
    (readyCtx 0x11 c ph s = some x → bound (issued (injectAll s ph) x ph) c x.oa = some 0 →
      exec (.scLdext c ph) s = .next ((issued (injectAll s ph) x ph).countCell 0x004 c 1)) ∧
    (readyCtx 0x14 c ph s = some x → bound (issued (injectAll s ph) x ph) c x.oa = some 0 →
      exec (.scPset c ph) s = .next ((issued (injectAll s ph) x ph).countCell 0x004 c 1))

/-- SHEET.END, SHEET.FORECAST, SHEET.NOP, and the completion of SHEET.END (R66, R81, R181). -/
def Obligations.SheetInstructionsComplete : Prop :=
  ∀ (c : Nat) (s : State) (x : Ctx) (j : Job),
    (readyCtx 0x00 c [] s = some x →
      exec (.sheetEnd c) s = .next ((issued s x []).updSeq c fun q => { q with ended := true, yields := x.i.x })) ∧
    (readyCtx 0x02 c [] s = some x → exec (.sheetNop c) s = .next (issued s x [])) ∧
    (readyCtx 0x01 c [] s = some x → exec (.sheetForecast c) s = .next
      (if x.j.image.sheetCount < x.j.sheet + 4 then issued s x []
       else (issued s x []).updJob x.j.id fun k => { k with forecasts := sput k.forecasts (x.j.sheet + 4) x.i.opb })) ∧
    (s.job? (s.cell c).seq.job = some j → (s.cell c).seq.ended = true → (s.cell c).seq.done = false →
      (s.cell c).seq.flight = [] → ∃ u : State, exec (.sheetEndDone c) s = .next (agree u.noteDone) ∧
        (u.cell c).seq = { (s.cell c).seq with done := true, doneAt := s.clk.cycles } ∧
        (∀ d, d ≠ c → u.cell d = s.cell d) ∧
        { u with cells := s.cells, regions := s.regions, mon := s.mon, err := s.err } = s)

/-- MM.LDW and MM.LDA complete: the buffer holds the bytes, its other bytes and all else are unchanged (R227, R228). -/
def Obligations.BufferLoadsFillTheBuffer : Prop :=
  ∀ (c : Nat) (ph : List Phys) (s u : State) (x : Ctx) (d : Bytes), d ≠ [] →
    readMove (issued (injectAll s ph) x ph) x x.oa (stashLen x.i x.o x.oa)
      (bound (issued (injectAll s ph) x ph) c x.oa) = (d, true, u) →
    (readyCtx 0x20 c ph s = some x → ∃ t, exec (.mmLdw c ph) s = .next t ∧
      Ram.read (t.cell c).mm.wb (x.od.half * 16384 + x.od.start) d.length = d ∧
      (∀ a, (a < x.od.half * 16384 + x.od.start ∨ x.od.half * 16384 + x.od.start + d.length ≤ a) →
        (t.cell c).mm.wb.get a = (u.cell c).mm.wb.get a) ∧
      { t.cell c with mm := { (t.cell c).mm with wb := (u.cell c).mm.wb, wbBad := (u.cell c).mm.wbBad } } = u.cell c ∧
      (∀ e, e ≠ c → t.cell e = u.cell e) ∧ { t with cells := u.cells } = u) ∧
    (readyCtx 0x21 c ph s = some x → ∃ t, exec (.mmLda c ph) s = .next t ∧
      Ram.read (t.cell c).mm.ab x.od.start d.length = d ∧
      (∀ a, (a < x.od.start ∨ x.od.start + d.length ≤ a) → (t.cell c).mm.ab.get a = (u.cell c).mm.ab.get a) ∧
      { t.cell c with mm := { (t.cell c).mm with ab := (u.cell c).mm.ab, abBad := (u.cell c).mm.abBad } } = u.cell c ∧
      (∀ e, e ≠ c → t.cell e = u.cell e) ∧ { t with cells := u.cells } = u)

/-- MM.CLR completes: the rows in play read 0, every other element and all else is unchanged (R232). -/
def Obligations.ClearZeroesTheRowsInPlay : Prop :=
  ∀ (c : Nat) (s : State) (x : Ctx), readyCtx 0x24 c [] s = some x →
    let run := runBanks s c
    let rows := clipTo (bound s c x.od) (16 * x.od.count)
    let key (k e : Nat) : Nat := accKey run (x.od.first + k / 16) (k % 16 * 16 + e)
    ∃ t, exec (.mmClr c) s = .next t ∧
      (∀ k e, k < rows → e < 16 → sget (0 : Word) (t.cell c).mm.acc (key k e) = 0) ∧
      (∀ n, (∀ k e, k < rows → e < 16 → n ≠ key k e) →
        sget (0 : Word) (t.cell c).mm.acc n = sget (0 : Word) (s.cell c).mm.acc n ∧
        sget 0 (t.cell c).mm.accBad n = sget 0 (s.cell c).mm.accBad n) ∧
      { t.cell c with mm := { (t.cell c).mm with acc := (s.cell c).mm.acc, accBad := (s.cell c).mm.accBad } } =
        (issued s x []).cell c ∧
      (∀ d, d ≠ c → t.cell d = s.cell d) ∧ { t with cells := (issued s x []).cells } = issued s x []

/-- MM.SWEEP and MM.DRAIN complete (R229 to R231). -/
def Obligations.SweepsAndDrainsComplete : Prop :=
  ∀ (c : Nat) (ph : List Phys) (s : State) (x : Ctx),
    let u := issued (injectAll s ph) x ph
    let i := x.i
    let g := geom i.a i.b i.shape x.ob.sparsity
    let rows := x.oa.rows
    let live := clipTo (minBound (bound u c x.od) (bound u c x.oa)) rows
    let lim := bound u c x.ob
    let ap := aParts i.a g.kt rows i.scale
    let v := u.countCell 0x004 c ((cdiv rows 16 - (if lim == some 0 then 0 else cdiv live 16)) * g.w)
    let all := 16 * x.oa.count
    let drained := cdiv (drainElems u x) 16
    let w := u.countCell 0x004 c (cdiv (all - drained + drained % 16) 16 - b2n (drained % 16 != 0))
    (readyCtx 0x22 c ph s = some x → live = 0 ∨ lim = some 0 → exec (.mmSweep c ph) s = .next v) ∧
    (readyCtx 0x22 c ph s = some x → live ≠ 0 → lim ≠ some 0 → ∀ wb rb zb sb v1 v2 v3 v4,
      readBuf v x false (x.ob.half * 16384 + x.ob.start) (wParts i.a i.b i.shape x.ob.sparsity i.scale).len = (some wb, v1) →
      escapeFault i x.ob.sparsity wb = none →
      readBuf v1 x true x.oa.start (cdiv (live * g.kt * fmtWidth i.a) 8) = (some rb, v2) →
      readBuf v2 x true (x.oa.start + ap.zero) (if i.a == 10 || i.a == 12 then live else 0) = (some zb, v3) →
      readBuf v3 x true (x.oa.start + ap.scale) (scaleBytes i.scale rows rows) = (some sb, v4) →
      let rs := readRows i g.kt live rows rb zb sb
      exec (.mmSweep c ph) s = .next (sweepTile (countTiles v4 c (tilesWritten i.x g.w rs)) x
        ⟨decide (8 ≤ i.a), i.scale != 0, i.x, g, g.w, i.b, x.od.first, runBanks v4 c, ph⟩
        (latch i x.ob.sparsity wb lim) rs).2) ∧
    (readyCtx 0x23 c ph s = some x → ∀ es n v1,
      drainRows w x (runBanks w c) x.oa.first (drainElems u x) = (es, n, v1) →
      let d := packElems (fmtWidth i.d) es
      exec (.mmDrain c ph) s = .next (
        let t := if n = 0 then v1 else writeMerged v1 x x.od (d.take (clipTo ((bound v1 c x.od).map (· * 64)) d.length))
        if i.x then clearRows t c (runBanks w c) x.oa.first n else t))

/-- One element of a sweep: replaced or added to, in FP32 or in clamped INT32; nothing else changes (R217, R218). -/
def Obligations.AccumulatingAddsOrReplaces : Prop :=
  ∀ (s : State) (x : Ctx) (key out : Nat) (iout : Int) (int ovw : Bool), sget 0 (s.cell x.c).mm.accBad key = 0 →
    let old := (sget (0 : Word) (s.cell x.c).mm.acc key).toNat
    let r := clamp32 ((if ovw then 0 else signed 32 old) + iout)
    let t := (accumulate s x key int ovw out iout).2
    (accumulate s x key int ovw out iout).1 = true ∧
    sget (0 : Word) (t.cell x.c).mm.acc key =
      BitVec.ofNat 32 (if int then r.1 else if ovw then out else addF32 old out) ∧
    (∀ n, n ≠ key → sget (0 : Word) (t.cell x.c).mm.acc n = sget (0 : Word) (s.cell x.c).mm.acc n) ∧
    (t.cell x.c).misc.intSat = (if int && r.2 then sat16 (s.cell x.c).misc.intSat 1 else (s.cell x.c).misc.intSat) ∧
    (t.cell x.c).stash = (s.cell x.c).stash ∧ (t.cell x.c).seq = (s.cell x.c).seq ∧
    (∀ d, d ≠ x.c → t.cell d = s.cell d) ∧ { t with cells := s.cells } = s

/-- The element-wise vector instructions complete with the values R304 and R306 give, rounded and written by `writeVals`. -/
def Obligations.ElementwiseInstructionsCompute : Prop :=
  ∀ (c : Nat) (ph : List Phys) (s : State) (x : Ctx),
    let u := issued (injectAll s ph) x ph
    let i := x.i
    let wa := fmtWidth i.a
    let n := liveCount u x wa wa (fmtWidth i.d)
    let v := skipTiles u x wa n
    let two (op : Nat) (row : Instr) (f : Val → Val → Val) : Prop := readyCtx op c ph s = some x →
      (n = 0 → exec row s = .next v) ∧
      (n ≠ 0 → ∀ as bs v1 v2, readElems v x x.oa wa n = (some as, v1) →
        (x.ob.space = litSpace ∧ bs = List.replicate n x.ob.v ∧ v2 = v1 ∨
          x.ob.space ≠ litSpace ∧ readElems v1 x x.ob wa n = (some bs, v2)) →
        exec row s = .next (writeVals v2 x i.d (List.zipWith (fun a b => f (decodeElem i.a a) (decodeElem i.a b)) as bs)))
    let one (op : Nat) (row : Instr) (f : List Nat → List Val) (fd : Nat) : Prop := readyCtx op c ph s = some x →
      (n = 0 → exec row s = .next v) ∧
      (n ≠ 0 → ∀ as v1, readElems v x x.oa wa n = (some as, v1) → exec row s = .next (writeVals v1 x fd (f as)))
    two 0x30 (.vxAdd c ph) Val.add ∧ two 0x31 (.vxMul c ph) Val.mul ∧ two 0x33 (.vxMax c ph) Val.max ∧
    one 0x39 (.vxCvt c ph) (fun as => as.map (decodeElem (cvtFmt i.x i.a))) (cvtFmt i.x i.d) ∧
    one 0x34 (.vxSfu c ph) (fun as => as.map fun a => ofF32 (sfuFn i.fn (toF32 (decodeElem i.a a)))) i.d ∧
    (readyCtx 0x32 c ph s = some x →
      (n = 0 → exec (.vxFma c ph) s = .next v) ∧
      (n ≠ 0 → ∀ as bs ds v1 v2 v3, readElems v x x.oa wa n = (some as, v1) → readElems v1 x x.ob wa n = (some bs, v2) →
        readElems v2 x x.od (fmtWidth i.d) n = (some ds, v3) →
        exec (.vxFma c ph) s = .next (writeVals v3 x i.d (List.zipWith (fun p d => p.add (decodeElem i.d d))
          (List.zipWith (fun a b => (decodeElem i.a a).mul (decodeElem i.a b)) as bs) ds))))

/-- What VX.MAX takes of two elements: NaN from a NaN, +0 over −0, else the larger (R304). -/
def Obligations.LargerOfTwoValues : Prop :=
  ∀ a b : Val,
    ((a = .nan ∨ b = .nan) ↔ Val.max a b = .nan) ∧
    (a ≠ .nan → b ≠ .nan → (Val.max a b = a ∨ Val.max a b = b) ∧
      (Val.max a b).lt a = false ∧ (Val.max a b).lt b = false) ∧
    (∀ e f : Int, Val.max (.fin true 0 e) (.fin false 0 f) = .fin false 0 f ∧
      Val.max (.fin false 0 e) (.fin true 0 f) = .fin false 0 e)

/-- The order of R312: by key, up or down, then by payload, lower first; equal pairs keep their input order. -/
def Obligations.SortingOrdersThePairs : Prop :=
  ∀ (f : Nat) (down : Bool) (ps : List Pair),
    (sortPairs f down ps).Perm ps ∧
    (sortPairs f down ps).Pairwise (fun a b =>
      (if down then keyRank f b.1 < keyRank f a.1 else keyRank f a.1 < keyRank f b.1) ∨
      (keyRank f a.1 = keyRank f b.1 ∧ a.2 ≤ b.2)) ∧
    (∀ k p, (sortPairs f down ps).filter (fun q => keyRank f q.1 == k && q.2 == p) =
      ps.filter fun q => keyRank f q.1 == k && q.2 == p)

/-- The pair, hash, reduction, bitmap and top-k instructions complete (R308 to R318). -/
def Obligations.PairInstructionsCompute : Prop :=
  ∀ (c : Nat) (ph : List Phys) (s : State) (x : Ctx),
    let u := issued (injectAll s ph) x ph
    let i := x.i
    let wa := vWidth i
    let runs (op : Nat) (row : Instr) (w n : Nat) (f : List Nat → State → State) : Prop :=
      readyCtx op c ph s = some x →
      (n = 0 → exec row s = .next (skipTiles u x w n)) ∧
      (n ≠ 0 → ∀ as v, readElems (skipTiles u x w n) x x.oa w n = (some as, v) → exec row s = .next (f as v))
    runs 0x35 (.vxSort c ph) 64 (liveCount u x 64 64 64)
      (fun as v => writeResults v x (pairBytes (sortPairs i.a i.x (as.map toPair)))) ∧
    runs 0x37 (.vxHash c ph) (fmtWidth i.a) (liveCount u x (fmtWidth i.a) (fmtWidth i.a) 32)
      (fun as v => writeResults v x
        (as.flatMap fun a => leBytes 4 (if i.x then mixer a else crc32c (leBytes (fmtWidth i.a / 8) a)))) ∧
    (i.fn = 0 → runs 0x3A (.vxRed c ph) wa (liveCount u x wa wa 32)
      (fun as v => writeVals v x 0 [Val.sum (as.map (decodeElem i.a))])) ∧
    (i.fn = 3 → runs 0x3A (.vxRed c ph) wa (liveCount u x wa wa 32)
      (fun as v => writeResults v x (leBytes 4 (as.foldl (· + ·) 0)))) ∧
    (i.fn = 6 → runs 0x3A (.vxRed c ph) wa (liveCount u x wa wa 64)
      (fun as v => writeResults v x (pairBytes (rankPairs (as.map toPair))))) ∧
    (i.fn = 4 → runs 0x3A (.vxRed c ph) wa (liveCount u x wa wa 32) (fun as v => writeResults v x
      ((histogram (if x.od.lenKib = 0 then 16 else 256 * x.od.lenKib) (as.map toPair)).flatMap (leBytes 4)))) ∧
    (i.fn = 1 → runs 0x3A (.vxRed c ph) wa (liveCount u x wa wa (fmtWidth i.d)) (fun as v => writeVals v x i.d
      [(as.drop 1).foldl (fun m a => m.max (decodeElem i.a a)) (decodeElem i.a (as.headD 0))])) ∧
    (i.fn = 2 → runs 0x3A (.vxRed c ph) wa (liveCount u x wa wa (fmtWidth i.d)) (fun as v => writeVals v x i.d
      [(as.drop 1).foldl (fun m a => m.min (decodeElem i.a a)) (decodeElem i.a (as.headD 0))])) ∧
    (i.fn = 5 → runs 0x3A (.vxRed c ph) wa (liveCount u x wa wa 512) (fun as v => writeResults v x
      ((histogram (if x.od.lenKib = 0 then 16 else 16 * x.od.lenKib) (as.map toPair)).flatMap (leBytes 64)))) ∧
    (7 ≤ i.fn → runs 0x3A (.vxRed c ph) wa (liveCount u x wa wa 32)
      (fun as v => writeResults v x (as.flatMap fun b => leBytes 4 (if b = 1 then 0 else 0x7F800000)))) ∧
    (i.fn < 4 → runs 0x38 (.vxBmap c ph) wa (liveCount u x wa 1 1) (fun as v => writeResults v x
      (packElems 1 (as.map fun a => b2n (compareVal i.fn (decodeElem i.a a) (decodeElem i.a i.opb)))))) ∧
    (4 ≤ i.fn → readyCtx 0x38 c ph s = some x →
      let n := liveCount u x wa 1 1
      let two (f : Nat → Nat → Nat) (as bs : List Nat) : Bytes := packElems 1 (List.zipWith f as bs)
      (n = 0 → exec (.vxBmap c ph) s = .next (skipTiles u x wa n)) ∧
      (n ≠ 0 → ∀ as bs v w, readElems (skipTiles u x wa n) x x.oa wa n = (some as, v) →
        (i.fn = 4 ∧ readSet v x = (some bs, w) ∨ i.fn ≠ 4 ∧ readElems v x x.ob 1 n = (some bs, w)) →
        exec (.vxBmap c ph) s = .next (writeResults w x (
          if i.fn = 4 then packElems 1 (as.map fun a => bs.getD a 0) else if i.fn = 5 then two (· * ·) as bs
          else if i.fn = 6 then two max as bs else two (fun a b => a * (1 - b)) as bs)))) ∧
    (readyCtx 0x36 c ph s = some x →
      let w := if bit i.opb 10 then 32 else 64
      let n := liveCount u x w w 64
      (n = 0 → exec (.vxTopk c ph) s = .next (skipTiles u x w n)) ∧
      (n ≠ 0 → ∀ as old v z, readElems (skipTiles u x w n) x x.oa w n = (some as, v) →
        (i.x = false ∧ old = [] ∧ z = v ∨ i.x = true ∧ readTopList v x = (some old, z)) →
        let base := if bit i.opb 11 then 0 else bits i.opb 31 16 * 1024
        let new := if bit i.opb 10 then as.zipIdx.map (fun e => (e.1, (base + e.2) % 2 ^ 32)) else as.map toPair
        let best := (sortPairs i.a (!bit i.opb 9) (old ++ new)).take (bits i.opb 8 0)
        let fill := skipPairs z ((8 - best.length % 8) % 8)
        exec (.vxTopk c ph) s = .next (
          if bit i.opb 11 then writeResults fill.2 x (pairBytes (best.map (fun p => (p.2 % 65536, bits i.opb 31 16)) ++ fill.1))
          else writeResults z x (leBytes 64 best.length ++ pairBytes best))))

/-- VX.PROOF and the automatic proof complete (R330 to R336). -/
def Obligations.ProofTilesThatPassAreNoted : Prop :=
  ∀ (c : Nat) (s : State) (x : Ctx),
    let passed (u t : State) (n : Nat) (next : Bool) : Prop :=
      t.cell c = { u.cell c with misc := { (u.cell c).misc with
        prfLast := n, prfPass := true, prfBase := (u.region (regionOf c)).pw.liveTicks,
        prfCount := sat32 (u.cell c).misc.prfCount 1,
        prfNext := if next then ((u.cell c).misc.prfNext + 1) % proofCount c else (u.cell c).misc.prfNext } } ∧
      (∀ d, d ≠ c → t.cell d = u.cell d) ∧ { t with cells := u.cells } = u
    (readyCtx 0x3B c [] s = some x → ∃ t, exec (.vxProof c []) s = .next t ∧
      passed (issued s x []) t (if bit x.i.opb 4 then (s.cell c).misc.prfNext else x.i.opb % 16) (bit x.i.opb 4)) ∧
    (s.goodCell c = true → proofDue s c = true → (s.region (regionOf c)).pw.gated = false → s.err.fatal = false →
      s.thm.stopped = false → ∃ t, exec (.proofAuto c []) s = .next t ∧ passed s t (s.cell c).misc.prfNext true)

/-- MV.LOAD, MV.STORE and MV.PUT move the bytes they read and leave an operation under way; a completion ends the oldest of its
kind (R416 to R418, R346 to R350). -/
def Obligations.MovesCarryTheirLines : Prop :=
  (∀ (c : Nat) (ph : List Phys) (s : State) (x : Ctx) (d : Bytes) (v w : State),
    let u := issued (injectAll s ph) x ph
    let lenL := stashLen x.i x.o x.od
    let live := clipTo (minBound (bound u c x.od) (bound u c x.oa)) (lenL / 64)
    let uL := u.countCell 0x004 c (cdiv lenL 1024 - cdiv live 16)
    let lenS := stashLen x.i x.o x.ob
    let b := minBound (bound u c x.ob) (bound u c x.od)
    let uS := u.countCell 0x004 c (cdiv lenS 1024 - cdiv (clipTo b (cdiv lenS 64)) 16)
    let clean := badLine ph (d.length / 64) = none
    (readyCtx 0x40 c ph s = some x → live = 0 → exec (.mvLoad c ph) s = .next uL) ∧
    (readyCtx 0x40 c ph s = some x → live ≠ 0 → clean →
      readDev uL (devAddr x x.oa) (live * 64) x.acc = (d, true, v) →
      writeLines (v.countRegion 0x201 (regionOf c) (d.length / 64)) c (x.gran v) (x.od.start / 64)
        (toLines (d.take (live * 64))) (some x.who) = (true, w) →
      exec (.mvLoad c ph) s = .next (addFlight w c (.load (live * 64)))) ∧
    (readyCtx 0x41 c ph s = some x → clean → d ≠ [] → readMove uS x x.ob lenS b = (d, true, v) →
      writeMem (v.countRegion 0x202 (regionOf c) (d.length / 64)) (devAddr x x.od) d x.acc = (.ok (), w) →
      exec (.mvStore c ph) s = .next (addFlight w c (.store d.length))) ∧
    (readyCtx 0x42 c ph s = some x → clean → 64 ≤ d.length → 64 ∣ d.length → ∀ dst,
      physOf x.j x.od.vcell = some dst → badRouter ph c dst = none → readMove uS x x.ob lenS b = (d, true, v) →
      let n := d.length / 64
      let v1 := v.count 0x101 none (some (blockIndex c)) (some (regionOf c)) n
      let v2 := if blockIndex c = blockIndex dst then v1 else v1.countRegion 0x203 (regionOf c) n
      writeLines v2 dst (v2.cell dst).seq.gran (x.od.start / 64) (toLines d) (some x.who) = (true, w) →
      exec (.mvPut c ph) s = .next (addFlight w c (.put dst d.length)))) ∧
  (∀ (c : Nat) (s : State) (before after : List Flight), (s.cell c).seq.halted = false →
    let done (row : Instr) (mine : Flight → Bool) (f : Flight) : Prop :=
      (s.cell c).seq.flight = before ++ f :: after → mine f = true → before.all (fun g => !mine g) = true →
      ∃ t, exec row s = .next t ∧
        t.cell c = { s.cell c with seq := { (s.cell c).seq with flight := before ++ after } } ∧
        (∀ d, d ≠ c → t.cell d = s.cell d) ∧
        { t with cells := s.cells, regions := s.regions, mon := s.mon, err := s.err } = s ∧
        { t.err with drops := s.err.drops } = s.err
    (∀ n, done (.mvLoadComplete c) (fun f => match f with | .load _ => true | _ => false) (.load n)) ∧
    (∀ n, done (.mvStoreComplete c) (fun f => match f with | .store _ => true | _ => false) (.store n)) ∧
    (∀ e n, done (.mvPutComplete c) (fun f => match f with | .put _ _ => true | _ => false) (.put e n)))

/-- MV.GATHER and MV.SCATTER on pairs that pass their checks (R325 to R327). -/
def Obligations.GatherAndScatterMoveTheRows : Prop :=
  ∀ (c : Nat) (ph : List Phys) (s : State) (x : Ctx),
    let u := issued (injectAll s ph) x ph
    let img (t : Opnd) : Bytes := (tableImage u x.j.id t.tkind t.tid).getD []
    let rb (t : Opnd) : Nat := num (img t) 8 4
    let count (t data : Opnd) : Nat := clipTo (minBound (boundElems (bound u c x.ob) 64)
      (if rb t = 0 then none else boundElems (bound u c data) (8 * rb t))) (vCount x.ob.lenKib 64)
    let pairs (t data : Opnd) (d : Bytes) : List Pair := (List.range (count t data)).map fun k => toPair (num d (8 * k) 8)
    (readyCtx 0x43 c ph s = some x → count x.oa x.od = 0 → exec (.mvGather c ph) s = .next u) ∧
    (readyCtx 0x44 c ph s = some x → count x.od x.oa = 0 → exec (.mvScatter c ph) s = .next u) ∧
    (readyCtx 0x43 c ph s = some x → count x.oa x.od ≠ 0 → ∀ d v,
      readOpnd u x x.ob (8 * count x.oa x.od) none true = (some d, v) →
      routeFault x.j (img x.oa) false (stashLen x.i x.o x.od) (pairs x.oa x.od d) = none →
      exec (.mvGather c ph) s = .next
        ((((pairs x.oa x.od d).filter fun p => !isSkip p).zipIdx).foldl (fun (r : Bool × State) e =>
          if !r.1 then r
          else match (locate x.j (img x.oa) false e.1).elim (none, r.2) (readRow r.2 x (rb x.oa)) with
            | (none, s) => (false, s)
            | (some d, s) =>
              writeLines s c (x.gran s) (x.od.start / 64 + e.2 * rb x.oa / 64) (toLines d) (some x.who)) (true, v)).2) ∧
    (readyCtx 0x44 c ph s = some x → count x.od x.oa ≠ 0 → ∀ d v,
      readOpnd u x x.ob (8 * count x.od x.oa) none true = (some d, v) →
      routeFault x.j (img x.od) true (stashLen x.i x.o x.oa) (pairs x.od x.oa d) = none →
      exec (.mvScatter c ph) s = .next
        (((pairs x.od x.oa d).filter fun p => !isSkip p).foldl (fun (r : Bool × State) p =>
          if !r.1 then r
          else match readRow r.2 x (rb x.od) (.stash c (x.oa.start + p.2 * rb x.od)) with
            | (none, s) => (false, s)
            | (some d, s) => (locate x.j (img x.od) true p).elim (false, s) (writeRow s x d)) (true, v)).2)

/-- RD.SUM opens or joins a group; RD_SUM_TOTAL_WRITTEN forms and writes the total of a complete one (R351 to R355). -/
def Obligations.ReductionsGatherTheirMembers : Prop :=
  ∀ (c : Nat) (ph : List Phys) (s : State) (x : Ctx) (h d : Bytes) (v w : State),
    let i := issued (injectAll s ph) x ph
    let lines := if x.ob.space = 4 then stashLen x.i x.o x.ob / 64 else 16 * x.ob.count
    let u := i.countCell 0x004 c (cdiv lines 16 - cdiv (clipTo (minBound (bound i c x.ob) (bound i c x.od)) lines) 16)
    let off := bits x.od.v 12 0
    let tag := num h 8 2
    let mine (g : RedGroup) : Bool := g.job == x.j.id && g.dest == x.od.vcell && g.off == off && g.tag == tag &&
      !g.parts.any fun q => q.vcell == x.v.vcell
    let part : Contribution := ⟨c, d, x.j.sheet, x.who.index, x.v.vcell, h, sumBits x.i⟩
    let opened : RedGroup := { dest := x.od.vcell, off, tag, job := x.j.id, header := h, opcodeBits := sumBits x.i, parts := [part] }
    (readyCtx 0x50 c ph s = some x → skippedWhole u c x.o = true → exec (.rdSum c ph) s = .next u) ∧
    (readyCtx 0x50 c ph s = some x → skippedWhole u c x.o = false → readStash u c (x.gran u) (stashBytes x.v - 64) 64 (some x.who) = (some h, v) →
      headerGood x.j x.v h = true → contribution v x = (some d, w) → badLine ph (d.length / 64) = none →
      routerOn ph (regionOf c) (regionOf ((physOf x.j x.od.vcell).getD c)) = none →
      (w.reds.find? mine = none → exec (.rdSum c ph) s = .next (netStep (addFlight { w with reds := w.reds ++ [opened] }
        c (.sum x.od.vcell off tag)))) ∧
      (∀ g, w.reds.find? mine = some g → exec (.rdSum c ph) s = .next (netStep (addFlight
          { w with reds := w.reds.map fun y => if y = g then { y with parts := y.parts ++ [part] } else y }
          c (.sum x.od.vcell off tag))))) ∧
    ((∀ g ∈ s.reds, ∀ p ∈ g.parts, p.header = g.header ∧ p.bits = g.opcodeBits ∧ ∀ q ∈ g.parts, q.data.length = p.data.length) →
      let still (g : RedGroup) : RedGroup := { g with xbars := [], routers := [], blocksOut := [], regionsOut := [] }
      { netStep s with reds := s.reds } = s ∧ (netStep s).reds.map still = s.reds.map still ∧
      (∀ k, (∀ b, atXbar s.reds b ≤ 8) → atXbar (netStep s).reds k ≤ 8) ∧
      (∀ k, (∀ r, atRouter s.reds r ≤ 8) → atRouter (netStep s).reds k ≤ 8)) ∧
    (∀ (off tag : Nat) (g : RedGroup) (j : Job), let t := netStep s
      t.reds.find? (fun g => g.off == off && g.tag == tag && g.summed && sameOrder t g &&
        (t.job? g.job).any fun j => physOf j g.dest == some c) = some g → t.job? g.job = some j →
      plumbOpen t c = true →
      let ps := foldOrder g.parts
      let int := bit g.opcodeBits 64
      let sums := ((List.range 32).filter fun r => ps.any fun p => p.vcell / 256 == r).map fun r => (r, regionSum int ps r)
      let total := foldWords int (sums.map fun e => e.2.1)
      let first := ps.headD ⟨c, [], 0, 0, 0, [], 0⟩
      ∃ a : State, { a with regions := t.regions, mon := t.mon } = t ∧
        (∀ r, { a.region r with redSat := (t.region r).redSat } = t.region r) ∧
        exec (.rdSumTotalWritten c off tag []) s = .next (netStep (dropGroup
            (writeLines a c (a.cell c).seq.gran off
              (toLines ((packElems 32 total.1).take ((packElems 32 total.1).length / 64 * 64)))
              (some ⟨first.cell, first.vcell, 0x50, first.sheet, first.index, j.id⟩)).2 g)))

/-- RD.RING begins, or waits at issue (R542 to R546). -/
def Obligations.RingTransfersBegin : Prop :=
  ∀ (c : Nat) (ph : List Phys) (s v w : State) (x : Ctx) (r : Bytes) (bs : List Bytes),
    (ringHeld s c = true → exec (.rdRing c ph) s = .next (injectAll s ph)) ∧
    (ringHeld s c = false → readyCtx 0x51 c ph s = some x → x.j.interactive = false →
      readStash (issued (injectAll s ph) x ph) c (x.gran (issued (injectAll s ph) x ph)) (stashBytes x.v - 64) 64
        (some x.who) = (some r, v) →
      ringFault v x r = none →
      ringSource v (devAddr x x.oa) (num r 0 8 / 4096) { who := some x.who, job := x.j.id, src := srcCell x.c } = (.ok bs, w) →
      let dir := b2n (bit x.i.opd 2)
      ∃ head, exec (.rdRing c ph) s = .next (queueRing
        (addFlight { w with grp := { w.grp with nextNumber := (w.grp.nextNumber + 1) % 65536,
                                                rings := w.grp.rings ++ [⟨w.grp.nextNumber, x.j.id, x.c, dir⟩] } }
          x.c (.ring w.grp.nextNumber))
        (rolePorts w (dir + 1)) head bs) ∧
        num head 0 2 = x.j.id % 65536 ∧ num head 4 2 = w.grp.nextNumber % 65536 ∧ num head 16 8 = num r 0 8)

/-- AT.SCORE, AT.PV, AT.SOFTMAX, AT.MERGE complete (R470 to R474). -/
def Obligations.AttentionRowsComplete : Prop :=
  ∀ (c : Nat) (ph : List Phys) (s : State) (x : Ctx),
    let u := issued (injectAll s ph) x ph
    let i := x.i
    let b := minBound (bound u c x.od) (bound u c x.oa)
    let liveS := clipTo b x.oa.rows
    let uS := u.countCell 0x004 c ((cdiv x.oa.rows 16 - cdiv liveS 16) * shapeW i.shape)
    let rowsV := 16 * pvGroups x
    let liveV := clipTo (bound u c x.od) rowsV
    let uV := u.countCell 0x004 c ((cdiv rowsV 16 - cdiv liveV 16) * shapeW i.shape)
    (readyCtx 0x70 c ph s = some x →
      (b = some 0 → exec (.atScore c ph) s = .next uS) ∧
      (b ≠ some 0 → ∀ a fresh tree qb v1 v2 v3 v4, readAtt uS x false = (some a, v1) →
        (i.x = true → storeFault v1 x a = none) → readFresh v1 x a false = (some fresh, v2) →
        (a.r.mask = 2 ∧ readStash v2 c (x.gran v2) a.r.tree 128 (some x.who) = (some tree, v3) ∨
          a.r.mask ≠ 2 ∧ tree = [] ∧ v3 = v2) →
        readBuf v3 x true x.oa.start (liveS * a.h.dim * fmtWidth i.a / 8) = (some qb, v4) →
        exec (.atScore c ph) s =
          .next (scoreBody v4 x a ph liveS (fun m => b.all fun e => decide (m < e)) fresh tree qb))) ∧
    (readyCtx 0x71 c ph s = some x →
      (liveV = 0 ∨ bound u c x.oa = some 0 → exec (.atPv c ph) s = .next uV) ∧
      (liveV ≠ 0 → bound u c x.oa ≠ some 0 → ∀ a fresh pb v1 v2 v3, readAtt uV x true = (some a, v1) →
        (i.x = true → storeFault v1 x a = none) → readFresh v1 x a true = (some fresh, v2) →
        readOpnd v2 x x.oa (stashLen i x.o x.oa) (bound v2 c x.oa) false = (some pb, v3) →
        exec (.atPv c ph) s = .next (pvBody v3 x a ph liveV fresh pb))) ∧
    (readyCtx 0x72 c ph s = some x →
      (linesIn u x = some 0 → exec (.atSoftmax c ph) s = .next (u.countCell 0x004 c x.oa.lenKib)) ∧
      (linesIn u x ≠ some 0 → ∀ d v1, readOpnd u x x.oa (1024 * x.oa.lenKib) (linesIn u x) false = (some d, v1) →
        let r := softmax i x.oa.lenKib (elemsIn (linesIn u x) (fmtWidth i.d) (256 * x.oa.lenKib)) d (v1.cell c).misc.rng
        let v2 := v1.updMisc c fun m => { m with rng := r.2.2 }
        exec (.atSoftmax c ph) s = .next (logNans (writeOpnd v2 x x.od r.1 (linesIn u x)) x 0 r.2.1))) ∧
    (readyCtx 0x73 c ph s = some x →
      let la := stashLen i x.o x.oa
      (linesIn u x = some 0 → exec (.atMerge c ph) s = .next (u.countCell 0x004 c (la / 1024))) ∧
      (linesIn u x ≠ some 0 → stashLen i x.o x.ob = la →
        ∀ p q v1 v2, readOpnd u x x.oa la (linesIn u x) false = (some p, v1) →
        readOpnd v1 x x.ob la (linesIn u x) false = (some q, v2) → num p 8 4 = num q 8 4 →
        let g := min (num p 8 4) (la / 1024)
        let dim := 16 * (la / 1024 / num p 8 4 - 1)
        exec (.atMerge c ph) s = .next (writeMerge v2 x (linesIn u x) g dim
          ((List.range (16 * g)).map fun r => mergeRow (partRow p g dim r) (partRow q g dim r)))))

/-- The merge of R474 is commutative: row by row, either order gives the same maximum, sum and outputs. -/
def Obligations.MergingStatesIsCommutative : Prop :=
  ∀ (a b : Bytes) (g dim r : Nat),
    mergeRow (partRow a g dim r) (partRow b g dim r) = mergeRow (partRow b g dim r) (partRow a g dim r)

/-- AT.TREE, X 0: word i holds its parent's word and bit i, so node i and its ancestors (R478). -/
def Obligations.TreeMaskHoldsTheAncestors : Prop :=
  ∀ (c : Nat) (ph : List Phys) (s v : State) (x : Ctx) (b : Bytes),
    let u := issued (injectAll s ph) x ph
    let word (k : Nat) : Nat := num (treeMask b) (4 * k) 4
    readyCtx 0x74 c ph s = some x → x.i.x = false → linesIn u x ≠ some 0 →
    readOpnd u x x.oa 384 (linesIn u x) false = (some b, v) → treeFault b = none →
    exec (.atTree c ph) s = .next (writeOpnd v x x.od (treeMask b) (linesIn u x)) ∧ (treeMask b).length = 128 ∧
    word 0 = 1 ∧
    (∀ k, 0 < k → k < num b 0 1 % 64 → parentOf b k < k ∧ word k = word (parentOf b k) + 2 ^ k) ∧
    (∀ k j, k < num b 0 1 % 64 → k < j → bit (word k) j = false) ∧
    (∀ k, num b 0 1 % 64 ≤ k → k < 32 → word k = 0)

/-- AT.TREE, X 1: which nodes are accepted, how the path runs, and the vector's counts (R479). -/
def Obligations.TreeAcceptanceFollowsThePath : Prop :=
  ∀ (c : Nat) (ph : List Phys) (s v : State) (x : Ctx) (b : Bytes),
    let u := issued (injectAll s ph) x ph
    let n := num b 0 1 % 64
    let path := treePath b (accepted b) 32 0
    readyCtx 0x74 c ph s = some x → x.i.x = true → linesIn u x ≠ some 0 →
    readOpnd u x x.oa 384 (linesIn u x) false = (some b, v) → treeFault b = none →
    exec (.atTree c ph) s = .next (writeOpnd v x x.od (acceptance b) (linesIn u x)) ∧ (acceptance b).length = 256 ∧
    (∀ k, k ∈ accepted b ↔ k < n ∧ (k = 0 ∨ k < num b 1 1 % 64 ∨
      (parentOf b k ∈ accepted b ∧ candOf b k = verifyOf b (parentOf b k)))) ∧
    path.head? = some 0 ∧ (∀ k ∈ path, k ∈ accepted b) ∧
    path.IsChain (fun p k => p < k ∧ parentOf b k = p) ∧
    num (acceptance b) 0 4 = num b 4 4 % 4096 ∧ num (acceptance b) 4 1 = path.length ∧
    num (acceptance b) 8 4 = verifyOf b (path.getLastD 0) ∧
    num (acceptance b) 16 4 = path.length - num (acceptance b) 5 1 + 1

/-- AT.ROLLBACK completes: LEN of the one sequence takes the new length, nothing else changes (R480). -/
def Obligations.RollbackMovesTheLength : Prop :=
  ∀ (c : Nat) (ph : List Phys) (s v : State) (x : Ctx) (b : Bytes) (y : TableSt),
    let u := issued (injectAll s ph) x ph
    let n := num b 0 2 % 4096
    let mine (t : TableSt) : Bool := t.job == x.j.id && t.kind == 1 && t.id == x.od.tid
    let len := kvLen y n
    let new := if x.i.x then (if bit (num b 0 4) 31 then num b 4 4 else len + num b 4 4) else len + num b 5 1 % 64
    readyCtx 0x75 c ph s = some x →
    (bound u c x.oa = some 0 → exec (.atRollback c ph) s = .next (u.countCell 0x004 c 1)) ∧
    (bound u c x.oa ≠ some 0 → readOpnd u x x.oa 64 none false = (some b, v) → v.tables.find? mine = some y →
      ¬(x.i.x = true ∧ bit (num b 0 4) 31 = true ∧ len < new) → new ≤ classLimit x.j.interactive →
      (∀ i, y.image = some i → new ≤ kvCover i n) → (y.image = none → new = 0) →
      (∀ i r k, y.shadow = some (i, r, k) → n < (kvHead i).nSeq → (kvSeq i n).setLen = false → (kvSeq i n).freeze ≤ new) →
      ∃ t, exec (.atRollback c ph) s = .next t ∧ { t with tables := v.tables } = v ∧
        t.tables = v.tables.map (fun z => if mine z then { z with lens := sset 0 z.lens n new } else z) ∧
        ∃ z, t.tables.find? mine = some z ∧ kvLen z n = new ∧ (∀ m, m ≠ n → kvLen z m = kvLen y m) ∧
          { z with lens := y.lens } = y)

/-- CA.SIGNAL, CA.WAIT and CA.READ (R492 to R494). -/
def Obligations.CairnInstructionsComplete : Prop :=
  ∀ (c : Nat) (ph : List Phys) (s : State) (x : Ctx),
    let u := issued (injectAll s ph) x ph
    let n := x.j.params.cairnBase + x.oa.cairn
    let clean := sget 0 u.syn.bad (cairnKey n (regionOf c)) = 0
    (readyCtx 0x60 c [] s = some x → exec (.caSignal c) s = .next ((issued s x []).updSeq c fun q =>
      { q with flight := q.flight ++
          [.signal (x.j.params.cairnBase + x.od.cairn) x.i.opb x.i.x (s.cell c).seq.index] })) ∧
    (readyCtx 0x61 c ph s = some x → clean → x.i.opb ≤ cairnVal u n (regionOf c) →
      ∃ t : State, exec (.caWait c ph) s = .next t ∧
        t.cell c = { u.cell c with seq := { (u.cell c).seq with wait := none } } ∧ (∀ d, d ≠ c → t.cell d = u.cell d) ∧
        { t with cells := u.cells, regions := u.regions, mon := u.mon, err := u.err } = u) ∧
    (readyCtx 0x61 c ph s = some x → clean → cairnVal u n (regionOf c) < x.i.opb →
      (u.cell c).seq.halted = false →
      exec (.caWait c ph) s = .next (u.updSeq c fun q => { q with wait := some ⟨n, x.i.opb, u.clk.cycles⟩ })) ∧
    (readyCtx 0x62 c ph s = some x → skippedWhole u c x.o = true → exec (.caRead c ph) s = .next u) ∧
    (readyCtx 0x62 c ph s = some x → skippedWhole u c x.o = false → clean →
      exec (.caRead c ph) s = .next
        (writeOpnd u x x.od (leBytes 4 (cairnVal u n (regionOf c)) ++ List.replicate 60 0) (bound u c x.od)))

/-- CA_SIGNAL_SEND and CAIRN_SIGNAL_ARRIVAL (R490, R493, R496, R497). -/
def Obligations.SignalsReachEveryCopy : Prop :=
  (∀ (c n a index : Nat) (g : Bool) (rest : List Flight) (s : State) (j : Job),
    (s.cell c).seq.flight = .signal n a g index :: rest → s.job? (s.cell c).seq.job = some j →
    (g = true → j.params.group = true ∧ s.syn.groupQ.length < 64) → cairnVal s n 32 + onItsWay s n + a ≤ 0xFFFFFFFF →
    ∃ t : State, exec (.caSignalSend c) s = .next t ∧
      t.syn = { s.syn with
        inFlight := s.syn.inFlight ++ (List.range 33).map (fun k => (n, k, a, srcCell c))
        groupQ := s.syn.groupQ ++ if g then [(j.id, n - j.params.cairnBase, a)] else [] } ∧
      (t.cell c).seq.flight = rest ∧ (∀ d, d ≠ c → t.cell d = s.cell d) ∧
      { t with cells := s.cells, regions := s.regions, mon := s.mon, err := s.err, syn := s.syn, sht := s.sht } = s) ∧
  (∀ (n copy a : Nat) (ph : List Phys) (rest : List (Nat × Nat × Nat × Nat)) (s : State),
    let u := injectAll s ph
    let v := min 0xFFFFFFFF (cairnVal u n copy + a)
    let woken (c : Nat) (w : Wait) : Prop := copy ≠ 32 ∧ v ≠ cairnVal u n copy ∧ regionOf c = copy ∧ (u.cell c).seq.wait = some w ∧
      w.cairn % 16 = n % 16 ∧ w.value ≤ if w.cairn = n then v else cairnVal u w.cairn copy
    takeFlight n copy u.syn.inFlight = some (a, rest) → sget 0 u.syn.bad (cairnKey n copy) = 0 → n < 4096 → copy ≤ 32 →
    (∀ c w, regionOf c = copy → (u.cell c).seq.wait = some w → sget 0 u.syn.bad (cairnKey w.cairn copy) = 0) →
    swf {} u.cells = true →
    ∃ t : State, exec (.cairnSignalArrival n copy ph) s = .next t ∧
      t.syn = { u.syn with inFlight := rest, copies := sset 0 u.syn.copies (cairnKey n copy) v,
                           bad := sdel u.syn.bad (cairnKey n copy) } ∧
      (∀ c w, woken c w → (t.cell c).seq.wait = none) ∧
      (∀ c, (∀ w, ¬woken c w) → t.cell c = u.cell c) ∧
      { t with cells := u.cells, regions := u.regions, mon := u.mon, err := u.err, syn := u.syn } = u)

/-- CAIRN_TIMEOUT and DEADLOCK_SAMPLE (R498, R505 to R510): at its timeout a wait whose condition holds completes, any other raises
CAIRN_TIMEOUT; at a sample every job is sampled, and one stuck at two samples in a row is deadlocked. -/
def Obligations.WaitsTimeOutAndJobsDeadlock : Prop :=
  (∀ (c : Nat) (s : State) (w : Wait) (j : Job) (v : VCell), (s.cell c).seq.wait = some w →
    s.job? (s.cell c).seq.job = some j → j.image.cells[(s.cell c).seq.vindex]? = some v →
    let u := s.untilCycle (w.since + if j.params.waitTimeout = 0 then 1048576 else j.params.waitTimeout)
    let copy := cairnVal s w.cairn (regionOf c)
    (j.params.deadlockMode = 1 → exec (.cairnTimeout c) s = .next s) ∧
    (j.params.deadlockMode ≠ 1 → sget 0 s.syn.bad (cairnKey w.cairn (regionOf c)) = 0 →
      (copy < w.value → exec (.cairnTimeout c) s = .next (raiseCell { u with syn := { s.syn with timeout := true } } 0x3201 2 c
        (some ⟨c, v.vcell, 0x61, j.sheet, (s.cell c).seq.index - 1, j.id⟩)
        [c, w.cairn, w.cairn - j.params.cairnBase, w.value, copy])) ∧
      (w.value ≤ copy → ∃ t : State, exec (.cairnTimeout c) s = .next t ∧
        t.cell c = { s.cell c with seq := { (s.cell c).seq with wait := none, slept := (t.cell c).seq.slept } } ∧
        (∀ d, d ≠ c → t.cell d = s.cell d) ∧
        { t with cells := s.cells, regions := s.regions, mon := s.mon, err := s.err, clk := s.clk } = s))) ∧
  (∀ s : State, let u := s.untilCycle ((s.clk.cycles / 4096 + 1) * 4096)
    exec .deadlockSample s = .next (s.jobs.foldl (sampleJob u) u)) ∧
  (∀ s : State, waitBit s = true ↔ ∀ j ∈ s.jobs, j.params.group = true → j.phase = .running → stuckNow s j = true) ∧
  (∀ (at0 s : State) (j : Job),
    let now : Prop := stuckNow at0 j = true ∧ (j.params.group = true → ownBusy at0 = 15)
    (now → j.stuck = true → (j.params.deadlockMode = 1 ∨ j.params.deadlockMode = 2 ∧ timesOut at0 j = false) →
      ∃ u : State, u.syn.latched = true ∧ (s.syn.latched = true → u.syn = s.syn) ∧
        (s.syn.latched = false → u.syn.dlJob = j.id ∧ u.syn.dlWaiter.length ≤ 16) ∧
        ∃ det, sampleJob at0 s j = raiseChip u 0x3202 2 9 0 j.id det false true ∧ det.length = 6 ∧ det.headD 0 = j.id) ∧
    (now → j.stuck = false ∨ (j.params.deadlockMode ≠ 1 ∧ (j.params.deadlockMode ≠ 2 ∨ timesOut at0 j = true)) → sampleJob at0 s j = s.updJob j.id fun k => { k with stuck := true }) ∧
    (¬now → sampleJob at0 s j = s.updJob j.id fun k => { k with stuck := false }))

/-- PL.ISSUE, PLOT, and DESCRIPTOR_BEGIN of a waiting PLOT (R116, R135, R136, R440, R441, R443). -/
def Obligations.PlotSequencesAreQueued : Prop :=
  ∀ (c ring : Nat) (ph : List Phys) (s v : State) (x : Ctx) (d : Desc) (j : Job) (q : PlotSeq),
    let u := injectAll s ph
    let i := issued u x ph
    let n := bits x.i.opd 3 0
    let signal := if bit x.i.opd 4 then some (x.j.params.cairnBase + bits x.i.opd 16 5) else none
    let inside (k : Nat) : Bool := match x.j.image.segs[x.oa.seg]? with
      | some g => !g.code && decide (devOffset x.bias x.oa + k ≤ g.len)
      | none => false
    let z := scanWait u d
    let host := decodeSeq z (plotStack d.raw) j (.desc d.ring d.count) (plotAddr d.raw) (some (plotLen d.raw))
      (inWindow j (·.read) (plotAddr d.raw)) { job := j.id, src := srcDesc d.ring (d.count % ringSize (z.ring d.ring)) }
    (plotHeld s c = false → readyCtx 0x80 c ph s = some x →
      decodeSeq i n x.j (.cell x.c signal x.j.sheet x.who.index) (devAddr x x.oa) none inside x.acc = (.ok q, v) →
      exec (.plIssue c ph) s = .next (queueSeq v n x.j.interactive q)) ∧
    (plotHeld s c = true → exec (.plIssue c ph) s = .next u) ∧
    (unbegun u ring = some d → dType d.raw = 3 → d.phase = .fetched → u.err.fatal = true →
      exec (.plot ring ph) s = .next (complete u d 0x40 0)) ∧
    (unbegun u ring = some d → dType d.raw = 3 → d.phase = .fetched → u.err.fatal = false →
      (∀ st, plotStatus u d = some st → exec (.plot ring ph) s = .next (complete u d st 0)) ∧
      (plotStatus u d = none → plotMayBegin z d = false → exec (.plot ring ph) s = .next
        (updDesc z d fun y => { y with phase := .waiting, waitFrom := some z.clk.cycles })) ∧
      (plotStatus u d = none → plotMayBegin z d = true → z.job? (dJob d.raw) = some j → host = (.ok q, v) →
        exec (.plot ring ph) s = .next (updDesc (queueSeq v (plotStack d.raw) j.interactive q) d fun y => { y with phase := .begun }))) ∧
    (∀ src, unbegun u ring = some d → dType d.raw = 3 → d.phase = .waiting → plotMayBegin z d = true →
      z.job? (dJob d.raw) = some j → host = (.ok q, v) → exec (.descriptorBegin ring src ph) s = .next
        (updDesc (queueSeq v (plotStack d.raw) j.interactive q) d fun y => { y with phase := .begun })) ∧
    (∀ k inter, (queueSeq s k inter q).stack k = { s.stack k with
        serial := q.serial
        interQ := (s.stack k).interQ ++ if inter then [q] else []
        bulkQ := (s.stack k).bulkQ ++ if inter then [] else [q] } ∧
      (∀ m, m ≠ k → (queueSeq s k inter q).stack m = s.stack m) ∧ { queueSeq s k inter q with stk := s.stk } = s)

/-- PLOT_SEQUENCE_START, PLOT_STROKE_END and PLOT_SEQUENCE_COMPLETE (R426, R435, R443 to R447). -/
def Obligations.PlotSequencesRunStrokeByStroke : Prop :=
  ∀ (n : Nat) (s : State) (q : PlotSeq),
    let x := s.stack n
    let mine (y : PlotSeq) : Bool := y.serial == q.serial
    let moved (t : State) (f : PlotSeq → PlotSeq) : Prop :=
      (t.stack n).interQ = x.interQ.map (fun y => if mine y then f y else y) ∧
      (t.stack n).bulkQ = x.bulkQ.map (fun y => if mine y then f y else y)
    (∀ y ∈ x.bulkQ ++ x.interQ, y.cancel = false) → (s.stackPlan n).fenced = false →
    (engineHeld s n = false → (∀ f ∈ x.frames, frameLost f = false) →
      ([x.interQ.head?, x.bulkQ.head?].filterMap id).find? (fun y => !y.started) = some q →
      ∃ t : State, exec (.plotSequenceStart n) s = .next t ∧ moved t (fun y => { y with started := true }) ∧
        (classCtx (t.stack n) (x.interQ.any mine)).map (·.unit) = groupUnits q ∧
        (∀ f ∈ (t.stack n).frames, f.block ∉ resultBlocks q ++ seqBlocks s q true) ∧
        (∀ f ∈ (t.stack n).frames, f.block ∈ seqBlocks s q false → f.dirty = false) ∧
        (∀ m, m ≠ n → t.stack m = s.stack m) ∧ { t with stk := s.stk, out := s.out } = s) ∧
    (∀ inter, engineHeld s n = false → strokeTurn x = some (inter, q) →
      let u := (((groupUnits q).foldl (refreshFirst · n) s).countChip 0x307 1).updStack n
        fun y => { y with interRun := if inter then y.interRun + 1 else 0 }
      (busyUnits u n inter q ≠ [] → x.bad = [] → x.checks = [] → seqPlaced s q → (classCtx x inter).map (·.unit) = groupUnits q →
        (∀ y ∈ classCtx x inter, bufAgrees s n q y) → ∃ (t : State) (words : Nat), exec (.plotStrokeEnd n []) s = .next t ∧ words ≤ 384 ∧
          t.clk.ps = s.clk.ps + 24000 + 4096 * words ∧ moved t (fun y => { y with strokes := y.strokes + 1 }) ∧
          ((∀ k ∈ plotCmds q, k.op ≠ 6) → (∀ y ∈ classCtx x inter, y.writes = []) → (t.stack n).data = x.data) ∧
          (∀ y ∈ classCtx (t.stack n) inter, bufAgrees t n q y) ∧ (t.stack n).checks = [] ∧ (t.stack n).frames = x.frames ∧
          (classCtx (t.stack n) (!inter)) = classCtx x (!inter) ∧ (∀ m, m ≠ n → t.stack m = s.stack m) ∧
          { t with stk := s.stk, out := s.out, clk := s.clk, mon := s.mon } = s) ∧
      (busyUnits u n inter q = [] →
        let r := (classCtx x inter).foldl (finishUnit n q) ([], 0, false, u)
        ∃ t : State, exec (.plotStrokeEnd n []) s = .next t ∧ t.clk.ps = s.clk.ps + 24000 + 4096 * 128 ∧
          (t.stack n).data = (r.2.2.2.stack n).data ∧
          moved t (fun y => { y with group := y.group + 1, strokes := y.strokes + 1, uncorr := y.uncorr + r.2.1,
                                     failed := y.failed ++ r.1, checkFail := y.checkFail || r.2.2.1 }) ∧
          (classCtx (t.stack n) inter).map (·.unit) = groupUnits { q with group := q.group + 1 } ∧
          (∀ m, m ≠ n → t.stack m = s.stack m) ∧ { t with stk := s.stk, out := s.out, clk := s.clk, mon := s.mon } = s)) ∧
    (([x.interQ.head?, x.bulkQ.head?].filterMap id).find? (fun y => y.started && seqDone y) = some q → q.failed = [] →
      ∀ c sig sheet index, q.src = .cell c sig sheet index →
      (∀ k j, sig = some k → s.job? q.job = some j → j.phase = .running) →
      ∃ t u : State, exec (.plotSequenceComplete n) s = .next t ∧
        u = (match sig, s.job? q.job with | some k, some _ => addMaster s k 1 (srcCell c) | _, _ => s) ∧
        (t.stack n).interQ = (u.stack n).interQ.filter (fun y => !mine y) ∧
        (t.stack n).bulkQ = (u.stack n).bulkQ.filter (fun y => !mine y) ∧ (t.stack n).data = (u.stack n).data ∧
        (t.stack n).doneSeqs = (u.stack n).doneSeqs ++ [{ q with cancel := false }] ∧
        (∀ k, k ∉ plotUnitsOf q → sget 0 (t.stack n).unitStatus k = sget 0 (u.stack n).unitStatus k) ∧
        (∀ m, m ≠ n → t.stack m = u.stack m) ∧ { t with stk := u.stk, out := u.out, freeCtr := u.freeCtr } = u)

/-- PL.FENCE, PLOT_FENCE and FENCE of SCOPE 2 (R141, R442). -/
def Obligations.PlotFencesWaitForTheirSequences : Prop :=
  (∀ (c : Nat) (s : State) (x : Ctx), readyCtx 0x81 c [] s = some x →
    exec (.plFence c) s = .next ((issued s x []).updSeq c fun q =>
      { q with flight := q.flight ++ [.fence (bits x.i.opd 3 0) ((issued s x []).stack (bits x.i.opd 3 0)).serial] })) ∧
  (∀ (n job : Nat) (s : State) (j : Job), s.job? job = some j → (jobCells j).Nodup →
    ∃ t : State, exec (.plotFence n job) s = .next t ∧ ∀ c,
      let ready (f : Flight) : Bool := match f with
        | .fence k upto => k == n && plotClear s n job upto
        | _ => false
      (c ∈ jobCells j → (s.cell c).seq.job = job → ∀ before upto after,
        (s.cell c).seq.flight = before ++ .fence n upto :: after →
        ready (.fence n upto) = true → before.all (fun f => !ready f) = true → .fence n upto ∉ before →
        (t.cell c).seq.flight = before ++ after) ∧
      (c ∉ jobCells j ∨ (s.cell c).seq.job ≠ job ∨ (s.cell c).seq.flight.all (fun f => !ready f) = true → t.cell c = s.cell c)) ∧
  (∀ (ring : Nat) (ph : List Phys) (s : State), let u := injectAll s ph
    exec (.fencePlot ring ph) s = .next ((fencesOf u ring 2).foldl (runFence fencePlotStatus plotOver
      fun v d => plotInvalidate v (fenceStack d.raw) (dJob d.raw) (fenceSerial d)) u)) ∧
  (∀ (s : State) (d : Desc), let last := fun (v : State) (d : Desc) => plotInvalidate v (fenceStack d.raw) (dJob d.raw) (fenceSerial d)
    let run := runFence fencePlotStatus plotOver last
    let n := fenceStack d.raw
    let k := (s.stack n).serial
    (∀ st, fencePlotStatus s d = some st → run s d = complete s d st 0) ∧
    (fencePlotStatus s d = none → s.hif.descs.find? (fun y => y.ring == d.ring && y.count == d.count) = some d → dType d.raw = 5 →
      fenceScope d.raw = 2 → d.phase = .fetched → (dFlag d.raw 9 = false ∨ alone s d = true) →
      let b : Desc := { d with phase := .begun, waits := [(n, k)] }
      let v := updDesc s d fun y => { y with phase := .begun, waits := [(n, k)] }
      run s d = if plotClear s n (dJob d.raw) k then complete (plotInvalidate v n (dJob d.raw) k) b 0 0 else v) ∧
    (fencePlotStatus s d = none → s.hif.descs.find? (fun y => y.ring == d.ring && y.count == d.count) = some d → d.phase = .begun →
      let upto := (d.waits.headD (0, 0)).2
      run s d = if plotClear s n (dJob d.raw) upto then complete (plotInvalidate s n (dJob d.raw) upto) d 0 0 else s))

/-- A completion record (R143, R146, R148). -/
def Obligations.CompletionRecordsAreWritten : Prop :=
  ∀ (s : State) (d : Desc) (status detail : Nat),
    let r := s.ring d.ring
    let t := complete s d status detail
    (r.cqFailed = true → t = dropDesc s d) ∧
    (r.cqFailed = false → s.hif.linkUp = true → s.hif.txRefused = false → status < 2 ^ 16 → d.raw.length = 64 →
      (∀ y ∈ t.hif.descs, ¬(y.ring = d.ring ∧ y.count = d.count)) ∧
      (∃ (b : Bytes) (rest : List Out), t.out = s.out ++ .hostWrite (r.cqBase + r.cqPi % ringSize r * 32) b :: rest ∧ rest.length ≤ 1 ∧
        b.length = 32 ∧ num b 0 8 = num d.raw 8 8 ∧ num b 8 8 = detail % 2 ^ 64 ∧ num b 0x10 8 = s.sht.tick % 2 ^ 64 ∧
        num b 0x18 2 = d.count % ringSize r % 2 ^ 16 ∧ num b 0x1A 2 = status ∧ num b 0x1C 2 = num d.raw 4 2 ∧
        num b 0x1E 1 = num d.raw 0 1 ∧ num b 0x1F 1 = if r.cqPi / ringSize r % 2 = 0 then 128 else 0) ∧
      t.ring d.ring = { r with cqPi := (r.cqPi + 1) % 2 ^ 32 } ∧ (∀ n, n ≠ d.ring → t.ring n = s.ring n) ∧
      (dFlag d.raw 8 = false → (sget ({} : Mod) s.hif.mods r.vector).pending + 1 < (sget ({} : Mod) s.hif.mods r.vector).count →
        (sget ({} : Mod) t.hif.mods r.vector).pending = (sget ({} : Mod) s.hif.mods r.vector).pending + 1 ∧ t.hif.msix = s.hif.msix) ∧
      { t with out := s.out, hif := s.hif } = s) ∧
    (r.cqFailed = false → s.hif.linkUp = false ∨ s.hif.txRefused = true → ∃ u : State,
      t = hostFail u 3 d.ring (d.count % ringSize r) (r.cqBase + r.cqPi % ringSize r * 32) ∧
      u.ring d.ring = { r with state := 2, cqFailed := true } ∧ (∀ n, n ≠ d.ring → u.ring n = s.ring n) ∧ u.hif.txRefused = false ∧
      (∀ y ∈ u.hif.descs, ¬(y.ring = d.ring ∧ y.count = d.count)) ∧ { u with hif := s.hif } = s)

/-- DOORBELL and DESCRIPTOR_FETCH (R105, R107, R110 to R113, R115). -/
def Obligations.DoorbellsAndFetch : Prop :=
  (∀ (page off : Nat) (b : Bytes) (s : State), page < 64 →
    exec (.doorbell page off ⟨false, b⟩) s = .next (s.emit (.doorbellValue page off
      (if off = 0 then (s.ring page).sqCi + (s.ring page).cqPi * 2 ^ 32 else 0))) ∧
    (b.length < 8 → exec (.doorbell page off ⟨true, b⟩) s = .next { s with hif := { s.hif with dbPartial := true } }) ∧
    (8 ≤ b.length → off ≠ 0 ∨ b.length ≠ 8 ∨ (s.ring page).enable = false ∨ (s.ring page).state ≠ 1 →
      exec (.doorbell page off ⟨true, b⟩) s = .next s)) ∧
  (∀ (page : Nat) (b : Bytes) (s : State), let r := s.ring page
    let valid : Prop := (num b 0 4 + 2 ^ 32 - r.sqPi) % 2 ^ 32 ≤ 2 ^ 31 ∧ (num b 4 4 + 2 ^ 32 - r.cqCi) % 2 ^ 32 ≤ 2 ^ 31 ∧
      (num b 0 4 + 2 ^ 32 - r.sqCi) % 2 ^ 32 ≤ 2 ^ r.sizeLog2 ∧
      (num b 4 4 + 2 ^ 32 - r.cqCi) % 2 ^ 32 ≤ (r.cqPi + 2 ^ 32 - r.cqCi) % 2 ^ 32
    page < 64 → b.length = 8 → r.enable = true → r.state = 1 → r.sqPi < 2 ^ 32 → r.sqCi < 2 ^ 32 → r.cqPi < 2 ^ 32 → r.cqCi < 2 ^ 32 →
    (valid → ∃ t : State, exec (.doorbell page 0 ⟨true, b⟩) s = .next t ∧ t.ring page = { r with sqPi := num b 0 4, cqCi := num b 4 4 } ∧
      (∀ n, n ≠ page → t.ring n = s.ring n) ∧ { t with hif := { t.hif with rings := s.hif.rings } } = s) ∧
    (¬valid → ∃ u : State, exec (.doorbell page 0 ⟨true, b⟩) s = .next
        (raiseChip u 0x7201 1 5 0 0 [page, num b 0 4, num b 4 4, r.sqCi, r.cqPi]) ∧
      u.hif.dbInvalid = true ∧ u.ring page = { r with state := 2 } ∧ (∀ n, n ≠ page → u.ring n = s.ring n) ∧
      { u with hif := { u.hif with rings := s.hif.rings, dbInvalid := s.hif.dbInvalid } } = s)) ∧
  (∀ (s : State) (n : Nat) (b : Bytes), fetchRing s = some n → b.length = 64 → dType b ≤ 5 →
    (dType b = 5 → fenceScope b ≠ 3) →
    let d : Desc := { ring := n, count := (s.ring n).sqCi, raw := b }
    (∀ y ∈ s.hif.descs, ¬(y.ring = d.ring ∧ y.count = d.count)) →
    ∃ t : State, exec (.descriptorFetch (some b)) s = .next t ∧
      t.hif.descs = s.hif.descs ++ [
        if (dType b = 0 ∨ dType b = 5) ∧ (dFlag b 9 = false ∨ alone s d = true)
        then { d with phase := .begun, waits := if dType b = 5 then fenceWaits s d else [] } else d] ∧
      t.ring n = { s.ring n with sqCi := ((s.ring n).sqCi + 1) % 2 ^ 32 } ∧ (∀ m, m ≠ n → t.ring m = s.ring m) ∧
      { t with hif := s.hif } = s) ∧
  (∀ (s : State) (n : Nat), fetchRing s = some n → n < 64 ∧ (s.ring n).sqCi ≠ (s.ring n).sqPi ∧
    ((s.ring n).sqCi + 2 ^ 32 - (s.ring n).cqCi) % 2 ^ 32 < 2 ^ (s.ring n).sizeLog2 ∧
    ((s.ring n).interactive = false → ∀ m, m < 64 → (s.ring m).interactive = true → canFetch s m = false))

/-- COPY, TABLE, DESCRIPTOR_BEGIN, NOP, FENCE of SCOPE 0 and 1, WAIT_TIMEOUT (R116 to R119, R131, R138, R141, R142): a COPY begins as an
engine takes its first piece; a NOP or FENCE has begun at its fetch, or begins once ORDERED lets it. -/
def Obligations.DescriptorsBeginOrWaitInRingOrder : Prop :=
  (∀ (ring : Nat) (ph : List Phys) (src : HostData) (s : State) (d : Desc),
    let u := injectAll s ph
    let z := scanWait u d
    let held (from_ : Nat) : State := updDesc z d fun y => { y with phase := .waiting, waitFrom := some from_ }
    (unbegun u ring = some d → dType d.raw = 2 ∨ dType d.raw = 4 → d.phase = .fetched → u.err.fatal = true →
      (dType d.raw = 2 → exec (.copy ring ph) s = .next (complete u d 0x40 0)) ∧
      (dType d.raw = 4 → exec (.table ring src ph) s = .next (complete u d 0x40 0))) ∧
    (unbegun u ring = some d → dType d.raw = 2 → d.phase = .fetched → u.err.fatal = false →
      (∀ st, copyStatus u d = some st → exec (.copy ring ph) s = .next (complete u d st 0)) ∧
      (copyStatus u d = none → exec (.copy ring ph) s = .next (dispatch (held u.clk.cycles)))) ∧
    (unbegun u ring = some d → dType d.raw = 4 → d.phase = .fetched → u.err.fatal = false →
      (∀ st, tableStatus u d = some st → exec (.table ring src ph) s = .next (complete u d st 0)) ∧
      (tableStatus u d = none → exec (.table ring src ph) s = .next (if mayBegin z d then beginTable z d src else held z.clk.cycles))) ∧
    (unbegun u ring = some d → d.phase = .waiting → mayBegin z d = true →
      (dType d.raw = 2 → exec (.descriptorBegin ring src ph) s = .next (dispatch z)) ∧
      (dType d.raw = 4 → exec (.descriptorBegin ring src ph) s = .next (beginTable z d src))) ∧
    (firstOf u ring 0 (fun _ => true) = some d → headerOk d.raw = true → dFlag d.raw 10 = false → dFlag d.raw 11 = false →
      (∀ b ∈ d.raw.drop 0x20, b = 0) → (dJob d.raw = 0 ∨ jobStatus u d true = none) →
      (d.phase = .begun → exec (.nop ring ph) s = .next (complete u d 0 0)) ∧
      (d.phase ≠ .begun → dFlag d.raw 9 = true → alone u d = false → exec (.nop ring ph) s = .next u) ∧
      (d.phase ≠ .begun → dFlag d.raw 9 = false ∨ alone u d = true → exec (.nop ring ph) s = .next (complete (beginNow u d) d 0 0))) ∧
    exec (.fenceRing ring ph) s = .next ((fencesOf u ring 0).foldl (runFence fenceStatus ringOver fun v _ => v) u) ∧
    exec (.fenceJob ring ph) s = .next ((fencesOf u ring 1).foldl (runFence fenceStatus jobOver fun v _ => v) u) ∧
    (∀ j t, unbegun s ring = some d → d.phase = .waiting → dFlag d.raw 10 = true → d.waitFrom = some t →
      s.job? (dJob d.raw) = some j → parked s j.id = false → sget 0 s.syn.bad (cairnKey (dWaitCairn d.raw) 32) = 0 →
      let v := s.untilCycle (t + ((if j.params.waitTimeout = 0 then 1048576 else j.params.waitTimeout) - d.waited))
      (cairnVal s (dWaitCairn d.raw) 32 < dWaitValue d.raw → exec (.waitTimeout ring) s = .next (complete v d 0x15 0)) ∧
      (dWaitValue d.raw ≤ cairnVal s (dWaitCairn d.raw) 32 → exec (.waitTimeout ring) s = .next v))) ∧
  (∀ (s : State) (d : Desc) (isOver : State → Desc → Bool), let run := runFence fenceStatus isOver fun v _ => v
    (∀ st, fenceStatus s d = some st → run s d = complete s d st 0) ∧
    (fenceStatus s d = none → s.hif.descs.find? (fun y => y.ring == d.ring && y.count == d.count) = some d →
      (d.phase = .begun → run s d = if isOver s d then complete s d 0 0 else s) ∧
      (dType d.raw = 5 → d.phase = .fetched → dFlag d.raw 9 = false ∨ alone s d = true →
        let b : Desc := { d with phase := .begun, waits := fenceWaits s d }
        let v := updDesc s d fun y => { y with phase := .begun, waits := fenceWaits s d }
        run s d = if isOver v b then complete v b 0 0 else v) ∧
      (d.phase = .fetched → dFlag d.raw 9 = true → alone s d = false → run s d = s))) ∧
  (∀ (s : State) (d : Desc),
    (ringOver s d = true ↔ ∀ y ∈ s.hif.descs, earlier d y = true → dType y.raw = 1) ∧
    (jobOver s d = true ↔ ∀ y ∈ s.hif.descs, (y.ring, y.count) ∉ d.waits)) ∧
  (∀ (s : State) (e : Nat) (d : Desc), sget none s.hif.engines e = none → s.inReset 3 e = false → unitHeld s 3 e = false →
    s.hif.descs.find? (fun y => copyReady s y && interDesc s y) = some d →
    let n := min 65536 (copyLen d.raw - d.nextOff)
    dispatchOne s e = { updDesc s d fun y => { y with phase := .begun, nextOff := y.nextOff + n, open_ := y.open_ + 1 } with
      hif := { (updDesc s d fun y => { y with phase := .begun, nextOff := y.nextOff + n, open_ := y.open_ + 1 }).hif with
        engines := sset none s.hif.engines e (some ⟨d.ring, d.count, d.nextOff, n⟩) } })

/-- COPY_PIECE_DONE (R100, R131, R133, R134). -/
def Obligations.CopiesMoveTheirPieces : Prop :=
  (∀ (e : Nat) (src : HostData) (ph : List Phys) (s : State),
    let u := injectAll s ph
    (sget none u.hif.engines e = none → exec (.copyPieceDone e src ph) s = .next u) ∧
    ∀ (p : Piece) (d : Desc) (b : Bytes) (v w : State), sget none u.hif.engines e = some p →
      u.hif.descs.find? (fun d => d.ring == p.ring && d.count == p.count) = some d →
      let i := { u with hif := { u.hif with engines := sset none u.hif.engines e none } }
      let acc : Accessor := { job := dJob d.raw, src := srcDesc d.ring (d.count % ringSize (u.ring d.ring)), desc := some (d.ring, d.count) }
      let after (fail : Nat) (z : State) : State :=
        let z := updDesc (if fail = 0 then z.countChip 0x308 p.len else z) d fun y => { y with
          open_ := y.open_ - 1, fail := if y.fail = 0 then fail else y.fail }
        dispatch (match z.hif.descs.find? (fun d => d.ring == p.ring && d.count == p.count) with
          | some d => finishCopy z d
          | none => z)
      (copyDir d.raw = 0 → copyZero d.raw = false → src = some b →
        writeMem i (copyDst d.raw + p.off) (slice b 0 p.len) acc = (.ok (), w) → exec (.copyPieceDone e src ph) s = .next (after 0 w)) ∧
      (copyDir d.raw = 0 → copyZero d.raw = false → src = none →
        exec (.copyPieceDone e src ph) s = .next (after 0x32 { i with hif := { i.hif with hostErr := true } })) ∧
      (copyZero d.raw = true → copyDir d.raw ≠ 1 →
        writeMem i (copyDst d.raw + p.off) (List.replicate p.len 0) acc = (.ok (), w) →
        exec (.copyPieceDone e src ph) s = .next (after 0 w)) ∧
      (copyDir d.raw = 1 → copyZero d.raw = false → readMem i (copySrc d.raw + p.off) p.len acc = (.ok b, v) →
        v.hif.linkUp = true → v.hif.txRefused = false →
        exec (.copyPieceDone e src ph) s =
          .next (after 0 { v with out := v.out ++ dataTlps (b.length / 512 + 2) (copyDst d.raw + p.off) b })) ∧
      (copyDir d.raw = 2 → copyZero d.raw = false → readMem i (copySrc d.raw + p.off) p.len acc = (.ok b, v) →
        writeMem v (copyDst d.raw + p.off) b acc = (.ok (), w) → exec (.copyPieceDone e src ph) s = .next (after 0 w)) ∧
      (∀ f, f ≠ 0 → copyDir d.raw ≠ 0 → copyZero d.raw = false → readMem i (copySrc d.raw + p.off) p.len acc = (.error f, v) →
        exec (.copyPieceDone e src ph) s = .next (after f v))) ∧
  (∀ (a : Nat) (b : Bytes), let ts := dataTlps (b.length / 512 + 2) a b
    (∀ t ∈ ts, ∃ x d, t = .hostWrite x d true ∧ 0 < d.length ∧ x % 512 + d.length ≤ 512) ∧
    (ts.flatMap fun t => match t with | .hostWrite _ d _ => d | _ => []) = b)

/-- RING_RESET, RING_RESET_DONE, HIF_JOB_ABORT, MSIX_MOD_TIMEOUT and the PCIe events (R100, R102, R148, R152, R156, R726). -/
def Obligations.RingsAbortsAndInterrupts : Prop :=
  (∀ (n : Nat) (s : State), datumReach s 4 = true → n < 64 → (s.ring n).state ≠ 3 →
    ((s.ring n).cqFailed = true ∨ s.hif.linkUp = true ∧ s.hif.txRefused = false) →
    ∃ t : State, exec (.ringReset n) s = .next t ∧ (t.ring n).state = 3 ∧
      ∀ d ∈ t.hif.descs, d.ring = n → dType d.raw ≠ 1 → d.phase ≠ .fetched ∧ d.phase ≠ .waiting) ∧
  (∀ (n : Nat) (s : State), (s.ring n).state = 3 → (∀ d ∈ s.hif.descs, d.ring ≠ n) →
    ∃ t : State, exec (.ringResetDone n) s = .next t ∧
      t.ring n = { s.ring n with
        state := 0, enable := false, sqCi := 0, cqPi := 0, sqPi := 0, cqCi := 0, cqFailed := false } ∧
      (∀ m, m ≠ n → t.ring m = s.ring m) ∧ { t with hif := { t.hif with rings := s.hif.rings } } = s) ∧
  (∀ (v : Nat) (s : State) (j : Job), datumReach s 4 = true → bit v 31 = true → s.job? (v % 65536) = some j → j.ending = none →
    ∃ (t : State) (k : Job), exec (.hifJobAbort v) s = .next t ∧ t.job? (v % 65536) = some k ∧ k.ending = some ⟨0x43, 0⟩ ∧
      { k with ending := none } = j ∧ (∀ m, m ≠ v % 65536 → t.job? m = s.job? m) ∧
      { t with jobs := s.jobs, cells := s.cells, reds := s.reds, grp := s.grp, sht := s.sht } = s) ∧
  (∀ (v : Nat) (s : State), let m := sget ({} : Mod) s.hif.mods v
    m.time ≠ 0 → m.pending ≠ 0 → s.hif.linkUp = true →
    ∃ t : State, exec (.msixModTimeout v) s = .next t ∧ (sget ({} : Mod) t.hif.mods v).pending = 0 ∧
      t.clk.ps = max s.clk.ps (m.oldest + m.time * 1000000) ∧
      (if (sget ({} : Msix) s.hif.msix v).masked then (sget ({} : Msix) t.hif.msix v).pend = true ∧ t.out = s.out
       else t.hif.msix = s.hif.msix ∧ t.out = s.out ++ [.msix v])) ∧
  (∀ (w : Bool) (a n : Nat) (h : List Nat) (s : State), (w = true ∧ 8 < n ∨ w = false ∧ 64 < n ∨ 4096 < a % 4096 + n) →
    exec (.unsupportedRequest w a ⟨n, h⟩) s = .next (s.emit (.aer 0x14 h))) ∧
  (∀ (w rate : Nat) (ecrc : Bool) (s : State),
    let up (low : Bool) : State := { s with hif := { s.hif with linkUp := true, width := w, rate := rate, degraded := low, ecrc } }
    (16 ≤ w → 64 ≤ rate → exec (.pcieLinkUp w ⟨rate, ecrc⟩) s = .next (up false)) ∧
    (w < 16 ∨ rate < 64 → exec (.pcieLinkUp w ⟨rate, ecrc⟩) s = .next (raiseChip (up true) 0x7103 0 5 0 0 [w, rate]))) ∧
  (∀ (a b c d : Nat) (s : State),
    (s.hif.ecrc = true → exec (.ecrcMismatch a b c d) s = .next
      (raiseChip (s.emit (.aer 0x13 [a, b, c, d])) 0x7102 1 5 0 0 [a, b, c, d])) ∧
    (s.hif.ecrc = false → exec (.ecrcMismatch a b c d) s = .next s))

/-- JOB_START, JOB_PREPARE_DONE, STREAM_SEGMENT_FETCH, CONTEXT_CLEAR_DONE and CLEAR_TIMEOUT (R87, R89, R127, R165, R210). -/
def Obligations.JobsStartAndPrepare : Prop :=
  (∀ (ring : Nat) (param image : Bytes) (ph : List Phys) (s : State) (d : Desc), let u := injectAll s ph
    unbegun u ring = some d → dType d.raw = 1 → d.phase = .fetched → (dFlag d.raw 9 = false ∨ alone u d = true) →
    let start := exec (.jobStart ring (some param) (some image) ph) s
    (u.err.fatal = true → start = .next (complete u d 0x42 0)) ∧
    (u.err.fatal = false → ∀ st, startFields u d = some st → start = .next (complete u d st 0)) ∧
    (u.err.fatal = false → startFields u d = none →
      (∀ st, startChecks u d (slice param 0 256) image = .error st → start = .next (complete u d st 0)) ∧
      (∀ j, startChecks u d (slice param 0 256) image = .ok j → ∃ t : State, start = .next t ∧ t.jobs = u.jobs ++ [j] ∧
        (if j.phase = .claiming then t.cells = u.cells ∧ t.clearing = u.clearing
         else t.clearing = u.clearing ++
             [⟨j.id, jobCells j, j.params.cairnBase, j.params.cairnCount, u.clk.cycles, false, u.thm.stopped, false⟩] ∧
           (∀ k v, (jobCells j).Nodup → j.image.cells[k]? = some v → t.cell v.pcell = { u.cell v.pcell with seq :=
             { job := j.id, vindex := k, gran := u.goodGranules v.pcell, banks := u.goodBanks v.pcell } }) ∧
           ∀ c, c ∉ jobCells j → t.cell c = u.cell c) ∧
        t.tables = u.tables.filter (fun y => y.job != j.id) ∧
        { t with jobs := u.jobs, cells := u.cells, clearing := u.clearing, hif := u.hif, tables := u.tables } = u))) ∧
  (∀ (job : Nat) (ph : List Phys) (s v : State) (j : Job), let u := injectAll s ph
    u.job? job = some j → j.phase = .preparing → j.ending = none → copyInitial u j = (.ok (), v) →
    exec (.jobPrepareDone job ph) s = .next ((fetchFirst (seedCells v j) j).updJob job fun x => { x with phase := .ready })) ∧
  (∀ (c : Nat) (ph : List Phys) (s w : State) (j : Job) (v : VCell) (e : StreamEnt) (b : Nat) (ws : List Nat),
    let u := injectAll s ph
    let q := (u.cell c).seq
    let now := q.fetched = false ∧ j.phase = .running
    u.job? q.job = some j → j.ending = none → q.next = none → j.image.cells[q.vindex]? = some v →
    segmentOf j.image v (if now then j.sheet else j.sheet + 1) = some (e, b) → fetchSegment u j c e = (some ws, w) →
    ∃ t : State, exec (.streamSegmentFetch c ph) s = .next t ∧
      t.cell c = { w.cell c with seq := if now then { (w.cell c).seq with stream := ws, live := e.live, fetched := true }
        else { (w.cell c).seq with next := some (ws, e.live) } } ∧
      (∀ d, d ≠ c → t.cell d = w.cell d) ∧ { t with cells := w.cells, mon := w.mon } = w) ∧
  (∀ (job : Nat) (s : State) (k : Clear), s.clearing.find? (fun k => k.job == job && !k.cleared) = some k →
    clearPutOff s k = false → (k.noLimit = true ∨ s.clk.cycles ≤ k.since + 8192) → let k' := { k with cleared := true }
    ∃ t : State, exec (.contextClearDone job) s = .next t ∧
      t.clearing = ((s.clearing.map fun x => if x = k then k' else x).filter fun x => stashWaits s k || decide (x ≠ k')) ∧
      (∀ c ∈ k.cells, (t.block (blockIndex c)).preds = 0 ∧ (t.block (blockIndex c)).extents = [] ∧
        (∀ e, bit (s.cellPlan c).banksGone (e / 4096) = false → sget (0 : Word) (t.cell c).mm.acc e = 0) ∧
        (∀ e, bit (s.cellPlan c).banksGone (e / 4096) = true →
          sget (0 : Word) (t.cell c).mm.acc e = sget (0 : Word) (s.cell c).mm.acc e) ∧
        if stashWaits s k then (t.cell c).stash = (s.cell c).stash else (t.cell c).stash.written = []) ∧
      (∀ n copy, k.cairnBase ≤ n → n < k.cairnBase + k.cairnCount → n < 4096 → copy ≤ 32 → cairnVal t n copy = 0) ∧
      (∀ n copy, n < 4096 → n < k.cairnBase ∨ k.cairnBase + k.cairnCount ≤ n → cairnVal t n copy = cairnVal s n copy) ∧
      (∀ c, c ∉ k.cells → t.cell c = s.cell c) ∧
      { t with cells := s.cells, blocks := s.blocks, syn := s.syn, clearing := s.clearing } = s) ∧
  (∀ (job : Nat) (s : State) (k : Clear), s.clearing.find? (fun k => k.job == job && !k.cleared && !k.noLimit) = some k →
    exec (.clearTimeout job) s = .next (raiseChip (s.untilCycle (k.since + 8193)) 0x3104 3 0x0A 0 job []))

/-- PREEMPT_SAVE_DONE and RESTORE_DONE (R87, R88, R90, R126, R387, R500): a save that goes through leaves the job pre-empted and clears
the written bits that waited for it, one that fails ends the job; a restore that goes through leaves the job restored. -/
def Obligations.PreEmptedJobsSaveAndRestore : Prop :=
  (∀ (job : Nat) (ph : List Phys) (s w v : State) (j : Job), let u := injectAll s ph
    u.job? job = some j → j.phase = .saving →
    (copyPlumbs u j ph = (false, w) → exec (.preemptSaveDone job ph) s = .next w) ∧
    (copyPlumbs u j ph = (true, w) → saveJob w j = (true, v) →
      ∃ t : State, exec (.preemptSaveDone job ph) s = .next t ∧
        t.jobs = v.jobs.map (fun k => if k.id = job then { k with phase := .preempted } else k) ∧
        (∀ y ∈ t.clearing, y.job = job → y.save = false) ∧
        (∀ y ∈ v.clearing, y.job = job → y.cleared = true → (∀ x ∈ v.clearing, x.job ≠ job → x.save = false) →
          ∀ c ∈ y.cells, (t.cell c).stash.written = []) ∧
        (∀ c, { t.cell c with stash := (v.cell c).stash } = v.cell c) ∧
        (∀ c, (∀ y ∈ v.clearing, c ∉ y.cells) → t.cell c = v.cell c) ∧
        { t with clearing := v.clearing, jobs := v.jobs, cells := v.cells } = v) ∧
    (copyPlumbs u j ph = (true, w) → saveJob w j = (false, v) →
      ∃ t : State, exec (.preemptSaveDone job ph) s = .next t ∧
        t.job? job = (v.job? job).map (fun k => { k with phase := .preempted, ending := some (k.ending.getD ⟨0x42, 0⟩) }) ∧
        (∀ k, k ≠ job → t.job? k = v.job? k) ∧ (∀ y ∈ t.clearing, y.job = job → y.save = false))) ∧
  (∀ (job : Nat) (ph : List Phys) (s w v : State) (j : Job), let u := injectAll s ph
    let given := (j.image.cells.zipIdx).foldl (fun z e =>
      let k := (j.kept.find? fun k => k.cell == e.1.pcell).getD ⟨e.1.pcell, [], []⟩
      z.updSeq e.1.pcell fun _ => { job, vindex := e.2, gran := k.gran, banks := k.banks }) w
    u.job? job = some j → j.phase = .restoring →
    (copyPlumbs u j ph = (false, w) → exec (.restoreDone job ph) s = .next w) ∧
    (copyPlumbs u j ph = (true, w) → restoreJob given j = (true, v) →
      exec (.restoreDone job ph) s = .next (releaseDeferred (v.updJob job fun x => { x with phase := .restored }) j) ∧
      (j.id = job → j.deferred = [] → (∀ d ∈ v.hif.descs, dJob d.raw = job → d.phase = .begun) →
        (∀ e ∈ v.syn.inFlight, e.1 < j.params.cairnBase ∨ j.params.cairnBase + j.params.cairnCount ≤ e.1) →
        exec (.restoreDone job ph) s = .next (v.updJob job fun x => { x with phase := .restored, deferred := [] }))) ∧
    (copyPlumbs u j ph = (true, w) → restoreJob given j = (false, v) → exec (.restoreDone job ph) s = .next (endJob v job 0x42))) ∧
  (∀ (s : State) (j : Job) (b : Bytes), j.params.cairnBase + j.params.cairnCount ≤ 4096 →
    let t := restoreHead s j b
    (∀ k copy, k < j.params.cairnCount → copy ≤ 32 → cairnVal t (j.params.cairnBase + k) copy = num b (4096 + 4 * k) 4) ∧
    (∀ k copy, k < 4096 → (k < j.params.cairnBase ∨ j.params.cairnBase + j.params.cairnCount ≤ k) →
      cairnVal t k copy = cairnVal s k copy) ∧
    (∀ c, c ∉ jobCells j → t.cell c = s.cell c) ∧
    { t with syn := s.syn, blocks := s.blocks, cells := s.cells } = s)

/-- The rows of received flits (R516, R518 to R524, R526, R527, R529, R540, R545). -/
def Obligations.FlitsAreAcceptedAndReplayed : Prop :=
  (∀ (p sync : Nat) (body : Bytes) (ph : List Phys) (s : State), (s.port p).up = true →
    let heard (v : State) : State := takeEvent (acceptFlit (takeState v p sync) p) p sync
    let u := heard s
    let z := heard (injectAll s ph)
    exec (.idleFlit p sync) s = .next (takeState s p sync) ∧
    exec (.controlNop p sync) s = .next (agree u) ∧
    exec (.eq p sync body) s = .next (agree (u.updPort p fun x => { x with
      taps := supd 0 x.taps (num body 4 1 * 4 + num body 5 1 % 4) fun v =>
        if num body 6 1 = 1 then v + 1 else if num body 6 1 = 255 then v - 1 else v })) ∧
    exec (.twinCheck p sync body) s = .next (agree (twinCompare (u.updJob (num body 4 2) fun j =>
      if j.params.twin then { j with twinTheirs := (j.twinTheirs.filter fun e => e.1 != num body 7 1 % 4) ++
        [(num body 7 1 % 4, num body 8 8)] } else j) (num body 4 2))) ∧
    (let opened : RingIn := {
         role := (u.port p).role, ports := rolePorts u (u.port p).role, job := num body 0 2, op := num body 2 1,
         number := num body 4 2, dstOff := num body 8 8 % 2 ^ 40, dstSeg := num body 8 8 / 2 ^ 40 % 256, len := num body 16 8,
         signal := if bit (num body 24 2) 15 then some (num body 24 2 % 4096, num body 28 4) else none };
      exec (.headFlit p sync body) s = .next (agree ((rolePorts u (u.port p).role).foldl ringPump
        { u with grp := { u.grp with ringsIn := u.grp.ringsIn ++ [opened] } }))) ∧
    (portUp (injectAll s ph) p = true → exec (.dataFlit p sync body ph) s = .next
      (agree (ringPump (z.updPort p fun x => { x with blockBuf := x.blockBuf ++ slice body 0 240 }) p))) ∧
    (let mine (y : RingOut) : Bool := y.number == num body 6 2 && y.dir == (u.port p).role - 1;
      (u.grp.rings.find? mine = none → exec (.ringDone p sync body) s = .next (agree u)) ∧
      ∀ r, u.grp.rings.find? mine = some r →
        let v : State := { u with grp := { u.grp with rings := u.grp.rings.filter fun y => !mine y } }
        let w := v.updSeq r.cell fun q => { q with flight := q.flight.filter fun f => decide (f ≠ .ring (num body 6 2)) }
        exec (.ringDone p sync body) s =
          .next (agree (settle (if num body 8 1 = 0 then w else setAbort w (2 ^ (r.job % 4))) r.cell))) ∧
    (∀ seq credits, exec (.ack p ⟨sync, seq⟩ credits) s = .next (agree (pump (u.updPort p fun x =>
      { x with credits := x.credits + credits, replays := 0, replaySeq := seq }) p))) ∧
    (∀ seq, exec (.nak p ⟨sync, seq⟩) s = .next (agree (replayFrom u p seq))) ∧
    (∀ seq raw crc words,
      let y := s.updPort p fun x => { x with fecUncorr := sat16 x.fecUncorr words }
      let w := if crc = flitCrc seq sync raw then takeState y p sync else y
      (crc = flitCrc seq sync raw → seq = (s.port p).rxSeq → exec (.flitDiscard ⟨p, seq, sync, raw, crc, words⟩) s = .next y) ∧
      (crc ≠ flitCrc seq sync raw ∨ seq ≠ (s.port p).rxSeq → (w.port p).nakked = true →
        crc = flitCrc seq sync raw ∨ seq ≠ (w.port p).rxSeq → exec (.flitDiscard ⟨p, seq, sync, raw, crc, words⟩) s = .next w) ∧
      (crc ≠ flitCrc seq sync raw ∨ seq ≠ (s.port p).rxSeq → (w.port p).up = true →
        (w.port p).nakked = false ∨ crc ≠ flitCrc seq sync raw ∧ seq = (w.port p).rxSeq →
        exec (.flitDiscard ⟨p, seq, sync, raw, crc, words⟩) s =
          .next (sendControl (w.updPort p fun x => { x with nakked := true }) p 2 0 (leBytes 2 (w.port p).rxSeq))))) ∧
  (∀ (p sync : Nat) (s : State), let x := s.port p
    (bits sync 26 25 = 0 → takeEvent s p sync = s) ∧
    (let v := s.updPort p fun x => { x with rxSeq := (x.rxSeq + 1) % 4096, nakked := false, rxSinceAck := x.rxSinceAck + 1 };
      acceptFlit s p = if x.rxSinceAck < 63 then v else sendAck v p) ∧
    (neighbourOf s.grp.topology s.grp.ringSize s.sht.member x.role = none → takeState s p sync = s) ∧
    (∀ m, neighbourOf s.grp.topology s.grp.ringSize s.sht.member x.role = some m → x.up = true →
      let g := { s.grp with nbr := sset none s.grp.nbr m (some sync) }
      (s.sht.groupActive = false → takeState s p sync = { s with grp := g }) ∧
      (s.sht.groupActive = true → bits sync 5 2 < 10 ∨ bits sync 5 2 = 14 ∨ bits sync 5 2 = 15 → sync % 4 = s.sht.tick % 4 →
        let h := { g with noYield := g.noYield ||| bits sync 9 6, pace := min g.pace (bits sync 19 14) }
        let h := { h with abort := g.abort ||| bits sync 13 10 }
        takeState s p sync = agree (peerAborts { s with grp := h } (bits sync 13 10))) ∧
      (s.sht.groupActive = true → 10 ≤ bits sync 5 2 → bits sync 5 2 < 14 → takeState s p sync = agree { s with grp := g }) ∧
      (s.sht.groupActive = true → bits sync 5 2 < 10 ∨ 14 ≤ bits sync 5 2 → sync % 4 = (s.sht.tick + 1) % 4 →
        takeState s p sync = agree { s with grp := { g with
          heldNoYield := g.heldNoYield ||| bits sync 9 6, heldAbort := g.heldAbort ||| bits sync 13 10
          heldPace := min g.heldPace (bits sync 19 14) } }))) ∧
  (∀ (p ftype event body : Nat) (s : State), let x := s.port p
    let t := sendFlit s p ftype event body
    let sync := syncField s ftype event
    t.out = s.out ++ [.link p ftype [x.txSeq, sync, body, flitCrc x.txSeq sync body]] ∧
    t.port p = { x with txSeq := (x.txSeq + 1) % 4096,
                        replay := (x.replay ++ [(x.txSeq, [ftype, event, body])]).drop (x.replay.length - 255), lastSync := syncField s 0 0 } ∧
    (∀ k, k ≠ p → t.port k = s.port k) ∧ { t with ports := s.ports, out := s.out, mon := s.mon } = s) ∧
  (∀ (p seq : Nat) (v : State),
    let again := (v.port p).replay.dropWhile (fun e => e.1 != seq)
    let tried := if (v.port p).replaySeq = seq then (v.port p).replays else 0
    let sent (e : Nat × List Nat) : Out :=
      let sync := syncField v (e.2.getD 0 0) (e.2.getD 1 0)
      .link p (e.2.getD 0 0) [e.1, sync, e.2.getD 2 0, flitCrc e.1 sync (e.2.getD 2 0)]
    let w : State := { v.updPort p fun x => { x with lastSync := syncField v 0 0 } with out := v.out ++ again.map sent }
    (again = [] → replayFrom v p seq = v) ∧
    (again ≠ [] → 16 ≤ tried → replayFrom v p seq = retrainPort v p) ∧
    (again ≠ [] → tried < 16 →
      let z := w.updPort p (fun x => { x with retries := sat16 x.retries again.length, replays := tried + 1, replaySeq := seq })
      replayFrom v p seq = again.foldl (fun s e => raiseChip s 0x5001 0 2 p 0 [p, e.1]) (z.countChip 0x30A again.length)) ∧
    (∀ e ∈ again, e ∈ (v.port p).replay) ∧ (again.headD (seq, [])).1 = seq)

/-- LINK_TRAINING_DONE, LINK_PORT_DOWN, LINK_RETRAIN, PORT_RETRAIN, GROUP_FORMATION, FORM, GROUP_FORM_TIMEOUT (R517, R534 to R537, R759). -/
def Obligations.PortsTrainAndGroupsForm : Prop :=
  (∀ (p lanes : Nat) (fast : Bool) (s : State), p < 8 → (s.port p).training = true →
    (bits lanes 3 0 = 15 ∨ bits lanes 7 4 = 15) →
    ∃ t : State, exec (.linkTrainingDone p lanes fast) s = .next t ∧ (t.port p).up = true ∧ (t.port p).lanes = lanes % 256 ∧
      (t.port p).fast = fast ∧ (t.port p).training = false ∧
      ((s.port p).up = false → (t.port p).rxSeq = 0 ∧ (t.port p).txSeq = 1) ∧ ∀ k, k ≠ p → t.port k = s.port k) ∧
  (∀ (p cause : Nat) (s : State), (s.port p).up = true →
    ∃ t : State, exec (.linkPortDown p cause) s = .next t ∧ (t.port p).up = false ∧ (t.port p).lanes = 0 ∧
      (t.port p).outQ = [] ∧ (t.port p).replay = [] ∧ ∀ k, k ≠ p → (t.port k).up = (s.port k).up ∧ (t.port k).lanes = (s.port k).lanes) ∧
  (∀ (p lane : Nat) (s : State), (s.port p).up = true → lane < 8 →
    let left := (s.port p).lanes &&& (if lane < 4 then 0xF0 else 0x0F)
    (bits left 3 0 = 15 ∨ bits left 7 4 = 15) →
    ∃ t : State, exec (.linkRetrain p lane) s = .next t ∧ (t.port p).up = true ∧ (t.port p).lanes = left ∧
      (t.port p).training = true ∧ ∀ k, k ≠ p → t.port k = s.port k) ∧
  (∀ (p : Nat) (s : State), p < 8 → reach s (0x200000 + p * 0x10000) ≠ .dead →
    ∃ t : State, exec (.portRetrain p) s = .next t ∧ (t.port p).up = false ∧ (t.port p).training = true) ∧
  (∀ (v : Nat) (s : State), datumReach s 5 = true →
    let m := { s with sht := { s.sht with member := v % 32 } }
    (s.jobActive = true → exec (.groupFormation v) s = .next { s with sht := { s.sht with writeRej := true } }) ∧
    (s.jobActive = false → bit v 31 = false → exec (.groupFormation v) s = .next (dropForms (leaveGroup m))) ∧
    (s.jobActive = false → bit v 31 = true → rolePort s = [] → ∃ t : State, exec (.groupFormation v) s = .next t ∧
      t.sht.enable = false ∧ t.grp.formFail = true ∧ t.grp.forming = none ∧ t.sht.member = v % 32) ∧
    (s.jobActive = false → bit v 31 = true → rolePort s ≠ [] →
      let f : State := { leaveGroup m with
        sht := { (leaveGroup m).sht with enable := true }
        grp := { (leaveGroup m).grp with forming := some s.clk.ps, round := 0, largest := s.sht.tick, formed := false } }
      exec (.groupFormation v) s = .next (formStep (sendForms (earlyForms f) 0)))) ∧
  (∀ (p sync : Nat) (b : Bytes) (s : State), (s.port p).up = true →
    let u := takeEvent (acceptFlit (takeState s p sync) p) p sync
    let fields := [num b 4 1, num b 5 1, num b 6 1, num b 7 1, num b 8 4, num b 12 4, num b 16 8, num b 24 1, num b 25 8]
    exec (.form p ⟨sync, b⟩) s = .next (agree (formStep (u.updPort p fun x => { x with
      form := some fields, formAt := u.clk.ps, partnerSerial := if num b 7 1 = 0 then num b 25 8 else x.partnerSerial })))) ∧
  (∀ s : State,
    (s.grp.forming = none → formStep s = s) ∧
    (∀ p k, s.grp.forming.isSome = true → (rolePort s).findSome? (fun p => (formCheck s p).map fun k => (p, k)) = some (p, k) →
      formStep s = formFail s p k)) ∧
  (∀ (t0 : Nat) (s : State), s.grp.forming = some t0 →
    ∃ t : State, exec .groupFormTimeout s = .next t ∧ t.sht.enable = false ∧ t.grp.formFail = true ∧ t.grp.forming = none ∧
      t.clk.ps = max s.clk.ps (t0 + 10000000000))

/-- TICK outside a group, SHT_PERIOD_WRITE and SHT_OVERRUN_LIMIT_WRITE (R61, R64, R69, R75, R95, R96). -/
def Obligations.SheetsTickAtTheirTime : Prop :=
  (∀ (ph : List Phys) (s : State) (D : Nat), let u := injectAll s ph
    let v := u.untilCycle (max (u.sht.openCycle + u.sht.period) (D + 64))
    u.sht.opened = true → u.sht.groupActive = false → u.allDone = true → u.sht.lastDone = some D →
    ∃ t : State, exec (.tick ph) s = .next t ∧ t.sht.tick = u.grp.adopt.getD (u.sht.tick + 1) ∧
      t.sht.openCycle = v.clk.cycles ∧ t.sht.openPs = v.clk.ps ∧ t.clk = v.clk ∧
      max (u.sht.openCycle + u.sht.period) (D + 64) ≤ v.clk.cycles ∧
      (u.clk.cycles ≤ max (u.sht.openCycle + u.sht.period) (D + 64) → u.clk.frac < 40000 → u.pwr.pace < 64 →
        v.clk.cycles = max (u.sht.openCycle + u.sht.period) (D + 64)) ∧
      t.sht.period = u.sht.nextPeriod.getD u.sht.period ∧ t.sht.nextPeriod = none ∧ t.sht.overrun = false ∧
      t.sht.groupActive = u.grp.adopt.isSome) ∧
  (∀ (ph : List Phys) (s : State), (injectAll s ph).allDone = false → exec (.tick ph) s = .next (injectAll s ph)) ∧
  (∀ (v : Nat) (s : State), datumReach s 5 = true →
    let p := v % 2 ^ 23
    exec (.shtPeriodWrite v) s = .next { s with sht :=
      if s.jobActive = false ∧ 4096 ≤ p ∧ p ≤ 4194304 ∧ 256 ∣ p then { s.sht with nextPeriod := some p }
      else { s.sht with writeRej := true } }) ∧
  (∀ (v : Nat) (s : State), datumReach s 5 = true →
    exec (.shtOverrunLimitWrite v) s = .next { s with sht :=
      if s.jobActive = false ∧ 1 ≤ v % 128 ∧ v % 128 ≤ 64 then { s.sht with limit := v % 128 } else { s.sht with writeRej := true } })

/-- SHEET_BUDGET_EXPIRY, SHEET_STALL, TICK_WAIT_LIMIT, and the next sheet of a job (R75, R77, R79, R163, R165). -/
def Obligations.OverrunsStallAndLeaveTheGroup : Prop :=
  (∀ s : State, s.sht.opened = true → let v := s.untilCycle (s.sht.openCycle + s.sht.period)
    exec .sheetBudgetExpiry s = .next { v with sht := { v.sht with overrun := v.sht.overrun || !v.allDone } }) ∧
  (∀ s : State, s.sht.opened = true → let v := s.untilCycle (s.sht.openCycle + s.sht.period * (1 + s.sht.limit))
    let js := s.jobs.filter fun j => !(undoneCells s j).isEmpty
    let w : State := { v with sht := { v.sht with overrun := true, stall := v.sht.stall || !js.isEmpty } }
    (v.allDone = true → exec .sheetStall s = .next v) ∧
    (v.allDone = false → ∃ t : State, exec .sheetStall s = .next t ∧
      t = agree ((js.flatMap (undoneCells w)).foldl dropRings (js.foldl stallJob w)) ∧
      (s.sht.groupActive = false → t.sht.stall = (s.sht.stall || !js.isEmpty)) ∧
      ∀ j, (s.jobs.map (·.id)).Nodup → j ∈ s.jobs → j.id ≠ 0 →
        (∃ c ∈ jobCells j, (s.cell c).seq.job = j.id ∧ (s.cell c).seq.done = false) →
        (t.job? j.id).any (·.ending.isSome) = true)) ∧
  (∀ (s : State) (d : Nat), s.sht.doneSent = some d → s.sht.groupActive = true →
    let u := agree (s.untilCycle (d + (s.sht.limit + 4) * s.sht.period))
    (mayTick u = true → exec .tickWaitLimit s = .next u) ∧
    (mayTick u = false → ∃ t : State, exec .tickWaitLimit s = .next t ∧ t.sht.enable = false ∧ t.sht.groupActive = false ∧
      t.grp.neighbourLost = false ∧ t.sht.tick = s.sht.tick + 1 ∧ t.sht.openCycle = u.clk.cycles ∧ t.clk = u.clk ∧
      u.clk = (s.untilCycle (d + (s.sht.limit + 4) * s.sht.period)).clk)) ∧
  (∀ (s : State) (j : Job) (noYield : Nat), s.job? j.id = some j → j.phase = .running → j.ending = none →
    j.sheet < j.image.sheetCount → (yieldTick s noYield j = false ∨ claimed s j = false) → (jobCells j).Nodup →
    let t := tickRunning noYield s j.id
    (t.job? j.id).any (fun k => k.sheet == j.sheet + 1 && decide (k.phase = .running)) = true ∧
    (∀ c ∈ jobCells j, (t.cell c).seq.index = 0 ∧ (t.cell c).seq.done = false ∧ (t.cell c).seq.ended = false ∧
      (t.cell c).seq.fetched = (s.cell c).seq.next.isSome ∧ (t.cell c).seq.stream = ((s.cell c).seq.next.map (·.1)).getD []) ∧
    ∀ c, c ∉ jobCells j → t.cell c = s.cell c)

/-- The rows of power delivery but the ledger's (R555, R556, R562 to R566, R574, R575, R579 to R582). -/
def Obligations.PowerEventsTakeEffect : Prop :=
  (∀ (s : State) (v : Nat), s.pwr.command = some v → exec (.avsAck 0) s = .next (latchPace { s with pwr := { s.pwr with
      setpoint := v, lastMove := s.clk.ps, command := none, attempts := 0, avsOk := true } })) ∧
  (∀ (s : State) (v : Nat), s.pwr.vstoreCmd = some v → exec (.avsAck 1) s = .next { s with pwr := { s.pwr with
      vstore := v, vstoreCmd := none, vstoreTries := 0, avsOk := true } }) ∧
  (∀ (s : State) (v status : Nat), s.pwr.command = some v →
    let u := if status = 0 then s.untilPs (s.pwr.lastTry + 10000000) else s
    (s.pwr.attempts < 2 → ∃ t : State, exec (.avsWriteTimeout 0 status) s = .next t ∧ t.out = s.out ++ [.avs 0 (.writeVoltage v)] ∧
      t.pwr = { s.pwr with attempts := s.pwr.attempts + 1, lastTry := u.clk.ps }) ∧
    (s.pwr.attempts = 2 → ∃ t : State, exec (.avsWriteTimeout 0 status) s = .next t ∧ t.pwr.avsOk = false ∧ t.pwr.avsFault = true ∧
      t.pwr.setpoint = s.pwr.setpoint)) ∧
  (∀ (s : State) (v : Nat), s.pwr.avsOk = false → s.pwr.command = some v → 3 ≤ s.pwr.attempts →
    ∃ t : State, exec .avsRetry s = .next t ∧ t.out = s.out ++ [.avs 0 (.writeVoltage v)] ∧ t.pwr.command = some v ∧ t.clk.ps = max s.clk.ps (s.pwr.lastTry + 1000000000)) ∧
  (∀ s : State, s.pwr.alertFrom = none → ∃ t : State, exec .vcoreAlertAssert s = .next t ∧
    t.pwr = { s.pwr with alertFrom := some s.clk.ps, alertLong := false, frozen := true } ∧
    (∀ r, r < 32 → (t.region r).pw.stretchFrom.isSome = true) ∧ { t with regions := s.regions, pwr := s.pwr, sb := s.sb } = s) ∧
  (∀ (s : State) (t0 : Nat), s.pwr.alertFrom = some t0 →
    (∃ t : State, exec .vcoreAlertRelease s = .next t ∧ t.pwr = { s.pwr with alertFrom := none, frozen := false } ∧
      t.clk.ps = s.clk.ps + 1000000 ∧
      ∀ r x, r < 32 → (s.region r).pw.stretchFrom = some x → 6 ≤ (s.region r).pw.lastCode → x + 16 ≤ s.clk.cycles →
        (t.region r).pw.stretchFrom = none) ∧
    (s.pwr.alertLong = false → ∃ t : State, exec .vcoreAlertLong s = .next t ∧ t.pwr.pace = s.pwr.pace - 16 ∧
      t.pwr.advertised = min s.pwr.advertised (s.pwr.pace - 16) ∧ t.pwr.alertLong = true ∧ t.pwr.otherPll = s.pwr.pace - 16 - 16 ∧
      t.pwr.agreed = (s.pwr.agreed.map fun e => (min e.1 (s.pwr.pace - 16), e.2)) ∧
      t.clk.ps = max s.clk.ps (t0 + 10000000))) ∧
  (∀ (codes : List (Nat × Nat)) (datum : Nat) (s : State), (codes.map (·.1)).Nodup →
    ∃ t : State, exec (.marginSample codes datum) s = .next t ∧ (4 ≤ datum → t.share.datumPct = 0) ∧ t.share.datumPct ≤ 50 ∧ t.pwr = s.pwr ∧
      (∀ r m, (r, m) ∈ codes → r < 32 → awake s r = true → (t.region r).pw.margin = min (s.region r).pw.margin m ∧
        (t.region r).pw.lastCode = m ∧ (m < 4 → (t.region r).pw.stretchFrom.isSome = true)) ∧
      ∀ r, (∀ m, (r, m) ∉ codes) → t.region r = s.region r) ∧
  (∀ s : State, ∃ t : State, exec .guardUpdate s = .next t ∧ t.clk.ps = max s.clk.ps (sget 0 s.timers 3 + 1000000000) ∧
    ∀ r, r < 32 → awake s r = true → let p := (s.region r).pw
      (t.region r).pw.margin = 63 ∧ (t.region r).pw.guard =
        if p.margin < 10 then min 20 (p.guard + 1) else if 18 < p.margin ∧ 15 ≤ p.high then p.guard - 1 else p.guard) ∧
  (∀ (l : List (Nat × Nat)) (s : State), exec (.viaMeasure l) s = .next (l.foldl measureVia (s.periodic 4 1000000000))) ∧
  (∀ (s : State) (r g v : Nat) (l : List Nat), r < 32 → g < 4 → (s.region r).pw.via.getD g [] = l → l.length = 15 →
    1536 * 16 < 5 * ((l ++ [v]).foldl (· + ·) 0) → s.regionReason r = 0 →
    ((measureVia s (4 * r + g, v)).regionPlan r).capped = true) ∧
  (∀ (b t : Nat) (s : State), b < 384 → t < 8 → s.blockReason b = 0 →
    ((s.blockPlan b).trimFailed = 0 → ∃ v : State, exec (.trimCellFault b t) s = .next v ∧
      v.blockPlan b = { s.blockPlan b with trimFailed := 2 ^ t } ∧ ∀ d, d ≠ b → v.blockPlan d = s.blockPlan d) ∧
    (bit (s.blockPlan b).trimFailed t = false → (s.blockPlan b).trimFailed ≠ 0 → ∃ v : State, exec (.trimCellFault b t) s = .next v ∧
      (v.blockPlan b).reason = 8)) ∧
  (∀ (memory io vstore : Nat) (s : State), ∃ t : State, exec (.budgetShare memory io vstore) s = .next t ∧
    (t.pwr.relief = s.pwr.relief ∨ t.pwr.relief = s.pwr.relief + 1 ∨ t.pwr.relief + 1 = s.pwr.relief) ∧
    t.pwr.sustained = (t.pwr.relief - vstore) * 1000 / s.pwr.setpoint ∧ t.pwr.pkgW = s.pwr.pendPkgW.getD s.pwr.pkgW ∧
    (let goal := s.pwr.pendCap.getD s.pwr.capGoal
     let from_ := if s.pwr.pendCap.isSome then codeWatts s s.pwr.cap else s.pwr.capW
     t.pwr.capGoal = goal ∧ t.pwr.pendCap = none ∧ min goal s.pwr.cap ≤ t.pwr.cap ∧ t.pwr.cap ≤ max goal s.pwr.cap ∧
     t.pwr.capW ≤ from_ + 1 ∧ from_ ≤ t.pwr.capW + 1) ∧ t.pwr.budget ≤ s.grade.paceMax ∧ t.pwr.budgetW ≤ s.pwr.budgetW + 1 ∧
    t.pwr.budgetW ≤ t.pwr.relief ∧ (t.pwr.budget = 0 ∨ codeWatts s t.pwr.budget ≤ t.pwr.budgetW) ∧
    t.out = s.out ++ [0, 1].flatMap fun k => [.avs k .readVoltage, .avs k .readCurrent, .avs k .readTemperature, .avs k .readStatus])

/-- LEDGER_SLOT and REGION_WAKE_DONE (R567 to R571, R556, R584, R611, R613): a slot grants no region more than its rate, and no increase
while the alert, a stop or a chip-fatal error holds; a wake ends 2 µs after it began, once its 16 steps are granted. -/
def Obligations.TheLedgerGrantsWithinItsRate : Prop :=
  (∀ (l : List Report) (s : State), swf {} s.regions = true → ∃ t : State, exec (.ledgerSlot l none) s = .next t ∧
    t.clk.ps = max s.clk.ps (sget 0 s.timers 1 + 125000) ∧ t.cells = s.cells ∧ t.jobs = s.jobs ∧
    (∀ r, (t.region r).pw.grant ≤ (s.region r).pw.grant + s.pwr.rate * 125) ∧
    (s.pwr.frozen = true ∨ s.thm.stopped = true ∨ s.err.fatal = true ∨ powerHeld s = true →
      ∀ r, (t.region r).pw.grant ≤ (s.region r).pw.grant)) ∧
  (∀ (l : List Report) (r : Nat) (s : State), ∃ t : State, exec (.ledgerSlot l (some r)) s = .next t ∧
    t.thm.stopped = true ∧ t.err.fatal = true ∧ t.regions = s.regions ∧
    ∀ c, s.cell c ≠ {} → (t.cell c).seq.halted = true ∧ (t.cell c).seq.flight = []) ∧
  (∀ (r : Nat) (s : State), r < 32 →
    ((s.region r).pw.wake ≠ some 16 → exec (.regionWakeDone r) s = .next s) ∧
    ((s.region r).pw.wake = some 16 →
      ∃ t : State, exec (.regionWakeDone r) s = .next t ∧ (t.region r).pw.gated = false ∧ (t.region r).pw.wake = none ∧
        (t.region r).pw.grant = (s.region r).pw.draw ∧ (t.region r).pw.clip = 8 ∧
        t.clk.ps = max s.clk.ps ((s.region r).pw.wakeAt + 2000000) ∧ (∀ q, q ≠ r → t.region q = s.region q) ∧
        (s.clearing = [] → { t with clk := s.clk, regions := s.regions, mon := s.mon, pwr := s.pwr, err := s.err } = s)))

/-- The rows of heat (R587 to R615). -/
def Obligations.HeatIsGovernedAndStopsThePart : Prop :=
  (∀ (l : List (Nat × Int)) (s : State), (l.map (·.1)).Nodup → ∃ t : State, exec (.sensorSample l) s = .next t ∧
    (∀ n v, (n, v) ∈ l → n < 176 → reading t n = v) ∧ (∀ n, (∀ v, (n, v) ∉ l) → reading t n = reading s n) ∧
    (∀ n v, (n, v) ∈ l → n < 176 → tripAt n ≤ v → t.thm.stopped = true) ∧
    (∀ m, m < 12 → 100 ≤ (s.stack m).temp → t.thm.stopped = true) ∧
    t.clk.ps = max s.clk.ps (sget 0 s.timers 6 + 50000000)) ∧
  (∀ s : State, let v := s.periodic 7 1000000000
    let hot := (siteHeat s).any fun x => decide (x.2.1 ≤ x.1)
    let cool := (siteHeat s).all fun x => decide (x.1 ≤ x.2.1 - 2000000)
    let code := if hot then s.pwr.thermal - 2
      else if cool = true ∧ s.thm.holdCode = false then min s.grade.paceMax (s.pwr.thermal + 1) else s.pwr.thermal
    exec .thermalCodeUpdate s = .next (latchPace { v with pwr := { s.pwr with thermal := code } })) ∧
  (∀ s : State, (∀ r, 2 ≤ (s.region r).pw.frac ∧ (s.region r).pw.frac ≤ 8) →
    ∃ t : State, exec .columnGovernor s = .next t ∧ t.clk.ps = max s.clk.ps (sget 0 s.timers 8 + 1000000) ∧
      ∀ r, 2 ≤ (t.region r).pw.frac ∧ (t.region r).pw.frac ≤ 8 ∧
        (t.region r).pw.frac ≤ (s.region r).pw.frac + 1 ∧ (s.region r).pw.frac ≤ (t.region r).pw.frac + 1 ∧
        { t.region r with pw := { (t.region r).pw with frac := (s.region r).pw.frac } } = s.region r) ∧
  (∀ (after : Nat) (s : State), let v := s.advancePs after
    exec (.flowInPulse after) s = .next { v with thm := { s.thm with
      interval := (s.thm.lastPulse.map fun p => v.clk.ps - p).getD 0, lastPulse := some v.clk.ps } }) ∧
  (∀ (tin tout : Int) (watts : Nat) (s : State), let v := s.periodic 9 1000000000
    ∃ t : State, exec (.flowUpdate tin tout watts) s = .next t ∧ t.thm.flow = flowNow v ∧ t.thm.tin = tin ∧ t.thm.tout = tout ∧
      (t.thm.tinOk = true ↔ -40 ≤ tin ∧ tin ≤ 400) ∧ (t.thm.toutOk = true ↔ -40 ≤ tout ∧ tout ≤ 400) ∧
      (flowNow v < 600000 → t.thm.stopped = true) ∧
      (flowNow v < 600000 → s.thm.stopped = false → ∀ c, s.cell c ≠ {} → (t.cell c).seq.halted = true ∧ (t.cell c).seq.flight = []) ∧
      (2000000 ≤ flowNow v → t.thm.flowDoubt = false → t.share.flowCap = 1000000) ∧
      (600000 ≤ flowNow v → flowNow v ≤ 1200000 → t.share.flowCap = 500000)) ∧
  (∀ (s : State) (k : Nat), s.thm.staircase = some k → k < 16 → ∃ t : State, exec .staircaseStep s = .next t ∧
    t.thm.staircase = (if k < 15 then some (k + 1) else none) ∧ t.clk.ps = max s.clk.ps (s.thm.stopAt + (k + 1) * 1000000) ∧
    (∀ r, r / 2 = k → (t.region r).pw.gated = true ∧ (t.region r).pw.grant = 0 ∧ (t.region r).pw.draw = 0 ∧
      (t.region r).pw.ballast = 0) ∧
    ∀ r, r / 2 ≠ k → t.region r = s.region r) ∧
  (∀ s : State, datumReach s 7 = true → s.thm.stopped = true →
    let held (x : Option Nat) : Prop := ∃ since, x = some since ∧ since + 10000000000000 ≤ s.clk.ps
    let met : Prop := (bit s.thm.stopMask 0 = true ∨ bit s.thm.stopMask 1 = true → held s.thm.flowOkFrom) ∧
      (bit s.thm.stopMask 2 = true → held s.thm.coolFrom) ∧ bit s.thm.stopMask 3 = false
    (met → exec .resume s = .next { s with thm := { s.thm with stopped := false, stopMask := 0 }, pwr := { s.pwr with relief := 0 } }) ∧
    (¬met → exec .resume s = .next s)) ∧
  (∀ s : State, ∃ t : State, exec .wearCount s = .next t ∧ t.clk.ps = max s.clk.ps (sget 0 s.timers 10 + 1000000000000) ∧
    ∀ r, r < 32 → sget 0 t.thm.wear r = min 0xFFFFFFFF (sget 0 s.thm.wear r +
      if 380 ≤ regionTemp s r then 2 else if 340 ≤ regionTemp s r then 1 else 0))

/-- REFRESH, STACK_TEMP_READOUT, PATROL_READ, STACK_TRAINING_LOST, STACK_RETRAIN_DONE and STACK_FENCED (R403, R420 to R425). -/
def Obligations.StacksRefreshPatrolAndRetrain : Prop :=
  ∀ (n : Nat) (s : State), n < 12 → (s.stack n).trained = true → (s.stackPlan n).fenced = false →
    let x := s.stack n
    let only (t : State) (y : StackSt) : Prop := t.stack n = y ∧ (∀ m, m ≠ n → t.stack m = s.stack m)
    let word := patrolWord n x.patrolPos
    let pair := pairOf (blockOfWord word)
    (s.hif.d3hot = true → ∀ bank busy, exec (.refresh n bank busy) s = .next s) ∧
    (s.hif.d3hot = false → ∀ bank, bank < 4128 → let k := sget 0 x.postponed bank
      (k < 8 → ∃ t : State, exec (.refresh n bank true) s = .next t ∧ { t with stk := s.stk } = s ∧
        only t { x with postponed := sset 0 x.postponed bank (k + 1), postponeMax := max x.postponeMax (k + 1) }) ∧
      ∀ busy, busy = false ∨ 8 ≤ k → ∃ t : State, exec (.refresh n bank busy) s = .next t ∧
        t.out = s.out ++ List.replicate (k + 1) (.stack n (.refPb bank)) ∧ sget 0 (t.stack n).postponed bank = 0 ∧
        only t { x with postponed := sdel (sset 0 x.postponed bank (k + 1)) bank } ∧ { t with stk := s.stk, out := s.out } = s) ∧
    (∀ temp, ∃ t : State, exec (.stackTempReadout n temp) s = .next t ∧ t.out = s.out ++ [.stack n .readTemp] ∧
      only t { x with temp := temp, doubled := decide (85 < temp) } ∧ t.clk.ps = max s.clk.ps (sget 0 s.timers (20 + n) + 32000000)) ∧
    (sget 0 x.bad word = 0 → sget 0 x.postponed pair < 8 → x.patrolPos + 1 < lapLength n →
      ∃ t : State, exec (.patrolRead n []) s = .next t ∧ only t { x with patrolPos := x.patrolPos + 1 } ∧ { t with stk := s.stk } = s) ∧
    (sget 0 x.bad word = 0 → sget 0 x.postponed pair < 8 → x.patrolPos + 1 = lapLength n →
      ∃ t : State, exec (.patrolRead n []) s = .next t ∧ { t with stk := s.stk } = s ∧ (t.stack n).patrolPos = 0 ∧
        (t.stack n).laps = min 0xFFFF (x.laps + 1) ∧ (t.stack n).pairWords = [] ∧ (t.stack n).lapCode =
          (if 4 ≤ x.lapWords.length then x.lapCode - 1 else if x.lapWords = [] then min 4 (x.lapCode + 1) else x.lapCode)) ∧
    (popcount 36 (sget 0 x.bad word) = 1 → ∃ t : State, exec (.patrolRead n []) s = .next t ∧
      sget 0 (t.stack n).bad word = 0 ∧ (t.stack n).data = x.data ∧ (t.stack n).corrected = min 0xFFFF (x.corrected + 1) ∧
      ∀ w, w ≠ word → sget 0 (t.stack n).bad w = sget 0 x.bad w) ∧
    (2 ≤ popcount 36 (sget 0 x.bad word) → ∃ t : State, exec (.patrolRead n []) s = .next t ∧ (t.stack n).uncorr = true ∧
      (t.stack n).uncorrected = min 0xFFFF (x.uncorrected + 1) ∧ pair ∈ (t.stackPlan n).marked ∧ (t.stack n).bad = x.bad ∧
      (t.stack n).data = x.data) ∧
    (x.lost = none → ∃ t : State, exec (.stackTrainingLost n) s = .next t ∧ only t { x with lost := some s.clk.ps } ∧
      { t with stk := s.stk } = s) ∧
    (∀ since, x.lost = some since →
      (s.clk.ps ≤ since + 10000000000 → ∃ t : State, exec (.stackRetrainDone n) s = .next t ∧ only t { x with lost := none } ∧
        { t with stk := s.stk } = s) ∧
      ∃ t : State, exec (.stackFenced n) s = .next t ∧ (t.stackPlan n).fenced = true ∧ (t.stack n).lost = none ∧
        (t.stack n).data = x.data ∧ (∀ m, m ≠ n → t.stackPlan m = s.stackPlan m) ∧ t.clk.ps = max s.clk.ps (since + 10000000000))

/-- SCRUB_READ, BOND_TEST_END, STS_FLIP_ARM, SVY_FENCE_REQ and SURVEY_COMMIT (R45 to R47, R56, R372 to R375, R391 to R396, R671, R673). -/
def Obligations.StashesScrubAndTheSurveyFollows : Prop :=
  (∀ (c : Nat) (s : State), s.goodCell c = false → exec (.scrubRead c []) s = .next s) ∧
  (∀ (c line : Nat) (wrapped : Bool) (s : State), let x := (s.cell c).stash
    s.goodCell c = true → scrubLine s c = some (line, wrapped) → (line % 128 = 0 → sget 0 x.badChecks (line / 128) = 0) →
    (wrapped = false → (∀ w, w < 8 → sget 0 x.bad (line * 8 + w) = 0) → x.marked = 0 →
      ∃ t : State, exec (.scrubRead c []) s = .next t ∧ (s.clk.cycles ≤ t.clk.cycles ∧ x.scrubAt + 2 ^ x.scrubLog2 ≤ t.clk.cycles) ∧
        (t.cell c).stash = { x with scrubAt := t.clk.cycles, scrubPos := line + 1, bad := (t.cell c).stash.bad } ∧
        (∀ k, sget 0 (t.cell c).stash.bad k = sget 0 x.bad k) ∧ (∀ d, d ≠ c → t.cell d = s.cell d)) ∧
    (wrapped = true → (∀ w, w < 8 → sget 0 x.bad (line * 8 + w) = 0) → x.marked = 0 →
      let k := if 2 ≤ x.lapCorrected then x.scrubLog2 - 1 else if x.lapCorrected = 0 then x.scrubLog2 + 1 else x.scrubLog2
      ∃ t : State, exec (.scrubRead c []) s = .next t ∧ (t.region (regionOf c)).laps = min 0xFFFF ((s.region (regionOf c)).laps + 1) ∧
        (t.cell c).stash.scrubLog2 = max 8 (min (s.region (regionOf c)).scrubMax k) ∧ (t.cell c).stash.lapCorrected = 0 ∧
        (t.cell c).stash.corrWords = [] ∧ (t.cell c).stash.scrubPos = line + 1 ∧ (t.cell c).stash.data = x.data) ∧
    (wrapped = false → lineWritten s c line = false → x.marked = 0 →
      ∃ t : State, exec (.scrubRead c []) s = .next t ∧ (∀ w, w < 8 → sget 0 (t.cell c).stash.bad (line * 8 + w) = 0) ∧
        (t.cell c).stash = { x with scrubAt := t.clk.cycles, scrubPos := line + 1, bad := (t.cell c).stash.bad }) ∧
    (∀ w, wrapped = false → w < 8 → lineWritten s c line = true → (∀ v, v < 8 → v ≠ w → sget 0 x.bad (line * 8 + v) = 0) →
      (popcount 72 (sget 0 x.bad (line * 8 + w)) = 1 →
        ∃ t : State, exec (.scrubRead c []) s = .next t ∧ sget 0 (t.cell c).stash.bad (line * 8 + w) = 0 ∧
          (t.cell c).stash.corrected = min 0xFFFF (x.corrected + 1) ∧ (t.cell c).stash.lapCorrected = x.lapCorrected + 1 ∧
          (t.cell c).stash.data = x.data ∧ (t.cell c).stash.scrubPos = line + 1) ∧
      (2 ≤ popcount 72 (sget 0 x.bad (line * 8 + w)) → s.heldBy c ≠ [] →
        ∃ t : State, exec (.scrubRead c []) s = .next t ∧ (t.region (regionOf c)).stsUncorr = true ∧ (t.cell c).stash.bad = x.bad ∧
          (t.cell c).stash.marked = x.marked ||| 2 ^ (line / 256) ∧ (t.cell c).stash.data = x.data ∧
          (t.cell c).stash.scrubPos = line + 1))) ∧
  (∀ (c : Nat) (west : Bool) (bonds : List Nat) (s : State), let u := (s.cell c).plumb
    let p := s.cellPlan c
    let spared := if west then p.westSpares else p.eastSpares
    let failed := (bonds.filter fun b => decide (b < 560) && !spared.contains b).dedup
    let otherGone := if west then p.eastGone else p.westGone
    let gone (q : CellPlan) : CellPlan := if west then { q with westGone := true } else { q with eastGone := true }
    ((if west then u.westTest else u.eastTest) = none → exec (.bondTestEnd c west bonds) s = .next s) ∧
    (∀ due, s.goodCell c = true → (if west then u.westTest else u.eastTest) = some due →
      ((if west then u.eastWait else u.westWait) = false → failed = [] →
        ∃ t : State, exec (.bondTestEnd c west bonds) s = .next t ∧ t.cell c = { s.cell c with plumb :=
          if west then { u with westTest := none } else { u with eastTest := none } } ∧
          (∀ d, d ≠ c → t.cell d = s.cell d) ∧ t.plan = s.plan ∧ due ≤ t.clk.cycles) ∧
      ((if west then u.eastWait else u.westWait) = true → (if west then u.eastTest else u.westTest) = none → failed = [] →
        ∃ t : State, exec (.bondTestEnd c west bonds) s = .next t ∧ t.plan = s.plan ∧
          (if west then (t.cell c).plumb.eastTest else (t.cell c).plumb.westTest) = some (t.clk.cycles + 256) ∧
          (if west then (t.cell c).plumb.westTest else (t.cell c).plumb.eastTest) = none ∧
          (if west then (t.cell c).plumb.eastWait else (t.cell c).plumb.westWait) = false) ∧
      (failed ≠ [] → failed.length ≤ 16 - spared.length →
        ∃ t : State, exec (.bondTestEnd c west bonds) s = .next t ∧ t.cellPlan c =
          (if west then { p with westSpares := p.westSpares ++ failed } else { p with eastSpares := p.eastSpares ++ failed }) ∧
          ∀ d, d ≠ c → t.cellPlan d = s.cellPlan d) ∧
      (16 - spared.length < failed.length →
        ∃ t : State, exec (.bondTestEnd c west bonds) s = .next t ∧
          t.cellPlan c = (if otherGone then { gone p with reason := 3 } else gone p) ∧ ∀ d, d ≠ c → t.cellPlan d = s.cellPlan d))) ∧
  (∀ (c : Nat) (s : State), exec (.stsFlipArm c) s = .next (
    if s.rst.locked = false ∧ s.goodCell c = true ∧ reach s (cellBase c + 0x290) ≠ .dead
    then s.updStash c fun x => { x with flipArmed := true } else s)) ∧
  (∀ (v : Nat) (s : State), let u := v % 8192
    let lvl := bits v 14 13
    let b := blockIndex u
    let r := regionOf u
    let cs := if lvl = 0 then [u] else if lvl = 1 then blockCells b else (upto (r * 12) 12).flatMap blockCells
    let used := s.jobs.any fun j => decide (j.phase ≠ .claiming) && (jobCells j).any cs.contains
    let taken : Prop := s.up 2 = true ∧ s.inReset 0 6 = false ∧ bit v 31 = true ∧ namesUnit u lvl = true ∧ s.svy.request = none
    (¬taken → exec (.svyFenceReq v) s = .next s) ∧
    (taken → used = true → exec (.svyFenceReq v) s = .next { s with svy := { s.svy with request := some (u, lvl) } }) ∧
    (taken → used = false →
      (lvl = 0 → s.cellReason u = 0 → ∃ t : State, exec (.svyFenceReq v) s = .next t ∧ t.svy.request = none ∧
        t.cellPlan u = { s.cellPlan u with reason := 0xC } ∧ (∀ d, d ≠ u → t.cellPlan d = s.cellPlan d) ∧
        (t.blockPlan b).reason = (if kindOf u = .S then 0xA else (s.blockPlan b).reason) ∧ ∀ k, k ≠ b → t.blockPlan k = s.blockPlan k) ∧
      (lvl = 1 → s.blockReason b = 0 → ∃ t : State, exec (.svyFenceReq v) s = .next t ∧ t.svy.request = none ∧
        t.blockPlan b = { s.blockPlan b with reason := 0xC } ∧ ∀ k, k ≠ b → t.blockPlan k = s.blockPlan k) ∧
      (lvl = 2 → s.regionReason r = 0 → ∃ t : State, exec (.svyFenceReq v) s = .next t ∧ t.svy.request = none ∧
        t.regionPlan r = { s.regionPlan r with reason := 0xC } ∧ ∀ k, k ≠ r → t.regionPlan k = s.regionPlan k))) ∧
  (∀ (fails : Nat) (s : State),
    (s.svy.building = none ∨ s.svy.committed = true → exec (.surveyCommit fails) s = .next s) ∧
    (∀ x, s.svy.building = some x → s.svy.committed = false →
      ∃ t : State, exec (.surveyCommit fails) s = .next t ∧ t.svy.committed = true ∧ t.svy.window = s.svy.window ∧ t.svy.building = some x ∧
        (slotValid s.keep.surveyA = true → newestIsB s.keep.surveyA s.keep.surveyB = false → t.keep.surveyA = s.keep.surveyA) ∧
        (newestIsB s.keep.surveyA s.keep.surveyB = true → t.keep.surveyB = s.keep.surveyB) ∧
        (fails < 2 → (slotValid t.keep.surveyA = true ∧ t.keep.surveyA.data = some x) ∨
          slotValid t.keep.surveyB = true ∧ t.keep.surveyB.data = some x) ∧
        (2 ≤ fails → newestSlot t.keep.surveyA t.keep.surveyB = newestSlot s.keep.surveyA s.keep.surveyB)))

/-- The rows of the error machinery (R622 to R645, R672, R673). -/
def Obligations.ErrorsAreHandledQueuedAndRecorded : Prop :=
  (∀ (r : Nat) (s : State), regionUp s r = true → s.regionReason r = 0 →
    (∃ t : State, exec (.regionCtrlFault r) s = .next t ∧ t.regionReason r = 0xB ∧ ∀ q, q ≠ r → t.regionReason q = s.regionReason q) ∧
    ∃ t : State, exec (.regionErrFault r) s = .next t ∧ t.err.fatal = true ∧ t.hif.fetchEn = false) ∧
  (∀ (b : Nat) (s : State), b < 384 → regionUp s (b / 12) = true → s.blockReason b = 0 →
    ∃ t : State, exec (.blockErrFault b) s = .next t ∧ t.err.fatal = true ∧ t.hif.fetchEn = false) ∧
  (∀ (kind : Nat) (s : State), (s.jobs.map (·.id)).Nodup → ∃ t : State, exec (.errHandlerFault kind) s = .next t ∧
    t.err.fatal = true ∧ t.err.handlerFault = true ∧ t.hif.fetchEn = false ∧ t.err.nextSeq = s.err.nextSeq ∧
    (∀ j ∈ t.jobs, j.ending.isSome = true) ∧ ∃ r, t.keep.historyQ = s.keep.historyQ ++ [r] ∧ r.code = 0x3001 ∧ r.sev = 3 ∧ r.seq = 0) ∧
  (∀ (r : ErrRec) (q : List ErrRec) (s : State), s.hif.linkUp = true → s.hif.txRefused = false →
    (s.err.chipQ = r :: q → s.err.staging.length < 512 → s.err.enable = true → r.sbOnly = false →
      ∃ t : State, exec (.errorRecordAccepted 3 0) s = .next t ∧
        (s.err.chipWait = [] → t.err.chipQ = q ∧ t.err.chipWait = []) ∧
        (∀ w ws, s.err.chipWait = w :: ws → w.level = 3 → q.length < 64 → t.err.chipQ = q ++ [w] ∧ t.err.chipWait = ws) ∧
        t.err.staging = s.err.staging ++ [{ r with seq := s.err.nextSeq }] ∧
        t.err.nextSeq = if s.err.nextSeq = 0xFFFFFFFF then 1 else s.err.nextSeq + 1) ∧
    (∀ unit, s.err.chipWait = [] → sget [] s.err.regionQ (regionOf unit) = r :: q → s.err.chipQ.length < 64 →
      ∃ t : State, exec (.errorRecordAccepted 2 unit) s = .next t ∧ t.err.chipQ = s.err.chipQ ++ [r] ∧
        sget [] t.err.regionQ (regionOf unit) = q) ∧
    (∀ unit, s.err.chipWait = [] → sget [] s.err.blockQ (blockIndex unit) = r :: q → (sget ([] : List ErrRec) s.err.regionQ (regionOf unit)).length < 8 →
      ∃ t : State, exec (.errorRecordAccepted 1 unit) s = .next t ∧ sget [] t.err.blockQ (blockIndex unit) = q ∧
        sget [] t.err.regionQ (regionOf unit) = sget [] s.err.regionQ (regionOf unit) ++ [r]) ∧
    (∀ unit, s.err.chipWait = [] → sget [] s.err.cellHeld unit = r :: q → (sget ([] : List ErrRec) s.err.blockQ (blockIndex unit)).length < 8 →
      ∃ t : State, exec (.errorRecordAccepted 0 unit) s = .next t ∧ sget [] t.err.cellHeld unit = q ∧
        sget [] t.err.blockQ (blockIndex unit) = sget [] s.err.blockQ (blockIndex unit) ++ [r])) ∧
  (∀ (r : ErrRec) (q : List ErrRec) (s : State), s.err.staging = r :: q → s.err.enable = true →
    (s.err.pi + 2 ^ 32 - s.err.ci) % 2 ^ 32 < 2 ^ s.err.sizeLog2 →
    let addr := s.err.base + s.err.pi % 2 ^ s.err.sizeLog2 * 64
    (s.hif.linkUp = true → s.hif.txRefused = false → ∃ t : State, exec (.errRingWrite false) s = .next t ∧ t.err.staging = q ∧
      t.err.pi = (s.err.pi + 1) % 2 ^ 32 ∧ ∃ rest, t.out = s.out ++ .hostWrite addr (recBytes r (s.err.pi / 2 ^ s.err.sizeLog2 % 2 == 0)) :: rest) ∧
    ∃ t : State, exec (.errRingWrite true) s = .next t ∧ t.err.enable = false ∧ t.err.staging = [] ∧ t.err.pi = s.err.pi ∧
      t.hif.hostErr = true) ∧
  (∀ (x : Slot) (rest : List Slot) (s : State), s.err.slots = x :: rest → ∃ t : State, exec .limiterSlotExpiry s = .next t ∧
    t.err.slots = rest ∧ x.till ≤ t.clk.cycles ∧ s.clk.cycles ≤ t.clk.cycles ∧
    { t with clk := s.clk, err := { t.err with slots := s.err.slots } } = s) ∧
  (∀ (fails : Nat) (s : State), fails < 2 →
    (∀ r rest, s.keep.historyQ = r :: rest → s.keep.history.length < 568 * 64 →
      exec (.errorHistoryAppend fails) s = .next { s with keep := { s.keep with
        historyQ := rest, history := s.keep.history ++ [historyEntry (recBytes r false)] } }) ∧
    (s.rst.ready = true → s.keep.history.length + 3 ≤ 568 * 64 → ∃ t : State, exec (.wearSnapshot fails) s = .next t ∧
      t.clk.ps = max s.clk.ps (s.keep.lastSnap + 3600000000000000) ∧ t.keep.lastSnap = t.clk.ps ∧
      ∃ es, t.keep.history = s.keep.history ++ es ∧ es.length = 3 ∧ ∀ e ∈ es, e.length = 64 ∧ isSnapshot e = true))

/-- GATED_READ, REGISTER_WRITE, MON_SEL_WRITE, MON_SNAP_LO_READ, D3HOT_TRANSITION and PCIE_HOT_RESET (R150, R713, R714, R727, R731). -/
def Obligations.RegistersReadAndWriteWhatIsReached : Prop :=
  (∀ (a : Nat) (s : State), a % 4 = 0 →
    let u := if 0xA1000 ≤ a ∧ a < 0xA5000 then scanMaster s ((a - 0xA1000) / 4) else s
    (reach s a = .dead → exec (.gatedRead ⟨0, a, 4⟩) s = .next (s.emit (.readValue a 0))) ∧
    (reach s a = .gated → exec (.gatedRead ⟨0, a, 4⟩) s = .next
      (State.emit (if holdsValue a then { s with hif := { s.hif with gatedRead := true } } else s) (.readValue a 0))) ∧
    (reach s a = .open_ → (a % 16 ≠ 8 ∨ counterLevel (a - 8) = none) →
      exec (.gatedRead ⟨0, a, 4⟩) s = .next (u.emit (.readValue a (regValue u a false % 2 ^ 32))))) ∧
  (∀ (bar a len : Nat) (s : State),
    (len = 0 ∨ 64 < len ∨ 4096 < a % 4096 + len → exec (.gatedRead ⟨bar, a, len⟩) s = .next s) ∧
    (0 < len → len ≤ 64 → a % 4096 + len ≤ 4096 → s.up 0 = true →
      exec (.gatedRead ⟨4, a, len⟩) s = .next (s.emit (.windowValue a (Ram.read s.sec.window a len))) ∧
      ∃ (t : State) (v : Nat), exec (.gatedRead ⟨0, a, len⟩) s = .next t ∧ t.out.getLast? = some (.readValue a v) ∧ v < 2 ^ (8 * len))) ∧
  (∀ (a v e : Nat) (s : State), e < 16 →
    (a % 4 ≠ 0 ∨ e ≠ 15 ∨ reach s a = .dead → exec (.registerWrite a v e) s = .next s) ∧
    (a % 4 = 0 → e = 15 → reach s a ≠ .dead → exec (.registerWrite a v e) s = .next (writeAt s a (v % 2 ^ 32))) ∧
    (e = 15 → s.up 0 = true → ∃ t : State, exec (.registerWrite 0x14 v e) s = .next t ∧ t.scratch = BitVec.ofNat 32 v ∧
      regValue t 0x14 false = v % 2 ^ 32 ∧ { t with scratch := s.scratch } = s)) ∧
  (∀ (a v e : Nat) (s : State), e < 256 → ∃ t : State, exec (.registerWrite a v (e % 16)) s = .next t ∧
    exec (.registerWrite a v e) s = exec (.registerWrite (a + 4) (v / 2 ^ 32) (e / 16)) t) ∧
  (∀ (a v level : Nat) (sb : Bool) (s : State), counterLevel a = some level → reach s a ≠ .dead →
    let c := sget ({} : Counter) s.mon.counters a
    (selAllowed a (v % 4096) level sb = true → ∃ t : State, exec (.monSelWrite a v sb) s = .next t ∧
      sget ({} : Counter) t.mon.counters a = { c with pend := some (v % 4096) } ∧
      (∀ b, b ≠ a → sget ({} : Counter) t.mon.counters b = sget ({} : Counter) s.mon.counters b) ∧
      { t with mon := { t.mon with counters := s.mon.counters } } = s) ∧
    (selAllowed a (v % 4096) level sb = false →
      exec (.monSelWrite a v sb) s = .next { s with mon := { s.mon with selRej := true } }) ∧
    (reach s a = .open_ → hiddenCounter a sb = false → ∃ t : State, exec (.monSnapLoRead a sb) s = .next t ∧
      t.out = s.out ++ [if sb then .reply (leBytes 4 (c.snap % 2 ^ 32)) else .readValue (a + 8) (c.snap % 2 ^ 32)] ∧
      sget ({} : Counter) t.mon.counters a =
        (if sb then { c with hiSb := c.snap / 2 ^ 32 % 65536 } else { c with hiHost := c.snap / 2 ^ 32 % 65536 }) ∧
      { t with mon := { t.mon with counters := s.mon.counters }, out := s.out } = s) ∧
    (reach s a = .open_ → hiddenCounter a sb = true → ∃ t : State, exec (.monSnapLoRead a sb) s = .next t ∧
      t.out = s.out ++ [.readValue (a + 8) 0] ∧ { t with out := s.out } = s)) ∧
  (∀ (enter : Bool) (s : State), s.hif.d3hot ≠ enter → ∃ t : State, exec (.d3hotTransition enter) s = .next t ∧ t.hif.d3hot = enter ∧
    { t with hif := { t.hif with d3hot := s.hif.d3hot }, out := s.out } = s) ∧
  (∀ s : State, ∃ t : State, exec .pcieHotReset s = .next t ∧ t.hif.linkUp = false ∧ t.hif.msix = [] ∧
    t.hif.fetchEn = false ∧ t.err.enable = false ∧ (s.err.enable = true → t.err.staging = []) ∧
    (swf {} s.hif.rings = true → ∀ n, (s.ring n).enable = true → (t.ring n).state = 3))

/-- TRACE_RING_WRITE, DRAIN, IBI_HOLDOFF_EXPIRY and the counters (R699, R712 to R719). -/
def Obligations.TracesAndInterruptsLeave : Prop :=
  (∀ (r : Nat) (b : Bytes) (rest : List Bytes) (s : State), let x := s.region r
    let room : Prop := s.mon.trcEnable = true ∧ (s.mon.trcPi + 2 ^ 32 - s.mon.trcCi) % 2 ^ 32 < 2 ^ s.mon.trcSize
    let leaves : Prop := (x.trcCtrl % 4 = 1 ∨ x.draining = true) ∧ x.trace ≠ []
    let addr := s.mon.trcBase + s.mon.trcPi % 2 ^ s.mon.trcSize * 32
    let lap := s.mon.trcPi / 2 ^ s.mon.trcSize % 2 == 0
    let after : RegionSt := if x.draining = true ∧ rest = []
      then { x with trace := [], draining := false, trcCtrl := x.trcCtrl / 4 * 4, trcFrozen := false } else { x with trace := rest }
    (∀ refused, ¬(leaves ∧ room) → exec (.traceRingWrite r refused) s = .next s) ∧
    (x.trace = b :: rest → leaves → room → s.hif.linkUp = true → ∃ (t : State) (more : List Out),
      exec (.traceRingWrite r false) s = .next t ∧ more.length ≤ 1 ∧
      t.out = s.out ++ .hostWrite addr (slice b 0 4 ++ leBytes 4 (num b 4 4 + b2n lap * 2 ^ 31) ++ slice b 8 24) :: more ∧
      t.region r = after ∧ (∀ q, q ≠ r → t.region q = s.region q) ∧ t.mon = { s.mon with trcPi := (s.mon.trcPi + 1) % 2 ^ 32 } ∧
      { t with regions := s.regions, mon := s.mon, hif := s.hif, out := s.out } = s) ∧
    (∀ refused, x.trace = b :: rest → leaves → room → refused = true ∨ s.hif.linkUp = false → ∃ t : State,
      exec (.traceRingWrite r refused) s = .next t ∧ t.mon.trcEnable = false ∧ t.mon.trcPi = s.mon.trcPi ∧ t.hif.hostErr = true ∧
      t.region r = after ∧ ∀ q, q ≠ r → t.region q = s.region q)) ∧
  (∀ (r : Nat) (s : State), let x := s.region r
    (x.trcCtrl % 4 ≠ 2 ∨ reach s (regionBase r + 0xA00) = .dead → exec (.drain r) s = .next s) ∧
    (x.trcCtrl % 4 = 2 → reach s (regionBase r + 0xA00) ≠ .dead →
      ∃ t : State, exec (.drain r) s = .next t ∧ (∀ q, q ≠ r → t.region q = s.region q) ∧ { t with regions := s.regions } = s ∧
        t.region r = if x.trace = [] then { x with draining := false, trcCtrl := x.trcCtrl / 4 * 4, trcFrozen := false }
          else { x with draining := true })) ∧
  (∀ (k : Nat) (s : State),
    (bit s.sb.ibiPend k = false → exec (.ibiHoldoffExpiry k) s = .next s) ∧
    (bit s.sb.ibiPend k = true → ∃ t : State, exec (.ibiHoldoffExpiry k) s = .next t ∧
      t.clk.ps = max s.clk.ps (sget 0 s.sb.ibiLast k + 1000000000) ∧ t.sb.ibiPend = s.sb.ibiPend - 2 ^ k ∧
      t.out = (if s.sb.ibiEnable = true ∧ s.sb.dynAddr ≠ none then s.out ++ [.ibi k] else s.out) ∧
      { t with clk := s.clk, sb := s.sb, out := s.out } = s)) ∧
  (∀ (code n : Nat) (cell block region : Option Nat) (s : State), code ≠ 0 →
    let t := s.count code cell block region n
    { t with mon := { t.mon with counters := s.mon.counters } } = s ∧ t.mon.counters.length = s.mon.counters.length ∧
    ∀ (i a : Nat) (c : Counter), s.mon.counters[i]? = some (a, c) → t.mon.counters[i]? =
      some (a, if c.sel = code ∧ counterCovers a cell block region = true then { c with count := min 0xFFFFFFFFFFFF (c.count + n) } else c))

/-- POWER_ON, RESET_N, POWER_OFF, RAIL_LOST, D0_RELEASE, DOMAIN_RELEASE, RESET_CLOCK_TIMEOUT and CLOCK_LOST (R648 to R656). -/
def Obligations.PartResetsGiveTheirState : Prop :=
  (∀ s : State,
    let top := s.grade.paceMax
    let fresh : Pwr := { pkgW := s.grade.pkgWatts, cap := top, capGoal := top, margin := top, budget := top, thermal := top }
    let cold (p : Pins) (c : Clock) (cause : Nat) : State :=
      { pending := s.pending, freeCtr := s.freeCtr, out := s.out, clk := { ps := c.ps }, pins := p, plan := s.plan, pwr := fresh
        keep := { s.keep with historyQ := [] }, rst := { lastCause := cause, d0Since := some c.ps, refSince := c.ps } }
    (s.pins.vaux = false →
      exec .powerOn s = .next (cold { s.pins with vaux := true, pg := 31, resetN := true, refclk := true } s.clk 0)) ∧
    (s.pins.vaux = true → ∃ t : State, exec .resetN s = .next (cold s.pins t.clk 1) ∧ s.clk.ps + 1000000 ≤ t.clk.ps) ∧
    (∃ t : State, exec .powerOff s = .next t ∧ t.pins.vaux = false ∧ t.pins.pg = 0 ∧
      t = { cold t.pins s.clk 0 with rst := { (cold t.pins s.clk 0).rst with d0Since := none } })) ∧
  (∀ (s : State) (t0 : Nat), s.rst.d0Since = some t0 → s.pins.vaux = true → s.pins.resetN = true → s.pins.refclk = true →
    let v := s.untilPs (t0 + 10240000)
    exec (.d0Release none) s = .next { v with
      rst := { s.rst with released := 1, d0Since := none, lastRelease := v.clk.ps }, keep := { s.keep with fuseBad := none } } ∧
    ∀ f, ∃ t : State, exec (.d0Release (some f)) s = .next t ∧ t.rst.released = 1 ∧ t.keep.fuseBad = some f ∧
      t.sec.fuseFault = true ∧ t.err.fatal = true ∧ t.clk = v.clk) ∧
  (∀ (s : State) (n : Nat), 1 ≤ n → n < 8 → (∀ k, 1 ≤ k → k < n → s.up k = true) → s.up n = false → bit s.rst.requested n = true →
    let v := s.untilPs (max s.rst.requestAt (s.rst.lastRelease + 2560000))
    let locks (x : Option Nat) : Sparse (Option Nat) :=
      match pllOf n with | none => s.rst.lockSince | some p => sset none s.rst.lockSince p x
    let since := (pllOf n).map fun p => (sget none s.rst.lockSince p : Option Nat).getD v.clk.ps
    let w := v.untilPs (since.getD s.rst.refSince + 20480000)
    exec (.domainRelease true) s = .next { w with
      rst := { s.rst with released := s.rst.released + 2 ^ n, lastRelease := w.clk.ps, heldFrom := none, lockSince := locks since } } ∧
    exec (.domainRelease false) s = .next { v with
      rst := { s.rst with heldFrom := some (s.rst.heldFrom.getD v.clk.ps), lockSince := locks none } } ∧
    ∀ t0, s.rst.heldFrom = some t0 → ∃ t : State, exec .resetClockTimeout s = .next t ∧ t.rst.clockTimeout = true ∧
      t.rst.released = s.rst.released ∧ t.rst.requested = s.rst.released ∧ t.rst.heldFrom = none ∧
      t.clk.ps = max s.clk.ps (t0 + 1000000000)) ∧
  (∀ (s : State) (k : Nat), s.up 0 = true → k < 5 → bit s.pins.pg k = true →
    ∃ t : State, exec (.railLost k) s = .next t ∧ t.rst.released = 1 ∧ t.rst.railLost = true ∧ t.jobs = [] ∧ t.cells = [] ∧
      t.blocks = [] ∧ t.regions = [] ∧ t.stk = [] ∧ t.ports = [] ∧ t.tables = [] ∧ t.syn = {} ∧ t.sht = {} ∧ t.svy = {} ∧
      t.columns = [] ∧ t.reds = [] ∧ t.grp = {} ∧ t.pwr = { coldPwr s with thermal := t.pwr.thermal } ∧
      t.hif.engines = [] ∧ t.err.regionQ = [] ∧ t.err.blockQ = [] ∧ t.err.cellHeld = [] ∧ t.rst.units = [] ∧ t.rst.requested = 0 ∧
      t.rst.step = none ∧ t.rst.done = 0 ∧ (∀ e ∈ t.mon.counters, 0x91000 ≤ e.1 ∧ e.1 < 0x91400) ∧
      t.pins.pg = s.pins.pg - 2 ^ k) ∧
  (∀ (s : State) (n : Nat), n < 8 → s.up n = true → ∃ t : State, exec (.clockLost n) s = .next t ∧
    t.rst.released = s.rst.released ∧ (∀ p, pllOf n = some p → sget none t.rst.lockSince p = none) ∧ t.err.fatal = true ∧ t.hif.fetchEn = false)

/-- The software reset rows and SW_RESET_RELEASE (R655, R657 to R660). -/
def Obligations.SoftwareResetsNeedIdleUnits : Prop :=
  let one (row : Instr) (s : State) (cls n : Nat) (may : Bool) (act : State → State) : Prop :=
    (s.rst.ready = false ∨ s.inReset cls n = true → exec row s = .next s) ∧
    (s.rst.ready = true → s.inReset cls n = false → may = false → exec row s = .next { s with rst := { s.rst with swRej := true } }) ∧
    (s.rst.ready = true → s.inReset cls n = false → may = true → ∃ t : State, exec row s = .next t ∧
      t = { act s with rst := { (act s).rst with units := (act s).rst.units ++ [{ cls, num := n, since := (act s).clk.ps }] } } ∧
      t.inReset cls n = true)
  (∀ (s : State) (k : Nat), k < 10 → one (.datumBlockReset (2 ^ k)) s 0 k (datumAccepts s k) fun s => resetDatum s k) ∧
  (∀ (s : State) (n : Nat), n < 12 →
    ((s.stackPlan n).fenced = true → exec (.mscReset (2 ^ n)) s = .next s) ∧
    ((s.stackPlan n).fenced = false → one (.mscReset (2 ^ n)) s 1 n (!s.jobActive) (resetMsc n))) ∧
  (∀ (s : State) (k : Nat),
    ((resetDatum s 1).pwr.pace = s.pwr.pace ∧ (resetDatum s 1).pwr.setpoint = s.pwr.setpoint ∧ (resetDatum s 1).pwr.avsOk = false ∧
      (resetDatum s 1).pwr.vtableOk = false ∧ (resetDatum s 1).regions = s.regions) ∧
    ((resetDatum s 2).thm.tinOk = false ∧ (resetDatum s 2).thm.toutOk = false ∧ (resetDatum s 2).thm.kFactor = s.thm.kFactor ∧
      (resetDatum s 2).thm.tinMax = s.thm.tinMax ∧ (resetDatum s 2).thm.wMax = s.thm.wMax) ∧
    ((resetDatum s 7).hif.rings = [] ∧ (resetDatum s 7).hif.msix = [] ∧ (resetDatum s 7).hif.fetchEn = false ∧
      (resetDatum s 7).hif.linkUp = s.hif.linkUp) ∧
    ((resetLnk k s).grp.diam = if k = 0 then 0 else s.grp.diam)) ∧
  (∀ (s : State) (n : Nat), n < 8 → one (.lnkReset (2 ^ n)) s 2 n (!s.sht.enable) (resetLnk n)) ∧
  (∀ (s : State) (n : Nat), n < 16 → one (.copyEngineReset (2 ^ n)) s 3 n (!s.jobActive) id) ∧
  (∀ (s : State) (n : Nat), n < 8 → one (.linkEngineReset (2 ^ n)) s 4 n (!s.jobActive) fun s =>
    s.updPort n fun p => { p with blockBuf := [] }) ∧
  (∀ (s : State) (r : Nat), r < 32 → s.regionReason r = 0 →
    one (.regionReset r) s 5 r ((regionCells r).all fun c => (s.heldBy c).isEmpty) (resetRegion r)) ∧
  (∀ (s : State) (r k : Nat), r < 32 → k < 12 → s.blockReason (r * 12 + k) = 0 →
    one (.blockReset r k) s 6 (r * 12 + k) ((blockCells (r * 12 + k)).all fun c => (s.heldBy c).isEmpty) (resetBlock (r * 12 + k))) ∧
  (∀ (s : State) (c : Nat), s.goodCell c = true → one (.cellReset c) s 7 c (s.heldBy c).isEmpty (resetCell c)) ∧
  (∀ (s : State) (u : UnitReset),
    (let due := s.rst.units.filter fun u => !u.dead
     (due.find? fun u => !u.held) = some u ∨ (∀ x ∈ due, x.held = true) ∧ due.head? = some u) →
    let mine (x : UnitReset) : Bool := x.cls == u.cls && x.num == u.num
    let v := s.untilPs (u.since + 640000)
    exec (.swResetRelease true) s = .next { v with rst := { s.rst with units := s.rst.units.filter fun x => !mine x } } ∧
    exec (.swResetRelease false) s = .next { v with rst := { s.rst with
      units := s.rst.units.map fun x => if mine x then { x with held := true } else x } }) ∧
  (∀ (s : State) (c d : Nat), (resetCell c s).cell d = if d = c then (resetCell c s).cell c else s.cell d) ∧
  (∀ (s : State) (c : Nat), ((resetCell c s).cell c).stash.written = [] ∧ ((resetCell c s).cell c).seq = {} ∧
    ((resetCell c s).cell c).misc = (s.cell c).misc ∧ ((resetCell c s).cell c).plumb = (s.cell c).plumb ∧
    ((resetCell c s).cell c).mm.tol0 = (s.cell c).mm.tol0 ∧ ((resetCell c s).cell c).mm.mismatches = (s.cell c).mm.mismatches ∧
    ((resetCell c s).cell c).mm.wb = [] ∧ ((resetCell c s).cell c).mm.ab = [] ∧ ((resetCell c s).cell c).mm.acc = [])

/-- The bring-up rows but LOAD_FW, and their end (R663 to R666). -/
def Obligations.BringUpStepsDoTheirWork : Prop :=
  let may (s : State) (sb : Bool) (n : Nat) : Prop := s.up 0 = true ∧ s.rst.railLost = false ∧ s.rst.ready = false ∧
    s.rst.owner = sb ∧ s.rst.step = none ∧ s.rst.done + 1 = n
  let begun (s : State) (n : Nat) : Rst :=
    { s.rst with step := some (n, s.clk.ps), worked := true, stepFail := 0, failed := false }
  (∀ (s : State) (sb : Bool) (row : Instr) (n : Nat), s.up 0 = true → s.rst.railLost = false → s.rst.ready = false → s.rst.step = none →
    (row, n) ∈ [(Instr.clocks sb, 1), (.loadFw sb, 2), (.trainMem sb [] [] [], 3), (.testStack sb [] [] false, 4), (.releaseCore sb, 5),
      (.trainLinks sb [], 6), (.publishSurvey sb 0 0, 7), (.lock sb, 8), (.ready sb, 9)] →
    (s.rst.owner ≠ sb → exec row s = .next { s with rst := { s.rst with ownerRej := true } }) ∧
    (s.rst.owner = sb → s.rst.done + 1 ≠ n → exec row s = .next { s with rst := { s.rst with orderRej := true } }) ∧
    ∀ t0, let w : State := { s with rst := { s.rst with step := some (n, t0), worked := false } }
      ∃ t : State, exec row w = .next t ∧ t.rst.worked = true ∧ t.rst.step = some (n, t0)) ∧
  (∀ (s : State) (sb : Bool), may s sb 1 →
    (s.pins.pg = 31 → slotFault 1 s.keep.test = 0 → exec (.clocks sb) s = .next { s with
      rst := { begun s 1 with requested := s.rst.requested ||| 0xE, requestAt := s.clk.ps }
      out := s.out ++ [.avs 1 (.writeVoltage (max 600 (min 800 s.keep.vstoreMv)))]
      pwr := { s.pwr with vstoreCmd := some (max 600 (min 800 s.keep.vstoreMv)), lastTry := s.clk.ps } }) ∧
    (s.pins.pg ≠ 31 → exec (.clocks sb) s = .next { s with rst := { begun s 1 with stepFail := 3 } }) ∧
    (s.pins.pg = 31 → slotFault 1 s.keep.test ≠ 0 → ∃ t : State, exec (.clocks sb) s = .next t ∧ t.rst.stepFail = 1 ∧
      t.rst.requested = s.rst.requested ∧ t.out = s.out)) ∧
  (∀ (k : Nat) (x : NorSlot),
    (slotFault k x = 1 ↔ x.commit ≠ 0x5A) ∧ (slotFault k x = 2 ↔ x.commit = 0x5A ∧ x.kind ≠ k) ∧
    (slotFault k x = 0 → x.kind = k ∧ x.length + 21 ≤ (norSlotAt k 0).2 ∧ x.crc = crc32c (slotHeader x ++ slice x.raw 0 x.length)) ∧
    (slotFault k x = 4 → x.crc ≠ crc32c (slotHeader x ++ slice x.raw 0 x.length)) ∧ slotFault k x ≤ 4) ∧
  (∀ (s : State) (sb : Bool) (trained ids : List Nat) (broken : List (Nat × Nat)), may s sb 3 →
    ∃ t : State, exec (.trainMem sb trained ids broken) s = .next t ∧ t.rst.stackIds = ids ∧
      (t.rst.memFast = true ↔ ∃ x, newestSlot s.keep.trainA s.keep.trainB 2 = some x ∧ x.serial = s.keep.serial ∧ x.stackIds = ids) ∧
      (∀ n, n < 12 → (s.stackPlan n).fenced = true → t.stackPlan n = s.stackPlan n) ∧
      (∀ n, n < 12 → (s.stackPlan n).fenced = false →
        let p := s.stackPlan n
        let pairs := ((p.marked.filter fun q => broken.contains (n, q)) ++ p.badUnits).dedup
        ((t.stackPlan n).fenced = true ↔ n ∉ trained ∨ pairs ≠ [] ∧ 32 < p.sparesUsed + pairs.length) ∧
        ((t.stackPlan n).fenced = false → (t.stackPlan n).sparesUsed = p.sparesUsed + pairs.length ∧ (t.stackPlan n).marked = [] ∧
          (t.stackPlan n).badUnits = [] ∧ (t.stack n).trained = true ∧ (t.stack n).data = [])) ∧
      t.plain = ((List.range 8).filter fun n => !(t.stackPlan n).fenced) ∧
      (t.rst.stepFail = 6 ↔ ∀ n, n < 12 → (t.stackPlan n).fenced = true)) ∧
  (∀ (s : State) (sb : Bool) (fs : List Finding) (vias : List (Nat × Nat)), may s sb 4 →
    exec (.testStack sb fs vias true) s = .next { s with rst := { begun s 4 with stepFail := 7 } } ∧
    exec (.testStack sb [] [] false) s = .next { s with rst := begun s 4 } ∧
    (∀ f : Finding,
      let p := s.cellPlan f.unit
      let bonds (spared : List Nat) : List Nat := (f.items.filter fun b => decide (b < 560) && !spared.contains b).dedup
      s.goodCell f.unit = true →
      (f.part = 1 → p.westGone = false → ∃ t : State, exec (.testStack sb [f] [] false) s = .next t ∧
        ((bonds p.westSpares).length ≤ 16 - p.westSpares.length →
          t.cellPlan f.unit = { p with westSpares := p.westSpares ++ bonds p.westSpares }) ∧
        (16 - p.westSpares.length < (bonds p.westSpares).length → (t.cellPlan f.unit).westGone = true) ∧
        ∀ d, d ≠ f.unit → t.cellPlan d = s.cellPlan d) ∧
      (f.part ≠ 1 → p.eastGone = false → ∃ t : State, exec (.testStack sb [f] [] false) s = .next t ∧
        ((bonds p.eastSpares).length ≤ 16 - p.eastSpares.length →
          t.cellPlan f.unit = { p with eastSpares := p.eastSpares ++ bonds p.eastSpares }) ∧
        (16 - p.eastSpares.length < (bonds p.eastSpares).length → (t.cellPlan f.unit).eastGone = true))) ∧
    (∀ r g x, r < 32 → g < 4 → x < 1024 → s.regionReason r = 0 → (s.regionPlan r).capped = false →
      ∃ t : State, exec (.testStack sb [] [(4 * r + g, x)] false) s = .next t ∧
        (t.region r).pw.viaRatio = max (s.region r).pw.viaRatio x ∧ ((t.regionPlan r).capped = true ↔ 1536 < 5 * x))) ∧
  (∀ (s : State) (sb : Bool), may s sb 5 → ∃ t : State, exec (.releaseCore sb) s = .next t ∧
    let row (r : Nat) : Bool := s.regionReason r == 0 && rowOk s.grade.paceMax s.keep.voltageTable r
    let target (r : Nat) : Nat := 1050 + 5 * num s.keep.voltageTable (r * 57 + s.pwr.pace) 1
    let want := (((List.range 32).filter fun r => row r && num s.keep.voltageTable (r * 57 + s.pwr.pace) 1 != 255).map target).foldl max 0
    let goal := max 550 (min 800 (cdiv (want + 30) 2))
    t.pwr.vtable = s.keep.voltageTable ∧ t.pwr.vtableOk = true ∧ t.rst.requested = s.rst.requested ||| 0x70 ∧
    t.pwr.command = (if s.pwr.setpoint < goal then some goal else s.pwr.command) ∧ t.rst.requestAt = t.clk.ps ∧
    t.clk.ps = s.clk.ps + 500000 * (goal - s.pwr.setpoint) ∧
    (∀ r, r < 32 → (t.region r).pw.guard = 20 ∧ (t.region r).pw.gated = true ∧ t.regionReason r =
      if s.regionReason r = 0 ∧ rowOk s.grade.paceMax s.keep.voltageTable r = false then 1 else s.regionReason r) ∧
    (t.rst.stepFail = 8 ↔ ∀ r, r < 32 → t.regionReason r ≠ 0)) ∧
  (∀ (s : State) (sb : Bool) (fs : List LinkFinding), may s sb 6 →
    exec (.trainLinks sb fs) s = .next { s with
      rst := { begun s 6 with requested := s.rst.requested ||| 0x80, requestAt := s.clk.ps, linkFind := fs } }) ∧
  (∀ (s : State) (t0 : Nat) (f : LinkFinding), s.rst.step = some (6, t0) → s.rst.worked = true → s.rst.stepFail = 0 → s.up 7 = true →
    s.rst.linkFind = [f] → (f.port < 8 → (∀ l, l < 4 → l ∈ f.lanes) ∨ (∀ l, 4 ≤ l → l < 8 → l ∈ f.lanes) →
      let y := ((((newestSlot s.keep.trainA s.keep.trainB 2).filter fun x => x.serial == s.keep.serial).map (·.links)).getD [])[f.port]?
      let old := y.filter fun x => x.serial == f.serial && x.port == f.partnerPort
      ∃ t : State, exec .brgStepComplete s = .next t ∧ t.rst.done = 6 ∧ t.rst.linkFind = [] ∧ (t.port f.port).up = true ∧
        (∀ l, l < 8 → (bit (t.port f.port).lanes l = true ↔ l ∈ f.lanes)) ∧
        (t.port f.port).fast = (old.isSome && !f.full) ∧
        (t.port f.port).taps = f.taps.foldl (fun m e => sset 0 m e.1 e.2) [] ∧
        (t.port f.port).rx = f.rx.foldl (fun m e => sset {} m e.1 e.2) [] ∧
        (t.port f.port).partnerSerial = f.serial ∧ (t.port f.port).partnerPort = f.partnerPort ∧
        ∀ p, p ≠ f.port → t.port p = s.port p)) ∧
  (∀ (s : State) (sb : Bool), may s sb 7 → ∃ (t : State) (x : Snap), exec (.publishSurvey sb 0 0) s = .next t ∧
    let h := s.keep.history.filter fun e => entryFault e == 0
    t.svy.window = some x ∧ x.generation = 1 ∧ x.fromTest = !(slotValid s.keep.surveyA || slotValid s.keep.surveyB) ∧
    x.plan = closePlan { mergePlan s.plan ((h.map entryPlan).foldl mergePlan
      (((newestOf s.keep.surveyA s.keep.surveyB).map (·.plan)).getD s.keep.testPlan)) with stk := s.plan.stk } ∧ t.plan = x.plan ∧
    (∀ c, (s.cellPlan c).reason ≠ 0 → (t.cellPlan c).reason = (s.cellPlan c).reason) ∧
    (∀ c, kindOf c = .S → (sget {} x.plan.cells c : CellPlan).reason ≠ 0 → (sget {} x.plan.blocks (blockIndex c) : BlockPlan).reason ≠ 0) ∧
    t.thm.l0Suspect = s.thm.l0Suspect ||| historyL0 h ∧
    (slotValid t.keep.surveyA = true ∧ t.keep.surveyA.data = some x ∨ slotValid t.keep.surveyB = true ∧ t.keep.surveyB.data = some x) ∧
    (s.rst.memFast = false → ∃ y, newestSlot t.keep.trainA t.keep.trainB 2 = some y ∧ y.serial = s.keep.serial ∧
      y.stackIds = s.rst.stackIds ∧ y.links = savedLinks s)) ∧
  (∀ (s : State) (sb : Bool), may s sb 8 → exec (.lock sb) s = .next { s with
    rst := { begun s 8 with locked := true }
    sec := { s.sec with meas5 := some (sha3 (rwlString s)) } }) ∧
  (∀ (s : State) (sb : Bool), may s sb 9 → exec (.ready sb) s = .next { s with
    rst := { begun s 9 with ready := true }
    sht := { s.sht with opened := true, openCycle := s.clk.cycles, openPs := s.clk.ps, lastDone := some s.clk.cycles, tick := 0 }
    keep := { s.keep with lastSnap := s.clk.ps } }) ∧
  (∀ (s : State) (n t0 : Nat), s.rst.step = some (n, t0) → s.rst.worked = true →
    (s.rst.stepFail = 0 → (n = 1 → s.up 1 = true ∧ s.up 2 = true ∧ s.up 3 = true) →
      (n = 5 → s.up 4 = true ∧ s.up 5 = true ∧ s.up 6 = true) → (n = 6 → s.up 7 = true ∧ s.rst.linkFind = []) →
      exec .brgStepComplete s = .next { s with
        rst := { s.rst with done := n, step := none, worked := false }
        sec := if n = 2 then { s.sec with fwRunning := true, window := [] } else s.sec }) ∧
    (s.rst.stepFail ≠ 0 → ∃ t : State, exec .brgStepComplete s = .next t ∧ t.rst.step = none ∧ t.rst.failed = true ∧
      t.rst.cause = s.rst.stepFail ∧ t.rst.done = s.rst.done ∧ t.rst.released = s.rst.released ∧
      t.sec.fwRunning = s.sec.fwRunning ∧ (n = 2 → t.sec.windowShut = false)))

/-- Staging, LOAD_FW, the fuse rows and SIGNATURE_DONE (R678 to R687). -/
def Obligations.ImagesAreVerifiedAndFusesBlown : Prop :=
  (∀ (s : State) (off : Nat) (data : Bytes), s.up 0 = true →
    (s.rst.owner = false → s.sec.windowShut = false → off + data.length ≤ 16777216 → ∃ t : State,
      exec (.stagingWrite off data) s = .next t ∧ Ram.read t.sec.window off data.length = data ∧
      (∀ a, a < off ∨ off + data.length ≤ a → t.sec.window.get a = s.sec.window.get a) ∧
      { t with sec := { t.sec with window := s.sec.window } } = s) ∧
    (s.rst.owner = true → exec (.stagingWrite off data) s = .next { s with sec := { s.sec with stageRej := true } }) ∧
    (s.rst.owner = false → s.sec.windowShut = true → exec (.stagingWrite off data) s = .next s)) ∧
  (∀ (s : State) (v : Nat), s.up 0 = true → s.inReset 0 8 = false →
    (s.rst.owner = false → s.sec.windowShut = false → exec (.secStageWrite v) s = .next { s with
      sec := { s.sec with length := v % 2 ^ 24, staged := bit v 24, source := false } }) ∧
    (s.rst.owner = true → exec (.secStageWrite v) s = .next { s with sec := { s.sec with stageRej := true } })) ∧
  (∀ (s : State) (sb : Bool), s.up 0 = true → s.rst.railLost = false → s.rst.ready = false → s.rst.owner = sb →
    s.rst.step = none → s.rst.done = 1 →
    let r : Rst := { s.rst with step := some (2, s.clk.ps), worked := true, stepFail := 0, failed := false }
    let len := s.sec.length
    let b := Ram.read s.sec.window 0 len
    let k := bits (num b 4 4) 17 16
    let signed := slice b 0 (256 + num b 12 4)
    let good : Bool := !s.sec.fuseFault && (badHeaderWord b).isNone && len == 256 + num b 12 4 + 29792 &&
      s.keep.keyDigests.getD k 0 != 0 && !bit s.keep.revoked k && leNat (shake256 (slice b 64 64) 32) == s.keep.keyDigests.getD k 0 &&
      slhVerify slh256s (slice b 64 64) [0x45, 0x42, 0x37, 0x2D, 0x46, 0x57] signed (slice b (256 + num b 12 4) 29792) &&
      decide (s.keep.rollback ≤ num b 8 1)
    (s.sec.staged = false ∨ len = 0 → exec (.loadFw sb) s = .next { s with
      rst := { r with stepFail := 4 }, sec := { s.sec with windowShut := true } }) ∧
    (s.sec.staged = true → len ≠ 0 → ∃ t : State, exec (.loadFw sb) s = .next t ∧
      if good then t = { s with
        rst := r
        sec := { s.sec with windowShut := true, keyIndex := k, svn := num b 8 1, version := num b 16 4, digest := sha3 signed
                            identity := some (deriveIdentity s.keep.secret) } }
      else t.rst.stepFail = 5 ∧ t.sec.keyIndex = s.sec.keyIndex ∧ t.sec.svn = s.sec.svn ∧ t.sec.digest = s.sec.digest ∧
        t.sec.identity = s.sec.identity ∧ t.sec.fwRunning = s.sec.fwRunning ∧ t.sec.windowShut = true)) ∧
  (∀ (s : State) (v : Nat), s.rst.ready = true → s.inReset 0 8 = false →
    let k := v % 4
    (s.keep.rollback ≠ s.sec.svn → s.sec.fuseOp = none →
      exec .commit s = .next { s with sec := { s.sec with fuseOp := some (0, s.sec.svn) } }) ∧
    (s.keep.rollback = s.sec.svn ∨ s.sec.fuseOp.isSome = true →
      exec .commit s = .next { s with sec := { s.sec with rollbackRej := true } }) ∧
    (bit v 31 = true → k ≠ s.sec.keyIndex → bit s.keep.revoked k = false → s.sec.fuseOp = none →
      exec (.secRevoke v) s = .next { s with sec := { s.sec with fuseOp := some (1, k) } }) ∧
    (bit v 31 = true → k = s.sec.keyIndex ∨ bit s.keep.revoked k = true ∨ s.sec.fuseOp.isSome = true →
      exec (.secRevoke v) s = .next { s with sec := { s.sec with revokeRej := true } })) ∧
  (∀ (s : State) (v : Nat),
    (s.sec.fuseOp = none → exec .fuseOperationDone s = .next s) ∧
    (s.sec.fuseOp = some (0, v) → ∃ t : State, exec .fuseOperationDone s = .next t ∧ t.sec.fuseOp = none ∧
      t.keep.rollback = v ∧ t.keep.revoked = s.keep.revoked) ∧
    (s.sec.fuseOp = some (1, v) → ∃ t : State, exec .fuseOperationDone s = .next t ∧ t.sec.fuseOp = none ∧
      t.keep.rollback = s.keep.rollback ∧ ∀ k, bit t.keep.revoked k = (bit s.keep.revoked k || k == v))) ∧
  (∀ (s : State) (doe : Bool) (rest : List Nat) (b : Bytes), s.sec.signQ = b2n doe :: rest →
    (conn s doe).signing = some b →
    let x : Spdm := { conn s doe with signing := none, toSign := [] }
    ∃ (rnd : Bytes) (n : Nat), rnd.length = 32 ∧
      let whole := b ++ slhSign slh256f ((s.sec.identity.map (·.priv)).getD []) rnd [] (conn s doe).toSign
      let cut := { s with sec := { s.sec with signQ := rest }, freeCtr := n }
      ((conn s doe).deferred = true → exec .signatureDone s = .next (updConn cut doe fun _ => { x with ready := some whole })) ∧
      ((conn s doe).deferred = false → exec .signatureDone s = .next (respond (updConn cut doe fun _ => x) doe whole))) ∧
  (∀ secret : Bytes, let k := deriveIdentity secret
    let text : Bytes := [0x45, 0x42, 0x37, 0x20, 0x69, 0x64, 0x65, 0x6E, 0x74, 0x69, 0x74, 0x79]
    k.skSeed ++ k.skPrf ++ k.pkSeed = shake256 (secret ++ [1] ++ text) 96 ∧
    k.skSeed.length = 32 ∧ k.skPrf.length = 32 ∧ k.pkSeed.length = 32 ∧ k.pkRoot = slhRoot slh256f k.skSeed k.pkSeed ∧
    k.priv = k.skSeed ++ k.skPrf ++ k.pkSeed ++ k.pkRoot)

/-- The state after reset keeps `SecureBoot`. -/
def Obligations.SecureBootHoldsAtReset : Prop := SecureBoot State.reset

/-- `SecureBoot` is kept by every step, and no fuse is ever cleared. -/
def Obligations.StepsKeepSecureBootAndFusesOnlyRise : Prop :=
  ∀ s t : State, SecureBoot s → step s = .next t →
    SecureBoot t ∧ s.keep.rollback ≤ t.keep.rollback ∧ (∀ k, bit s.keep.revoked k = true → bit t.keep.revoked k = true) ∧
    t.keep.keyDigests = s.keep.keyDigests

/-- The SPDM rows (R690 to R692; the layouts are the model's, log entry 15). -/
def Obligations.SpdmRequestsAreAnswered : Prop :=
  let reply (s : State) (doe : Bool) (b : Bytes) : State := if doe then s.emit (.reply b) else replyMctp s b
  (∀ (s : State) (doe : Bool) (b : Bytes), let x := conn s doe
    (x.transfer = 0 ∨ x.ackHead.length + b.length ≤ x.transfer →
      respond s doe b = reply (updConn s doe fun x => { x with ackHead := [] }) doe (x.ackHead ++ b)) ∧
    (x.transfer ≠ 0 → x.transfer < x.ackHead.length + b.length → ∃ u : State, respond s doe b =
        reply u doe (x.ackHead ++ (leBytes 1 (max 0x12 x.version) ++ [0x7F, 0x0F, 0] ++ leBytes 1 ((x.token + 1) % 256))) ∧
      conn u doe = { x with ackHead := [], chunkOut := some b, chunkSeq := 0, token := (x.token + 1) % 256 } ∧
      conn u (!doe) = conn s (!doe))) ∧
  (∀ b : Bytes, ((mctpPackets b).flatMap (·.data) = b) ∧ ∀ p ∈ mctpPackets b, p.data.length ≤ 64) ∧
  (∀ (s : State) (doe : Bool) (req : Bytes) (row : Instr), s.up 0 = true → s.sec.fwRunning = false →
    row ∈ [Instr.getVersion doe req, .getCapabilities doe req, .negotiateAlgorithms doe req, .getDigests doe req,
      .getCertificate doe req, .challenge doe req, .getMeasurements doe req, .chunkSend doe req, .chunkGet doe req,
      .respondIfReady doe req] →
    exec row s = .next (respond s doe (leBytes 1 (max 0x12 (conn s doe).version) ++ [0x7F, 0x03, 0]))) ∧
  (∀ (s : State) (doe : Bool) (req : Bytes), s.up 0 = true → s.sec.fwRunning = true →
    let x := conn s doe
    let answers (row : Instr) (b : Bytes) (y : Spdm) : Prop := ∃ u : State, exec row s = .next (respond u doe b) ∧
      conn u doe = y.noted (num req 1 1) (req ++ b) ∧ conn u (!doe) = conn s (!doe) ∧
      { u with sec := s.sec, freeCtr := s.freeCtr } = s
    let fails (row : Instr) (code : Byte) : Prop :=
      exec row s = .next (respond (updConn s doe fun x => { x with meas := [] }) doe (leBytes 1 (max 0x12 x.version) ++ [0x7F, code, 0]))
    let v := num req 0 1
    let chain := chainBytes s
    (num req 1 1 = 0x84 → v = 0x10 → answers (.getVersion doe req) [0x10, 0x04, 0, 0, 0, 2, 0x00, 0x12, 0x00, 0x13] {}) ∧
    (num req 1 1 = 0x84 → v ≠ 0x10 → fails (.getVersion doe req) 0x41) ∧
    (num req 1 1 = 0xE1 → v = 0x12 ∨ v = 0x13 → 20 ≤ req.length → 42 ≤ num req 12 4 → ∃ a b : Word,
      answers (.getCapabilities doe req) (leBytes 1 v ++ [0x61, 0, 0, 0, 16, 0, 0] ++ leBytes 4 0x20016 ++ leBytes 4 a.toNat ++
        leBytes 4 b.toNat) { x with version := v, caps := true, algs := false, transfer := num req 12 4 }) ∧
    (num req 1 1 = 0xE3 → x.caps = true → v = x.version → answers (.negotiateAlgorithms doe req)
      (leBytes 1 v ++ [0x63, 0, 0, 44, 0, 1, 2] ++ leBytes 4 0x20 ++ leBytes 4 0 ++ leBytes 4 0x10 ++ List.replicate 12 0 ++
        [1, 0, 0, 0, 4, 0, 1, 0] ++ leBytes 4 s.keep.vendor) { x with algs := true }) ∧
    (num req 1 1 = 0xE3 → x.caps = false → fails (.negotiateAlgorithms doe req) 0x04) ∧
    (num req 1 1 = 0x81 → x.algs = true → v = x.version → answers (.getDigests doe req)
      (leBytes 1 v ++ [0x01, 1, 1] ++ leBytes 48 (sha3 chain)) x) ∧
    (num req 1 1 = 0x82 → x.algs = true → v = x.version → num req 2 1 % 16 = 0 → num req 4 2 < chain.length →
      let part := (chain.drop (num req 4 2)).take (num req 6 2)
      answers (.getCertificate doe req) (leBytes 1 v ++ [0x02, 0, 0] ++ leBytes 2 part.length ++
        leBytes 2 (chain.length - num req 4 2 - part.length) ++ part) x) ∧
    (num req 1 1 = 0x82 → x.algs = true → v = x.version → num req 2 1 % 16 ≠ 0 ∨ chain.length ≤ num req 4 2 →
      fails (.getCertificate doe req) 0x01) ∧
    (∀ d, num req 1 1 = 0xE0 → x.algs = true → v = x.version → num req 3 1 ≠ 0 → measurement s (num req 3 1) = some d →
      let head := leBytes 1 v ++ [0x60, 0, 0, 1, 55, 0, 0] ++ leBytes 1 (num req 3 1) ++ [1, 51, 0] ++
        leBytes 1 (measType (num req 3 1)) ++ [48, 0] ++ leBytes 48 d
      (bit (num req 2 1) 0 = false → ∃ tail : Bytes, answers (.getMeasurements doe req) (head ++ tail) x) ∧
      (bit (num req 2 1) 0 = true → x.signing = none → s.sec.signQ = [] → ∃ (u : State) (tail : Bytes),
        exec (.getMeasurements doe req) s = .next u ∧ u.sec.signQ = [b2n doe] ∧ u.out = s.out ∧
        conn u doe = { x with signing := some (head ++ tail), toSign := x.covered 0xE0 (req ++ (head ++ tail)), deferred := false
                              certs := [], meas := [] })) ∧
    (num req 1 1 = 0xE0 → x.algs = true → v = x.version → num req 3 1 = 0 → bit (num req 2 1) 0 = false → ∃ tail : Bytes,
      answers (.getMeasurements doe req) (leBytes 1 v ++ [0x60] ++ leBytes 1 (presentMeas s).length ++ [0, 0, 0, 0, 0] ++ tail) x) ∧
    (num req 1 1 = 0x83 → x.algs = true → v = x.version → num req 2 1 = 0 → x.signing = none → s.sec.signQ = [] →
      ∃ (u : State) (tail : Bytes), exec (.challenge doe req) s = .next u ∧ u.sec.signQ = [b2n doe] ∧ u.out = s.out ∧
        let b := leBytes 1 v ++ [0x03, 0, 1] ++ leBytes 48 (sha3 chain) ++ tail
        conn u doe = { x with signing := some b, toSign := x.covered 0x83 (req ++ b), deferred := false, certs := [], meas := [] }) ∧
    (num req 1 1 = 0x83 → x.algs = true → v = x.version → num req 2 1 = 0 → x.signing = none → s.sec.signQ ≠ [] → ∃ u : State,
      exec (.challenge doe req) s = .next (respond u doe (leBytes 1 (max 0x12 v) ++ [0x7F, 0x42, 0, 17, 0x83] ++
        leBytes 1 ((x.token + 1) % 256) ++ [1])) ∧ u.sec.signQ = s.sec.signQ ++ [b2n doe] ∧ (conn u doe).deferred = true ∧
      (conn u doe).signing.isSome = true ∧ u.out = s.out) ∧
    (x.algs = false → (num req 1 1 = 0x81 → fails (.getDigests doe req) 0x04) ∧ (num req 1 1 = 0x82 → fails (.getCertificate doe req) 0x04) ∧
      (num req 1 1 = 0x83 → fails (.challenge doe req) 0x04) ∧ (num req 1 1 = 0xE0 → fails (.getMeasurements doe req) 0x04))) ∧
  (∀ (s : State) (doe : Bool) (req : Bytes), s.up 0 = true → s.sec.fwRunning = true →
    let x := conn s doe
    let part := slice req (if num req 4 2 = 0 then 16 else 12) (num req 8 4)
    (num req 1 1 = 0x85 → x.caps = true → num req 4 2 = 0 ∨ num req 4 2 = x.chunkInSeq → bit (num req 2 1) 0 = false →
      exec (.chunkSend doe req) s = .next (respond
        (updConn s doe fun x => { x with chunkIn := if num req 4 2 = 0 then part else x.chunkIn ++ part, chunkInSeq := num req 4 2 + 1 })
        doe (leBytes 1 x.version ++ [0x05, 0] ++ leBytes 1 (num req 3 1) ++ leBytes 2 (num req 4 2)))) ∧
    (num req 1 1 = 0x85 → x.caps = true → num req 4 2 = 0 ∨ num req 4 2 = x.chunkInSeq → bit (num req 2 1) 0 = true →
      let whole := if num req 4 2 = 0 then part else x.chunkIn ++ part
      ∀ row ∈ [Instr.getVersion doe whole, .getCapabilities doe whole, .negotiateAlgorithms doe whole, .getDigests doe whole,
          .getCertificate doe whole, .challenge doe whole, .getMeasurements doe whole],
        exec (.chunkSend doe req) s = exec row (updConn s doe fun x => { x with
          chunkIn := [], chunkInSeq := 0
          ackHead := leBytes 1 x.version ++ [0x05, 0] ++ leBytes 1 (num req 3 1) ++ leBytes 2 (num req 4 2) })) ∧
    (∀ b, num req 1 1 = 0x86 → x.chunkOut = some b → num req 3 1 = x.token → num req 4 2 = x.chunkSeq →
      ∃ (u : State) (piece : Bytes), exec (.chunkGet doe req) s = .next (respond u doe piece) ∧
        conn u doe = { x with
          chunkSeq := x.chunkSeq + 1
          chunkOut := if b.length ≤ (x.chunkSeq + 1) * (x.transfer - 16) then none else some b }) ∧
    (∀ b, num req 1 1 = 0xFF → num req 3 1 = x.token → x.ready = some b → exec (.respondIfReady doe req) s =
      .next (respond (updConn s doe fun x => { x with ready := none, deferred := false }) doe b)))

/-- The Stavsan rows (R703 to R711). -/
def Obligations.StavsanMessagesAreCarriedOut : Prop :=
  let sent (s : State) (cmd code : Byte) (data : Bytes) : State :=
    replyMctp s ([0x7F] ++ leBytes 4 s.keep.vendor ++ [cmd, code] ++ data)
  ∀ s : State, s.up 0 = true →
    (exec .getStatus s = .next (sent s 1 0
      (([0x20004, 0x20008, 0x10000, 0x80000, 0x70000, 0x50010, 0x50014].map fun a => (readReg s a true).1).flatMap (leBytes 4)))) ∧
    (exec .claimBrg s = .next (sent { s with
      rst := { s.rst with owner := true }, sec := { s.sec with length := 0, staged := false } } 2 0 [])) ∧
    (s.rst.owner = true → exec .releaseBrg s = .next (sent { s with
      rst := { s.rst with owner := false }, sec := { s.sec with length := 0, staged := false } } 3 0 [])) ∧
    (s.rst.owner = false → exec .releaseBrg s = .next (sent s 3 3 [])) ∧
    (∀ n, n < 16 → s.rst.railLost = false → s.rst.ready = false →
      (s.rst.owner = false → exec (.writeStep n) s = .next (sent { s with rst := { s.rst with ownerRej := true } } 4 3 [])) ∧
      (s.rst.owner = true → s.rst.step = none → n = s.rst.done + 1 → exec (.writeStep n) s = .next (sent { s with
        rst := { s.rst with step := some (n, s.clk.ps), worked := false, stepFail := 0, failed := false }
        sec := if n = 2 then { s.sec with windowShut := true } else s.sec } 4 0 [])) ∧
      (s.rst.owner = true → s.rst.step ≠ none ∨ n ≠ s.rst.done + 1 →
        exec (.writeStep n) s = .next (sent { s with rst := { s.rst with orderRej := true } } 4 1 []))) ∧
    (∀ (off : Nat) (data : Bytes),
      (data.length < 4 ∨ 4096 < data.length ∨ data.length % 4 ≠ 0 → exec (.stageData off data) s = .next (sent s 5 2 [])) ∧
      (4 ≤ data.length → data.length ≤ 4096 → data.length % 4 = 0 → s.rst.owner = true → s.sec.windowShut = false →
        off + data.length ≤ 16777216 → exec (.stageData off data) s = .next (sent { s with
          sec := { s.sec with window := Ram.write s.sec.window off data } } 5 0 []))) ∧
    (∀ v, s.inReset 0 8 = false →
      (s.rst.owner = true → s.sec.windowShut = false → exec (.stageSet v) s = .next (sent { s with
        sec := { s.sec with length := v % 2 ^ 24, staged := bit v 24, source := true } } 6 0 [])) ∧
      (s.rst.owner = false → exec (.stageSet v) s = .next (sent { s with sec := { s.sec with stageRej := true } } 6 1 []))) ∧
    (∀ off, off % 4 = 0 →
      exec (.readReg off 1) s = .next (sent (readReg s off true).2 7 0 (leBytes 4 (readReg s off true).1)) ∧
      (∀ n, n = 0 ∨ 1024 < n → exec (.readReg off n) s = .next (sent s 7 2 [])) ∧
      ∀ n, 0 < n → n ≤ 1024 → ∃ (u : State) (data : Bytes), exec (.readReg off n) s = .next (sent u 7 0 data) ∧ data.length = 4 * n) ∧
    (∀ off v, writePermitted s off (v % 2 ^ 32) = none → exec (.writeReg off v) s = .next (sent s 8 4 [])) ∧
    (s.rst.ready = true → s.inReset 0 8 = false → s.keep.rollback ≠ s.sec.svn → s.sec.fuseOp = none →
      ∀ v, bit v 31 = true → v < 2 ^ 32 → exec (.writeReg 0x30014 v) s = .next (sent { s with
        sec := { s.sec with fuseOp := some (0, s.sec.svn) } } 8 0 [])) ∧
    (∀ v, reach s 0x60004 ≠ .dead → 600 ≤ v → v ≤ s.grade.pkgWatts → exec (.writeReg 0x60004 v) s = .next (sent { s with
      pwr := { s.pwr with pendPkgW := some v } } 8 0 [])) ∧
    (∀ v, reach s 0x7000C ≠ .dead → v < 512 →
      exec (.writeReg 0x7000C v) s = .next (if s.rst.locked ∨ v < 100 ∨ 240 < v then sent s 8 1 []
        else sent { s with thm := { s.thm with wMax := v } } 8 0 [])) ∧
    (exec .readAlarms s = .next (sent s 9 0 (
      leBytes 32 (maskOf ((List.range 256).map fun b => (sget ({} : Alarm) s.err.alarms b).set)) ++
      (List.range 256).flatMap fun b => leBytes 2 (sget ({} : Alarm) s.err.alarms b).count))) ∧
    (∀ mask, ∃ u : State, exec (.clearAlarms mask) s = .next (sent u 10 0 []) ∧ { u with err := s.err } = s ∧
      { u.err with alarms := s.err.alarms } = s.err ∧
      ∀ b, sget ({} : Alarm) u.err.alarms b = if bit mask b then {} else sget {} s.err.alarms b) ∧
    (∀ n, (n = 0 ∨ 4 < n → exec (.readRecords n) s = .next (sent s 11 2 [])) ∧
      (0 < n → n ≤ 4 → exec (.readRecords n) s = .next (sent { s with err := { s.err with sbFifo := s.err.sbFifo.drop n } } 11 0
        (leBytes 1 (min n s.err.sbFifo.length) ++ (s.err.sbFifo.take n).flatMap fun r => recBytes r false)))) ∧
    (∀ first n, (n = 0 ∨ 16 < n → exec (.readPace first n) s = .next (sent s 12 2 [])) ∧
      (0 < n → n ≤ 16 → s.sb.pace = [] → exec (.readPace first n) s = .next (sent s 12 0 (leBytes 4 first))) ∧
      (∀ e rest, 0 < n → n ≤ 16 → s.sb.pace = e :: rest → e.index < 2 ^ 31 → first ≤ e.index →
        ∃ data : Bytes, exec (.readPace first n) s = .next (sent s 12 0 (leBytes 4 e.index ++ paceEntry e ++ data))))

/-- The I3C, MCTP control and PLDM rows (R696 to R702; the layouts are the model's, log entry 15). -/
def Obligations.TheSideBandPortAnswers : Prop :=
  ∀ s : State, s.up 0 = true →
    (∀ a, a < 128 → s.sb.dynAddr = none →
      exec (.entdaa a) s = .next { s with sb := { s.sb with dynAddr := some a } } ∧
      exec (.setdasa (0x4C + s.pins.straps % 4) a) s = .next { s with sb := { s.sb with dynAddr := some a } }) ∧
    (∀ a b, s.sb.dynAddr = some b → exec (.entdaa a) s = .next s ∧ ∀ st, exec (.setdasa st a) s = .next s) ∧
    (∀ st a, st ≠ 0x4C + s.pins.straps % 4 → exec (.setdasa st a) s = .next s) ∧
    (exec .rstdaa s = .next { s with sb := { s.sb with dynAddr := none } }) ∧
    (∀ e, exec (.enec e) s = .next { s with sb := { s.sb with ibiEnable := s.sb.ibiEnable || bit e 0 } } ∧
      exec (.disec e) s = .next { s with sb := { s.sb with ibiEnable := s.sb.ibiEnable && !bit e 0 } }) ∧
    (∀ v, exec (.setmwl v) s = .next { s with sb := { s.sb with mwl := min 256 v } } ∧
      exec (.setmrl v) s = .next { s with sb := { s.sb with mrl := min 256 v } }) ∧
    (∀ a, s.sb.dynAddr = some a →
      let free (row : Instr) (n : Nat) : Prop := ∃ (t : State) (b : Bytes), exec row s = .next t ∧ b.length = n ∧
        t.out = s.out ++ [.reply b] ∧ { t with out := s.out, freeCtr := s.freeCtr } = s
      exec .getmwl s = .next (s.emit (.reply (leBytes 2 s.sb.mwl).reverse)) ∧
      exec .getmrl s = .next (s.emit (.reply (leBytes 2 s.sb.mrl).reverse)) ∧
      free .getpid 6 ∧ free .getbcr 1 ∧ free .getdcr 1 ∧ free .getstatus 2) ∧
    (∀ (req : Bytes),
      let head (at_ : Nat) : Bytes := (slice req 0 3).zipIdx.map fun e => if e.2 == at_ then e.1 &&& 0x7F else e.1
      let ctl (row : Instr) (u : State) (cc : Byte) (data : Bytes) : Prop := exec row s = .next (replyMctp u (head 1 ++ [cc] ++ data))
      let pld (row : Instr) (u : State) (cc : Byte) (data : Bytes) : Prop := exec row s = .next (replyMctp u (head 0 ++ [cc] ++ data))
      let free (row : Instr) (at_ : Nat) (cc : Byte) (pre : Bytes) (n : Nat) : Prop := ∃ (u : State) (b : Bytes),
        exec row s = .next (replyMctp u (head at_ ++ [cc] ++ pre ++ b)) ∧ b.length = n ∧ { u with freeCtr := s.freeCtr } = s
      let eid := num req 4 1
      let id := num req 3 2
      (num req 3 1 % 4 < 2 → eid ≠ 0 → eid ≠ 255 →
        ctl (.setEndpointId req) { s with sb := { s.sb with eid } } 0 ([0] ++ leBytes 1 eid ++ [0])) ∧
      (2 ≤ num req 3 1 % 4 ∨ eid = 0 ∨ eid = 255 → ctl (.setEndpointId req) s 2 []) ∧
      ctl (.getEndpointId req) s 0 (leBytes 1 s.sb.eid ++ [0, 0]) ∧
      free (.getEndpointUuid req) 1 0 [] 16 ∧
      (num req 3 1 ∈ [0x00, 0x01, 0x05, 0x7F, 0xFF] → free (.getMctpVersionSupport req) 1 0 [1] 4) ∧
      (num req 3 1 ∉ [0x00, 0x01, 0x05, 0x7F, 0xFF] → ctl (.getMctpVersionSupport req) s 0x80 []) ∧
      ctl (.getMessageTypeSupport req) s 0 [3, 0x01, 0x05, 0x7F] ∧
      (num req 3 1 = 0 → free (.getVendorDefinedMsgSupport req) 1 0 ([0xFF, 1] ++ (leBytes 4 s.keep.vendor).reverse) 2) ∧
      (num req 3 1 ≠ 0 → ctl (.getVendorDefinedMsgSupport req) s 2 []) ∧
      pld (.gettid req) s 0 (leBytes 1 s.sb.tid) ∧
      (num req 3 1 ≠ 0 → num req 3 1 ≠ 255 → pld (.settid req) { s with sb := { s.sb with tid := num req 3 1 } } 0 []) ∧
      (num req 3 1 = 0 ∨ num req 3 1 = 255 → pld (.settid req) s 2 []) ∧
      (num req 8 1 = 0 ∨ num req 8 1 = 2 → free (.getpldmversion req) 0 0 [0, 0, 0, 0, 5] 4) ∧
      pld (.getpldmtypes req) s 0 [5, 0, 0, 0, 0, 0, 0, 0] ∧
      (num req 3 1 = 0 → pld (.getpldmcommands req) s 0 (0x3E :: List.replicate 31 0)) ∧
      (num req 3 1 = 2 → pld (.getpldmcommands req) s 0 ([0x10, 0x08, 0x02, 0, 0x02, 0, 0, 0, 0, 0, 0x03] ++ List.replicate 21 0)) ∧
      (num req 3 1 ≠ 0 → num req 3 1 ≠ 2 → pld (.getpldmcommands req) s 0x83 []) ∧
      (∃ (u : State) (b c : Bytes), exec (.getpdrrepositoryinfo req) s = .next (replyMctp u (head 0 ++ [0, 0] ++ b ++ leBytes 4
        (numericSensors.length + 2) ++ c)) ∧ b.length = 26 ∧ { u with freeCtr := s.freeCtr } = s) ∧
      (∀ h, num req 3 4 = h → 0 < h → h ≤ numericSensors.length → ∃ (u : State) (b c : Bytes),
        exec (.getpdr req) s = .next (replyMctp u (head 0 ++ [0] ++ leBytes 4 (h + 1) ++ [0, 0, 0, 0, 5] ++ b ++ leBytes 4 h ++
          [1, 2] ++ c)) ∧ b.length = 2 ∧ { u with freeCtr := s.freeCtr } = s ∧
        let sensor := numericSensors.getD (h - 1) 0
        let (unit, power, rate, resolution) := sensorUnit sensor
        slice c 6 2 = leBytes 2 sensor ∧ slice c 16 3 = leBytes 1 unit ++ leBytes 1 power ++ leBytes 1 rate ∧
        slice c 27 4 = leBytes 4 resolution ∧ slice c 31 4 = [0, 0, 0, 0] ∧ slice c 49 4 = leBytes 4 0x3A83126F) ∧
      (id ∈ numericSensors →
        let state : Bytes := [5, 0, 0] ++ List.replicate 3 (if sensorWarns s id then 2 else 1)
        let kept := s.sb.readings.find? fun e => e.1 == id && s.clk.ps < e.2.1 + 1000000000
        (∀ e, kept = some e → pld (.getsensorreading req) s 0 (state ++ leBytes 4 (word32 e.2.2))) ∧
        (kept = none → pld (.getsensorreading req)
          { s with sb := { s.sb with readings := sput s.sb.readings id (s.clk.ps, sensorReading s id) } } 0
          (state ++ leBytes 4 (word32 (sensorReading s id))))) ∧
      (id ∉ numericSensors → pld (.getsensorreading req) s 0x80 []) ∧
      (id = 0x601 → pld (.getstatesensorreadings req) s 0 ([1, 0] ++ (List.replicate 3 (leBytes 1 s.rst.done)).flatten)) ∧
      (id = 0x600 → pld (.getstatesensorreadings req) s 0 ([1, 0] ++ (List.replicate 3 (leBytes 1 (thmStatus s / 2 % 4))).flatten)) ∧
      pld (.seteventreceiver req) { s with sb := { s.sb with evReceiver := some (num req 3 1, num req 5 1) } } 0 [] ∧
      (s.err.alarms = [] → pld (.pollforplatformeventmessage req) s 0 (leBytes 1 s.sb.tid ++ [0, 0])) ∧
      (s.err.alarms ≠ [] → free (.pollforplatformeventmessage req) 0 0 (leBytes 1 s.sb.tid) 2))
end

