-- ==== Sys2Proof/Laws/Sparse.lean ====
section
/-! SUPPORT. Sparse maps and byte stores: what a read gives after a write, and that every operation keeps the canonical
form. -/

namespace Sys2Proof.Machine

open Sys2Proof

section SparseMap
variable {α : Type}

theorem sget_sdel (d : α) (m : Sparse α) (i j : Nat) : sget d (sdel m i) j = if i = j then d else sget d m j := by
  induction m with
  | nil => simp [sdel, sget]
  | cons e m ih =>
    obtain ⟨k, v⟩ := e
    simp only [sdel, sget, beq_iff_eq]
    split_ifs <;> simp_all [sget]

theorem sget_sput (d : α) (m : Sparse α) (i j : Nat) (w : α) :
    sget d (sput m i w) j = if i = j then w else sget d m j := by
  induction m with
  | nil => by_cases h : i = j <;> simp [sput, sget, h, Ne.symm]
  | cons e m ih =>
    obtain ⟨k, v⟩ := e
    simp only [sput, beq_iff_eq]
    by_cases h1 : i < k <;> by_cases h2 : i = k <;> by_cases h3 : i = j <;> by_cases h4 : j = k <;> simp_all [sget]
    all_goals first | omega | grind [sget]

theorem sput_sput (m : Sparse α) (i : Nat) (v w : α) : sput (sput m i v) i w = sput m i w := by
  induction m with
  | nil => simp [sput]
  | cons e m ih =>
    obtain ⟨k, x⟩ := e
    simp only [sput, beq_iff_eq]
    split_ifs <;> simp_all [sput]

theorem sdel_sdel (m : Sparse α) (i : Nat) : sdel (sdel m i) i = sdel m i := by
  induction m with
  | nil => rfl
  | cons e m ih =>
    obtain ⟨k, x⟩ := e
    simp only [sdel, beq_iff_eq]
    split_ifs with h
    · exact ih
    · simp [sdel, h, ih]

variable [DecidableEq α]

/-- Writing the same value twice at a key is writing it once. -/
@[simp] theorem sset_sset (d : α) (m : Sparse α) (i : Nat) (v : α) : sset d (sset d m i v) i v = sset d m i v := by
  unfold sset
  split
  · exact sdel_sdel m i
  · exact sput_sput m i v v

/-- Reading a map after one key was set. -/
@[simp] theorem sget_sset (d : α) (m : Sparse α) (i j : Nat) (v : α) :
    sget d (sset d m i v) j = if i = j then v else sget d m j := by
  unfold sset
  split
  · next h => rw [sget_sdel, h]
  · rw [sget_sput]

@[simp] theorem sget_supd (d : α) (m : Sparse α) (i j : Nat) (f : α → α) :
    sget d (supd d m i f) j = if i = j then f (sget d m i) else sget d m j := by simp [supd]

/-! ### The canonical form -/

theorem swfFrom_weaken (d : α) (m : Sparse α) (a b : Nat) (h : a ≤ b) (hm : swfFrom d b m = true) :
    swfFrom d a m = true := by
  cases m with
  | nil => rfl
  | cons e m =>
    obtain ⟨k, v⟩ := e
    simp only [swfFrom, Bool.and_eq_true, decide_eq_true_eq] at hm ⊢
    exact ⟨⟨by omega, hm.1.2⟩, hm.2⟩

theorem swfFrom_sdel (d : α) (m : Sparse α) (lo i : Nat) (h : swfFrom d lo m = true) :
    swfFrom d lo (sdel m i) = true := by
  induction m generalizing lo with
  | nil => rfl
  | cons e m ih =>
    obtain ⟨k, v⟩ := e
    simp only [swfFrom, Bool.and_eq_true, decide_eq_true_eq] at h
    simp only [sdel]
    split
    · exact ih lo (swfFrom_weaken d m lo (k + 1) (by omega) h.2)
    · simp only [swfFrom, Bool.and_eq_true, decide_eq_true_eq]
      exact ⟨h.1, ih (k + 1) h.2⟩

theorem swfFrom_sput (d : α) (m : Sparse α) (lo i : Nat) (v : α) (hi : lo ≤ i) (hv : v ≠ d)
    (h : swfFrom d lo m = true) : swfFrom d lo (sput m i v) = true := by
  induction m generalizing lo with
  | nil => simp [sput, swfFrom, hi, hv]
  | cons e m ih =>
    obtain ⟨k, w⟩ := e
    simp only [swfFrom, Bool.and_eq_true, decide_eq_true_eq] at h
    simp only [sput, beq_iff_eq]
    split_ifs with h1 h2
    · simp only [swfFrom, Bool.and_eq_true, decide_eq_true_eq]
      exact ⟨⟨hi, hv⟩, ⟨by omega, h.1.2⟩, h.2⟩
    · subst h2
      simp only [swfFrom, Bool.and_eq_true, decide_eq_true_eq]
      exact ⟨⟨hi, hv⟩, h.2⟩
    · simp only [swfFrom, Bool.and_eq_true, decide_eq_true_eq]
      exact ⟨h.1, ih (k + 1) (by omega) h.2⟩

theorem swf_sset (d : α) (m : Sparse α) (i : Nat) (v : α) (h : swf d m = true) : swf d (sset d m i v) = true := by
  unfold sset
  split
  · exact swfFrom_sdel d m 0 i h
  · next hv => exact swfFrom_sput d m 0 i v (by omega) hv h

theorem swf_supd (d : α) (m : Sparse α) (i : Nat) (f : α → α) (h : swf d m = true) : swf d (supd d m i f) = true :=
  swf_sset d m i _ h

theorem swfFrom_skeep (d : α) (p : Nat → Bool) (m : Sparse α) (lo : Nat) (h : swfFrom d lo m = true) :
    swfFrom d lo (skeep p m) = true := by
  induction m generalizing lo with
  | nil => rfl
  | cons e m ih =>
    obtain ⟨k, v⟩ := e
    simp only [swfFrom, Bool.and_eq_true, decide_eq_true_eq] at h
    simp only [skeep]
    split
    · simp only [swfFrom, Bool.and_eq_true, decide_eq_true_eq]
      exact ⟨h.1, ih (k + 1) h.2⟩
    · exact ih lo (swfFrom_weaken d m lo (k + 1) (by omega) h.2)

theorem swfFrom_smap (d : α) (f : α → α) (m : Sparse α) (lo : Nat) (h : swfFrom d lo m = true) :
    swfFrom d lo (smap d f m) = true := by
  induction m generalizing lo with
  | nil => rfl
  | cons e m ih =>
    obtain ⟨k, v⟩ := e
    simp only [swfFrom, Bool.and_eq_true, decide_eq_true_eq] at h
    simp only [smap, List.map_cons, List.filter_cons]
    split
    · next hv =>
      simp only [swfFrom, Bool.and_eq_true, decide_eq_true_eq]
      exact ⟨⟨h.1.1, by simpa using hv⟩, ih (k + 1) h.2⟩
    · exact ih lo (swfFrom_weaken d m lo (k + 1) (by omega) h.2)

omit [DecidableEq α] in
theorem sget_skeep (d : α) (p : Nat → Bool) (m : Sparse α) (i : Nat) :
    sget d (skeep p m) i = if p i then sget d m i else d := by
  induction m with
  | nil => simp [skeep, sget]
  | cons e m ih =>
    obtain ⟨k, v⟩ := e
    simp only [skeep, sget, beq_iff_eq]
    by_cases hk : p k = true <;> by_cases hi : i = k <;> simp_all [sget]

end SparseMap

/-! ### Byte stores -/

@[simp] theorem Ram.get_set (m : Ram) (a b : Nat) (v : Byte) : (m.set a v).get b = if a = b then v else m.get b :=
  sget_sset 0 m a b v

theorem Ram.wf_set (m : Ram) (a : Nat) (v : Byte) (h : m.wf = true) : (m.set a v).wf = true := swf_sset 0 m a v h

theorem Ram.wf_write (m : Ram) (a : Nat) (bs : Bytes) (h : m.wf = true) : (Ram.write m a bs).wf = true := by
  induction bs generalizing m a with
  | nil => exact h
  | cons b bs ih => exact ih _ _ (Ram.wf_set m a b h)

theorem Ram.wf_clear (m : Ram) (lo hi : Nat) (h : m.wf = true) : (m.clear lo hi).wf = true :=
  swfFrom_skeep 0 _ m 0 h

/-- A byte after a write: from the string inside its range, as before outside. -/
theorem Ram.get_write (m : Ram) (a : Nat) (bs : Bytes) (i : Nat) :
    (Ram.write m a bs).get i = if a ≤ i ∧ i < a + bs.length then bs.getD (i - a) 0 else m.get i := by
  induction bs generalizing m a with
  | nil => simp [Ram.write]
  | cons b bs ih =>
    rw [Ram.write, ih, Ram.get_set, List.length_cons]
    by_cases h : a = i
    · subst h; simp
    · by_cases h2 : a + 1 ≤ i ∧ i < a + 1 + bs.length
      · rw [if_pos h2, if_pos (by omega), show i - a = (i - (a + 1)) + 1 by omega, List.getD_cons_succ]
      · rw [if_neg h2, if_neg h, if_neg (by omega)]

theorem Ram.get_clear (m : Ram) (lo hi i : Nat) :
    (m.clear lo hi).get i = if lo ≤ i ∧ i < hi then 0 else m.get i := by
  unfold Ram.clear Ram.get
  rw [sget_skeep]
  by_cases h1 : i < lo <;> by_cases h2 : hi ≤ i <;> simp [h1, h2]

theorem Ram.read_length (m : Ram) (a n : Nat) : (Ram.read m a n).length = n := by
  induction n generalizing a with
  | zero => rfl
  | succ n ih => simp [Ram.read, ih]

theorem Ram.read_write_same (m : Ram) (a : Nat) (bs : Bytes) : Ram.read (Ram.write m a bs) a bs.length = bs := by
  have key : ∀ (w : Ram) (n b : Nat) (l : Bytes), l.length = n → (∀ i, i < n → w.get (b + i) = l.getD i 0) →
      Ram.read w b n = l := by
    intro w n
    induction n with
    | zero => intro b l hl _; simp [Ram.read, List.length_eq_zero_iff.mp hl]
    | succ n ih =>
      intro b l hl h
      obtain ⟨x, l, rfl⟩ := List.exists_cons_of_length_eq_add_one hl
      rw [Ram.read, ih (b + 1) l (by simpa using hl)]
      · have := h 0 (by omega); simp at this; rw [this]
      · intro i hi
        have := h (i + 1) (by omega)
        rw [List.getD_cons_succ] at this
        rw [← this]; congr 1; omega
  apply key _ _ _ _ rfl
  intro i hi
  rw [Ram.get_write, if_pos (by omega)]
  congr 1; omega

/-- Reading back what a write outside the read range leaves. -/
theorem Ram.read_write_off (m : Ram) (a : Nat) (bs : Bytes) (b n : Nat) (h : b + n ≤ a ∨ a + bs.length ≤ b) :
    Ram.read (Ram.write m a bs) b n = Ram.read m b n := by
  induction n generalizing b with
  | zero => rfl
  | succ n ih =>
    rw [Ram.read, Ram.read, Ram.get_write, if_neg (by omega), ih (b + 1) (by omega)]

end Sys2Proof.Machine
end

