-- ==== Sys2Proof/Laws/State.lean ====
section
/-! SUPPORT. What each named update of the state leaves in each field, and what a part reads after it. Generated by a script
of one lemma per field per update. -/

namespace Sys2Proof.Machine

open Sys2Proof

namespace State


/-! ### updCell -/

@[simp] theorem updCell_pending (s : State) (c : Nat) (f : CellSt → CellSt) : (s.updCell c f).pending = s.pending := rfl
@[simp] theorem updCell_freeCtr (s : State) (c : Nat) (f : CellSt → CellSt) : (s.updCell c f).freeCtr = s.freeCtr := rfl
@[simp] theorem updCell_out (s : State) (c : Nat) (f : CellSt → CellSt) : (s.updCell c f).out = s.out := rfl
@[simp] theorem updCell_clk (s : State) (c : Nat) (f : CellSt → CellSt) : (s.updCell c f).clk = s.clk := rfl
@[simp] theorem updCell_pins (s : State) (c : Nat) (f : CellSt → CellSt) : (s.updCell c f).pins = s.pins := rfl
@[simp] theorem updCell_rst (s : State) (c : Nat) (f : CellSt → CellSt) : (s.updCell c f).rst = s.rst := rfl
@[simp] theorem updCell_keep (s : State) (c : Nat) (f : CellSt → CellSt) : (s.updCell c f).keep = s.keep := rfl
@[simp] theorem updCell_sec (s : State) (c : Nat) (f : CellSt → CellSt) : (s.updCell c f).sec = s.sec := rfl
@[simp] theorem updCell_sb (s : State) (c : Nat) (f : CellSt → CellSt) : (s.updCell c f).sb = s.sb := rfl
@[simp] theorem updCell_plan (s : State) (c : Nat) (f : CellSt → CellSt) : (s.updCell c f).plan = s.plan := rfl
@[simp] theorem updCell_svy (s : State) (c : Nat) (f : CellSt → CellSt) : (s.updCell c f).svy = s.svy := rfl
@[simp] theorem updCell_err (s : State) (c : Nat) (f : CellSt → CellSt) : (s.updCell c f).err = s.err := rfl
@[simp] theorem updCell_mon (s : State) (c : Nat) (f : CellSt → CellSt) : (s.updCell c f).mon = s.mon := rfl
@[simp] theorem updCell_sht (s : State) (c : Nat) (f : CellSt → CellSt) : (s.updCell c f).sht = s.sht := rfl
@[simp] theorem updCell_hif (s : State) (c : Nat) (f : CellSt → CellSt) : (s.updCell c f).hif = s.hif := rfl
@[simp] theorem updCell_jobs (s : State) (c : Nat) (f : CellSt → CellSt) : (s.updCell c f).jobs = s.jobs := rfl
@[simp] theorem updCell_clearing (s : State) (c : Nat) (f : CellSt → CellSt) : (s.updCell c f).clearing = s.clearing := rfl
@[simp] theorem updCell_tables (s : State) (c : Nat) (f : CellSt → CellSt) : (s.updCell c f).tables = s.tables := rfl
@[simp] theorem updCell_blocks (s : State) (c : Nat) (f : CellSt → CellSt) : (s.updCell c f).blocks = s.blocks := rfl
@[simp] theorem updCell_regions (s : State) (c : Nat) (f : CellSt → CellSt) : (s.updCell c f).regions = s.regions := rfl
@[simp] theorem updCell_columns (s : State) (c : Nat) (f : CellSt → CellSt) : (s.updCell c f).columns = s.columns := rfl
@[simp] theorem updCell_stk (s : State) (c : Nat) (f : CellSt → CellSt) : (s.updCell c f).stk = s.stk := rfl
@[simp] theorem updCell_plain (s : State) (c : Nat) (f : CellSt → CellSt) : (s.updCell c f).plain = s.plain := rfl
@[simp] theorem updCell_syn (s : State) (c : Nat) (f : CellSt → CellSt) : (s.updCell c f).syn = s.syn := rfl
@[simp] theorem updCell_reds (s : State) (c : Nat) (f : CellSt → CellSt) : (s.updCell c f).reds = s.reds := rfl
@[simp] theorem updCell_ports (s : State) (c : Nat) (f : CellSt → CellSt) : (s.updCell c f).ports = s.ports := rfl
@[simp] theorem updCell_grp (s : State) (c : Nat) (f : CellSt → CellSt) : (s.updCell c f).grp = s.grp := rfl
@[simp] theorem updCell_pwr (s : State) (c : Nat) (f : CellSt → CellSt) : (s.updCell c f).pwr = s.pwr := rfl
@[simp] theorem updCell_share (s : State) (c : Nat) (f : CellSt → CellSt) : (s.updCell c f).share = s.share := rfl
@[simp] theorem updCell_thm (s : State) (c : Nat) (f : CellSt → CellSt) : (s.updCell c f).thm = s.thm := rfl
@[simp] theorem updCell_scratch (s : State) (c : Nat) (f : CellSt → CellSt) : (s.updCell c f).scratch = s.scratch := rfl
@[simp] theorem updCell_timers (s : State) (c : Nat) (f : CellSt → CellSt) : (s.updCell c f).timers = s.timers := rfl

/-! ### updSeq -/

@[simp] theorem updSeq_pending (s : State) (c : Nat) (f : Seq → Seq) : (s.updSeq c f).pending = s.pending := rfl
@[simp] theorem updSeq_freeCtr (s : State) (c : Nat) (f : Seq → Seq) : (s.updSeq c f).freeCtr = s.freeCtr := rfl
@[simp] theorem updSeq_out (s : State) (c : Nat) (f : Seq → Seq) : (s.updSeq c f).out = s.out := rfl
@[simp] theorem updSeq_clk (s : State) (c : Nat) (f : Seq → Seq) : (s.updSeq c f).clk = s.clk := rfl
@[simp] theorem updSeq_pins (s : State) (c : Nat) (f : Seq → Seq) : (s.updSeq c f).pins = s.pins := rfl
@[simp] theorem updSeq_rst (s : State) (c : Nat) (f : Seq → Seq) : (s.updSeq c f).rst = s.rst := rfl
@[simp] theorem updSeq_keep (s : State) (c : Nat) (f : Seq → Seq) : (s.updSeq c f).keep = s.keep := rfl
@[simp] theorem updSeq_sec (s : State) (c : Nat) (f : Seq → Seq) : (s.updSeq c f).sec = s.sec := rfl
@[simp] theorem updSeq_sb (s : State) (c : Nat) (f : Seq → Seq) : (s.updSeq c f).sb = s.sb := rfl
@[simp] theorem updSeq_plan (s : State) (c : Nat) (f : Seq → Seq) : (s.updSeq c f).plan = s.plan := rfl
@[simp] theorem updSeq_svy (s : State) (c : Nat) (f : Seq → Seq) : (s.updSeq c f).svy = s.svy := rfl
@[simp] theorem updSeq_err (s : State) (c : Nat) (f : Seq → Seq) : (s.updSeq c f).err = s.err := rfl
@[simp] theorem updSeq_mon (s : State) (c : Nat) (f : Seq → Seq) : (s.updSeq c f).mon = s.mon := rfl
@[simp] theorem updSeq_sht (s : State) (c : Nat) (f : Seq → Seq) : (s.updSeq c f).sht = s.sht := rfl
@[simp] theorem updSeq_hif (s : State) (c : Nat) (f : Seq → Seq) : (s.updSeq c f).hif = s.hif := rfl
@[simp] theorem updSeq_jobs (s : State) (c : Nat) (f : Seq → Seq) : (s.updSeq c f).jobs = s.jobs := rfl
@[simp] theorem updSeq_clearing (s : State) (c : Nat) (f : Seq → Seq) : (s.updSeq c f).clearing = s.clearing := rfl
@[simp] theorem updSeq_tables (s : State) (c : Nat) (f : Seq → Seq) : (s.updSeq c f).tables = s.tables := rfl
@[simp] theorem updSeq_blocks (s : State) (c : Nat) (f : Seq → Seq) : (s.updSeq c f).blocks = s.blocks := rfl
@[simp] theorem updSeq_regions (s : State) (c : Nat) (f : Seq → Seq) : (s.updSeq c f).regions = s.regions := rfl
@[simp] theorem updSeq_columns (s : State) (c : Nat) (f : Seq → Seq) : (s.updSeq c f).columns = s.columns := rfl
@[simp] theorem updSeq_stk (s : State) (c : Nat) (f : Seq → Seq) : (s.updSeq c f).stk = s.stk := rfl
@[simp] theorem updSeq_plain (s : State) (c : Nat) (f : Seq → Seq) : (s.updSeq c f).plain = s.plain := rfl
@[simp] theorem updSeq_syn (s : State) (c : Nat) (f : Seq → Seq) : (s.updSeq c f).syn = s.syn := rfl
@[simp] theorem updSeq_reds (s : State) (c : Nat) (f : Seq → Seq) : (s.updSeq c f).reds = s.reds := rfl
@[simp] theorem updSeq_ports (s : State) (c : Nat) (f : Seq → Seq) : (s.updSeq c f).ports = s.ports := rfl
@[simp] theorem updSeq_grp (s : State) (c : Nat) (f : Seq → Seq) : (s.updSeq c f).grp = s.grp := rfl
@[simp] theorem updSeq_pwr (s : State) (c : Nat) (f : Seq → Seq) : (s.updSeq c f).pwr = s.pwr := rfl
@[simp] theorem updSeq_share (s : State) (c : Nat) (f : Seq → Seq) : (s.updSeq c f).share = s.share := rfl
@[simp] theorem updSeq_thm (s : State) (c : Nat) (f : Seq → Seq) : (s.updSeq c f).thm = s.thm := rfl
@[simp] theorem updSeq_scratch (s : State) (c : Nat) (f : Seq → Seq) : (s.updSeq c f).scratch = s.scratch := rfl
@[simp] theorem updSeq_timers (s : State) (c : Nat) (f : Seq → Seq) : (s.updSeq c f).timers = s.timers := rfl

/-! ### updStash -/

@[simp] theorem updStash_pending (s : State) (c : Nat) (f : Stash → Stash) : (s.updStash c f).pending = s.pending := rfl
@[simp] theorem updStash_freeCtr (s : State) (c : Nat) (f : Stash → Stash) : (s.updStash c f).freeCtr = s.freeCtr := rfl
@[simp] theorem updStash_out (s : State) (c : Nat) (f : Stash → Stash) : (s.updStash c f).out = s.out := rfl
@[simp] theorem updStash_clk (s : State) (c : Nat) (f : Stash → Stash) : (s.updStash c f).clk = s.clk := rfl
@[simp] theorem updStash_pins (s : State) (c : Nat) (f : Stash → Stash) : (s.updStash c f).pins = s.pins := rfl
@[simp] theorem updStash_rst (s : State) (c : Nat) (f : Stash → Stash) : (s.updStash c f).rst = s.rst := rfl
@[simp] theorem updStash_keep (s : State) (c : Nat) (f : Stash → Stash) : (s.updStash c f).keep = s.keep := rfl
@[simp] theorem updStash_sec (s : State) (c : Nat) (f : Stash → Stash) : (s.updStash c f).sec = s.sec := rfl
@[simp] theorem updStash_sb (s : State) (c : Nat) (f : Stash → Stash) : (s.updStash c f).sb = s.sb := rfl
@[simp] theorem updStash_plan (s : State) (c : Nat) (f : Stash → Stash) : (s.updStash c f).plan = s.plan := rfl
@[simp] theorem updStash_svy (s : State) (c : Nat) (f : Stash → Stash) : (s.updStash c f).svy = s.svy := rfl
@[simp] theorem updStash_err (s : State) (c : Nat) (f : Stash → Stash) : (s.updStash c f).err = s.err := rfl
@[simp] theorem updStash_mon (s : State) (c : Nat) (f : Stash → Stash) : (s.updStash c f).mon = s.mon := rfl
@[simp] theorem updStash_sht (s : State) (c : Nat) (f : Stash → Stash) : (s.updStash c f).sht = s.sht := rfl
@[simp] theorem updStash_hif (s : State) (c : Nat) (f : Stash → Stash) : (s.updStash c f).hif = s.hif := rfl
@[simp] theorem updStash_jobs (s : State) (c : Nat) (f : Stash → Stash) : (s.updStash c f).jobs = s.jobs := rfl
@[simp] theorem updStash_clearing (s : State) (c : Nat) (f : Stash → Stash) : (s.updStash c f).clearing = s.clearing := rfl
@[simp] theorem updStash_tables (s : State) (c : Nat) (f : Stash → Stash) : (s.updStash c f).tables = s.tables := rfl
@[simp] theorem updStash_blocks (s : State) (c : Nat) (f : Stash → Stash) : (s.updStash c f).blocks = s.blocks := rfl
@[simp] theorem updStash_regions (s : State) (c : Nat) (f : Stash → Stash) : (s.updStash c f).regions = s.regions := rfl
@[simp] theorem updStash_columns (s : State) (c : Nat) (f : Stash → Stash) : (s.updStash c f).columns = s.columns := rfl
@[simp] theorem updStash_stk (s : State) (c : Nat) (f : Stash → Stash) : (s.updStash c f).stk = s.stk := rfl
@[simp] theorem updStash_plain (s : State) (c : Nat) (f : Stash → Stash) : (s.updStash c f).plain = s.plain := rfl
@[simp] theorem updStash_syn (s : State) (c : Nat) (f : Stash → Stash) : (s.updStash c f).syn = s.syn := rfl
@[simp] theorem updStash_reds (s : State) (c : Nat) (f : Stash → Stash) : (s.updStash c f).reds = s.reds := rfl
@[simp] theorem updStash_ports (s : State) (c : Nat) (f : Stash → Stash) : (s.updStash c f).ports = s.ports := rfl
@[simp] theorem updStash_grp (s : State) (c : Nat) (f : Stash → Stash) : (s.updStash c f).grp = s.grp := rfl
@[simp] theorem updStash_pwr (s : State) (c : Nat) (f : Stash → Stash) : (s.updStash c f).pwr = s.pwr := rfl
@[simp] theorem updStash_share (s : State) (c : Nat) (f : Stash → Stash) : (s.updStash c f).share = s.share := rfl
@[simp] theorem updStash_thm (s : State) (c : Nat) (f : Stash → Stash) : (s.updStash c f).thm = s.thm := rfl
@[simp] theorem updStash_scratch (s : State) (c : Nat) (f : Stash → Stash) : (s.updStash c f).scratch = s.scratch := rfl
@[simp] theorem updStash_timers (s : State) (c : Nat) (f : Stash → Stash) : (s.updStash c f).timers = s.timers := rfl

/-! ### updPlumb -/

@[simp] theorem updPlumb_pending (s : State) (c : Nat) (f : Plumb → Plumb) : (s.updPlumb c f).pending = s.pending := rfl
@[simp] theorem updPlumb_freeCtr (s : State) (c : Nat) (f : Plumb → Plumb) : (s.updPlumb c f).freeCtr = s.freeCtr := rfl
@[simp] theorem updPlumb_out (s : State) (c : Nat) (f : Plumb → Plumb) : (s.updPlumb c f).out = s.out := rfl
@[simp] theorem updPlumb_clk (s : State) (c : Nat) (f : Plumb → Plumb) : (s.updPlumb c f).clk = s.clk := rfl
@[simp] theorem updPlumb_pins (s : State) (c : Nat) (f : Plumb → Plumb) : (s.updPlumb c f).pins = s.pins := rfl
@[simp] theorem updPlumb_rst (s : State) (c : Nat) (f : Plumb → Plumb) : (s.updPlumb c f).rst = s.rst := rfl
@[simp] theorem updPlumb_keep (s : State) (c : Nat) (f : Plumb → Plumb) : (s.updPlumb c f).keep = s.keep := rfl
@[simp] theorem updPlumb_sec (s : State) (c : Nat) (f : Plumb → Plumb) : (s.updPlumb c f).sec = s.sec := rfl
@[simp] theorem updPlumb_sb (s : State) (c : Nat) (f : Plumb → Plumb) : (s.updPlumb c f).sb = s.sb := rfl
@[simp] theorem updPlumb_plan (s : State) (c : Nat) (f : Plumb → Plumb) : (s.updPlumb c f).plan = s.plan := rfl
@[simp] theorem updPlumb_svy (s : State) (c : Nat) (f : Plumb → Plumb) : (s.updPlumb c f).svy = s.svy := rfl
@[simp] theorem updPlumb_err (s : State) (c : Nat) (f : Plumb → Plumb) : (s.updPlumb c f).err = s.err := rfl
@[simp] theorem updPlumb_mon (s : State) (c : Nat) (f : Plumb → Plumb) : (s.updPlumb c f).mon = s.mon := rfl
@[simp] theorem updPlumb_sht (s : State) (c : Nat) (f : Plumb → Plumb) : (s.updPlumb c f).sht = s.sht := rfl
@[simp] theorem updPlumb_hif (s : State) (c : Nat) (f : Plumb → Plumb) : (s.updPlumb c f).hif = s.hif := rfl
@[simp] theorem updPlumb_jobs (s : State) (c : Nat) (f : Plumb → Plumb) : (s.updPlumb c f).jobs = s.jobs := rfl
@[simp] theorem updPlumb_clearing (s : State) (c : Nat) (f : Plumb → Plumb) : (s.updPlumb c f).clearing = s.clearing := rfl
@[simp] theorem updPlumb_tables (s : State) (c : Nat) (f : Plumb → Plumb) : (s.updPlumb c f).tables = s.tables := rfl
@[simp] theorem updPlumb_blocks (s : State) (c : Nat) (f : Plumb → Plumb) : (s.updPlumb c f).blocks = s.blocks := rfl
@[simp] theorem updPlumb_regions (s : State) (c : Nat) (f : Plumb → Plumb) : (s.updPlumb c f).regions = s.regions := rfl
@[simp] theorem updPlumb_columns (s : State) (c : Nat) (f : Plumb → Plumb) : (s.updPlumb c f).columns = s.columns := rfl
@[simp] theorem updPlumb_stk (s : State) (c : Nat) (f : Plumb → Plumb) : (s.updPlumb c f).stk = s.stk := rfl
@[simp] theorem updPlumb_plain (s : State) (c : Nat) (f : Plumb → Plumb) : (s.updPlumb c f).plain = s.plain := rfl
@[simp] theorem updPlumb_syn (s : State) (c : Nat) (f : Plumb → Plumb) : (s.updPlumb c f).syn = s.syn := rfl
@[simp] theorem updPlumb_reds (s : State) (c : Nat) (f : Plumb → Plumb) : (s.updPlumb c f).reds = s.reds := rfl
@[simp] theorem updPlumb_ports (s : State) (c : Nat) (f : Plumb → Plumb) : (s.updPlumb c f).ports = s.ports := rfl
@[simp] theorem updPlumb_grp (s : State) (c : Nat) (f : Plumb → Plumb) : (s.updPlumb c f).grp = s.grp := rfl
@[simp] theorem updPlumb_pwr (s : State) (c : Nat) (f : Plumb → Plumb) : (s.updPlumb c f).pwr = s.pwr := rfl
@[simp] theorem updPlumb_share (s : State) (c : Nat) (f : Plumb → Plumb) : (s.updPlumb c f).share = s.share := rfl
@[simp] theorem updPlumb_thm (s : State) (c : Nat) (f : Plumb → Plumb) : (s.updPlumb c f).thm = s.thm := rfl
@[simp] theorem updPlumb_scratch (s : State) (c : Nat) (f : Plumb → Plumb) : (s.updPlumb c f).scratch = s.scratch := rfl
@[simp] theorem updPlumb_timers (s : State) (c : Nat) (f : Plumb → Plumb) : (s.updPlumb c f).timers = s.timers := rfl

/-! ### updMm -/

@[simp] theorem updMm_pending (s : State) (c : Nat) (f : Matrix → Matrix) : (s.updMm c f).pending = s.pending := rfl
@[simp] theorem updMm_freeCtr (s : State) (c : Nat) (f : Matrix → Matrix) : (s.updMm c f).freeCtr = s.freeCtr := rfl
@[simp] theorem updMm_out (s : State) (c : Nat) (f : Matrix → Matrix) : (s.updMm c f).out = s.out := rfl
@[simp] theorem updMm_clk (s : State) (c : Nat) (f : Matrix → Matrix) : (s.updMm c f).clk = s.clk := rfl
@[simp] theorem updMm_pins (s : State) (c : Nat) (f : Matrix → Matrix) : (s.updMm c f).pins = s.pins := rfl
@[simp] theorem updMm_rst (s : State) (c : Nat) (f : Matrix → Matrix) : (s.updMm c f).rst = s.rst := rfl
@[simp] theorem updMm_keep (s : State) (c : Nat) (f : Matrix → Matrix) : (s.updMm c f).keep = s.keep := rfl
@[simp] theorem updMm_sec (s : State) (c : Nat) (f : Matrix → Matrix) : (s.updMm c f).sec = s.sec := rfl
@[simp] theorem updMm_sb (s : State) (c : Nat) (f : Matrix → Matrix) : (s.updMm c f).sb = s.sb := rfl
@[simp] theorem updMm_plan (s : State) (c : Nat) (f : Matrix → Matrix) : (s.updMm c f).plan = s.plan := rfl
@[simp] theorem updMm_svy (s : State) (c : Nat) (f : Matrix → Matrix) : (s.updMm c f).svy = s.svy := rfl
@[simp] theorem updMm_err (s : State) (c : Nat) (f : Matrix → Matrix) : (s.updMm c f).err = s.err := rfl
@[simp] theorem updMm_mon (s : State) (c : Nat) (f : Matrix → Matrix) : (s.updMm c f).mon = s.mon := rfl
@[simp] theorem updMm_sht (s : State) (c : Nat) (f : Matrix → Matrix) : (s.updMm c f).sht = s.sht := rfl
@[simp] theorem updMm_hif (s : State) (c : Nat) (f : Matrix → Matrix) : (s.updMm c f).hif = s.hif := rfl
@[simp] theorem updMm_jobs (s : State) (c : Nat) (f : Matrix → Matrix) : (s.updMm c f).jobs = s.jobs := rfl
@[simp] theorem updMm_clearing (s : State) (c : Nat) (f : Matrix → Matrix) : (s.updMm c f).clearing = s.clearing := rfl
@[simp] theorem updMm_tables (s : State) (c : Nat) (f : Matrix → Matrix) : (s.updMm c f).tables = s.tables := rfl
@[simp] theorem updMm_blocks (s : State) (c : Nat) (f : Matrix → Matrix) : (s.updMm c f).blocks = s.blocks := rfl
@[simp] theorem updMm_regions (s : State) (c : Nat) (f : Matrix → Matrix) : (s.updMm c f).regions = s.regions := rfl
@[simp] theorem updMm_columns (s : State) (c : Nat) (f : Matrix → Matrix) : (s.updMm c f).columns = s.columns := rfl
@[simp] theorem updMm_stk (s : State) (c : Nat) (f : Matrix → Matrix) : (s.updMm c f).stk = s.stk := rfl
@[simp] theorem updMm_plain (s : State) (c : Nat) (f : Matrix → Matrix) : (s.updMm c f).plain = s.plain := rfl
@[simp] theorem updMm_syn (s : State) (c : Nat) (f : Matrix → Matrix) : (s.updMm c f).syn = s.syn := rfl
@[simp] theorem updMm_reds (s : State) (c : Nat) (f : Matrix → Matrix) : (s.updMm c f).reds = s.reds := rfl
@[simp] theorem updMm_ports (s : State) (c : Nat) (f : Matrix → Matrix) : (s.updMm c f).ports = s.ports := rfl
@[simp] theorem updMm_grp (s : State) (c : Nat) (f : Matrix → Matrix) : (s.updMm c f).grp = s.grp := rfl
@[simp] theorem updMm_pwr (s : State) (c : Nat) (f : Matrix → Matrix) : (s.updMm c f).pwr = s.pwr := rfl
@[simp] theorem updMm_share (s : State) (c : Nat) (f : Matrix → Matrix) : (s.updMm c f).share = s.share := rfl
@[simp] theorem updMm_thm (s : State) (c : Nat) (f : Matrix → Matrix) : (s.updMm c f).thm = s.thm := rfl
@[simp] theorem updMm_scratch (s : State) (c : Nat) (f : Matrix → Matrix) : (s.updMm c f).scratch = s.scratch := rfl
@[simp] theorem updMm_timers (s : State) (c : Nat) (f : Matrix → Matrix) : (s.updMm c f).timers = s.timers := rfl

/-! ### updMisc -/

@[simp] theorem updMisc_pending (s : State) (c : Nat) (f : Misc → Misc) : (s.updMisc c f).pending = s.pending := rfl
@[simp] theorem updMisc_freeCtr (s : State) (c : Nat) (f : Misc → Misc) : (s.updMisc c f).freeCtr = s.freeCtr := rfl
@[simp] theorem updMisc_out (s : State) (c : Nat) (f : Misc → Misc) : (s.updMisc c f).out = s.out := rfl
@[simp] theorem updMisc_clk (s : State) (c : Nat) (f : Misc → Misc) : (s.updMisc c f).clk = s.clk := rfl
@[simp] theorem updMisc_pins (s : State) (c : Nat) (f : Misc → Misc) : (s.updMisc c f).pins = s.pins := rfl
@[simp] theorem updMisc_rst (s : State) (c : Nat) (f : Misc → Misc) : (s.updMisc c f).rst = s.rst := rfl
@[simp] theorem updMisc_keep (s : State) (c : Nat) (f : Misc → Misc) : (s.updMisc c f).keep = s.keep := rfl
@[simp] theorem updMisc_sec (s : State) (c : Nat) (f : Misc → Misc) : (s.updMisc c f).sec = s.sec := rfl
@[simp] theorem updMisc_sb (s : State) (c : Nat) (f : Misc → Misc) : (s.updMisc c f).sb = s.sb := rfl
@[simp] theorem updMisc_plan (s : State) (c : Nat) (f : Misc → Misc) : (s.updMisc c f).plan = s.plan := rfl
@[simp] theorem updMisc_svy (s : State) (c : Nat) (f : Misc → Misc) : (s.updMisc c f).svy = s.svy := rfl
@[simp] theorem updMisc_err (s : State) (c : Nat) (f : Misc → Misc) : (s.updMisc c f).err = s.err := rfl
@[simp] theorem updMisc_mon (s : State) (c : Nat) (f : Misc → Misc) : (s.updMisc c f).mon = s.mon := rfl
@[simp] theorem updMisc_sht (s : State) (c : Nat) (f : Misc → Misc) : (s.updMisc c f).sht = s.sht := rfl
@[simp] theorem updMisc_hif (s : State) (c : Nat) (f : Misc → Misc) : (s.updMisc c f).hif = s.hif := rfl
@[simp] theorem updMisc_jobs (s : State) (c : Nat) (f : Misc → Misc) : (s.updMisc c f).jobs = s.jobs := rfl
@[simp] theorem updMisc_clearing (s : State) (c : Nat) (f : Misc → Misc) : (s.updMisc c f).clearing = s.clearing := rfl
@[simp] theorem updMisc_tables (s : State) (c : Nat) (f : Misc → Misc) : (s.updMisc c f).tables = s.tables := rfl
@[simp] theorem updMisc_blocks (s : State) (c : Nat) (f : Misc → Misc) : (s.updMisc c f).blocks = s.blocks := rfl
@[simp] theorem updMisc_regions (s : State) (c : Nat) (f : Misc → Misc) : (s.updMisc c f).regions = s.regions := rfl
@[simp] theorem updMisc_columns (s : State) (c : Nat) (f : Misc → Misc) : (s.updMisc c f).columns = s.columns := rfl
@[simp] theorem updMisc_stk (s : State) (c : Nat) (f : Misc → Misc) : (s.updMisc c f).stk = s.stk := rfl
@[simp] theorem updMisc_plain (s : State) (c : Nat) (f : Misc → Misc) : (s.updMisc c f).plain = s.plain := rfl
@[simp] theorem updMisc_syn (s : State) (c : Nat) (f : Misc → Misc) : (s.updMisc c f).syn = s.syn := rfl
@[simp] theorem updMisc_reds (s : State) (c : Nat) (f : Misc → Misc) : (s.updMisc c f).reds = s.reds := rfl
@[simp] theorem updMisc_ports (s : State) (c : Nat) (f : Misc → Misc) : (s.updMisc c f).ports = s.ports := rfl
@[simp] theorem updMisc_grp (s : State) (c : Nat) (f : Misc → Misc) : (s.updMisc c f).grp = s.grp := rfl
@[simp] theorem updMisc_pwr (s : State) (c : Nat) (f : Misc → Misc) : (s.updMisc c f).pwr = s.pwr := rfl
@[simp] theorem updMisc_share (s : State) (c : Nat) (f : Misc → Misc) : (s.updMisc c f).share = s.share := rfl
@[simp] theorem updMisc_thm (s : State) (c : Nat) (f : Misc → Misc) : (s.updMisc c f).thm = s.thm := rfl
@[simp] theorem updMisc_scratch (s : State) (c : Nat) (f : Misc → Misc) : (s.updMisc c f).scratch = s.scratch := rfl
@[simp] theorem updMisc_timers (s : State) (c : Nat) (f : Misc → Misc) : (s.updMisc c f).timers = s.timers := rfl

/-! ### updBlock -/

@[simp] theorem updBlock_pending (s : State) (b : Nat) (f : BlockSt → BlockSt) : (s.updBlock b f).pending = s.pending := rfl
@[simp] theorem updBlock_freeCtr (s : State) (b : Nat) (f : BlockSt → BlockSt) : (s.updBlock b f).freeCtr = s.freeCtr := rfl
@[simp] theorem updBlock_out (s : State) (b : Nat) (f : BlockSt → BlockSt) : (s.updBlock b f).out = s.out := rfl
@[simp] theorem updBlock_clk (s : State) (b : Nat) (f : BlockSt → BlockSt) : (s.updBlock b f).clk = s.clk := rfl
@[simp] theorem updBlock_pins (s : State) (b : Nat) (f : BlockSt → BlockSt) : (s.updBlock b f).pins = s.pins := rfl
@[simp] theorem updBlock_rst (s : State) (b : Nat) (f : BlockSt → BlockSt) : (s.updBlock b f).rst = s.rst := rfl
@[simp] theorem updBlock_keep (s : State) (b : Nat) (f : BlockSt → BlockSt) : (s.updBlock b f).keep = s.keep := rfl
@[simp] theorem updBlock_sec (s : State) (b : Nat) (f : BlockSt → BlockSt) : (s.updBlock b f).sec = s.sec := rfl
@[simp] theorem updBlock_sb (s : State) (b : Nat) (f : BlockSt → BlockSt) : (s.updBlock b f).sb = s.sb := rfl
@[simp] theorem updBlock_plan (s : State) (b : Nat) (f : BlockSt → BlockSt) : (s.updBlock b f).plan = s.plan := rfl
@[simp] theorem updBlock_svy (s : State) (b : Nat) (f : BlockSt → BlockSt) : (s.updBlock b f).svy = s.svy := rfl
@[simp] theorem updBlock_err (s : State) (b : Nat) (f : BlockSt → BlockSt) : (s.updBlock b f).err = s.err := rfl
@[simp] theorem updBlock_mon (s : State) (b : Nat) (f : BlockSt → BlockSt) : (s.updBlock b f).mon = s.mon := rfl
@[simp] theorem updBlock_sht (s : State) (b : Nat) (f : BlockSt → BlockSt) : (s.updBlock b f).sht = s.sht := rfl
@[simp] theorem updBlock_hif (s : State) (b : Nat) (f : BlockSt → BlockSt) : (s.updBlock b f).hif = s.hif := rfl
@[simp] theorem updBlock_jobs (s : State) (b : Nat) (f : BlockSt → BlockSt) : (s.updBlock b f).jobs = s.jobs := rfl
@[simp] theorem updBlock_clearing (s : State) (b : Nat) (f : BlockSt → BlockSt) : (s.updBlock b f).clearing = s.clearing := rfl
@[simp] theorem updBlock_tables (s : State) (b : Nat) (f : BlockSt → BlockSt) : (s.updBlock b f).tables = s.tables := rfl
@[simp] theorem updBlock_cells (s : State) (b : Nat) (f : BlockSt → BlockSt) : (s.updBlock b f).cells = s.cells := rfl
@[simp] theorem updBlock_regions (s : State) (b : Nat) (f : BlockSt → BlockSt) : (s.updBlock b f).regions = s.regions := rfl
@[simp] theorem updBlock_columns (s : State) (b : Nat) (f : BlockSt → BlockSt) : (s.updBlock b f).columns = s.columns := rfl
@[simp] theorem updBlock_stk (s : State) (b : Nat) (f : BlockSt → BlockSt) : (s.updBlock b f).stk = s.stk := rfl
@[simp] theorem updBlock_plain (s : State) (b : Nat) (f : BlockSt → BlockSt) : (s.updBlock b f).plain = s.plain := rfl
@[simp] theorem updBlock_syn (s : State) (b : Nat) (f : BlockSt → BlockSt) : (s.updBlock b f).syn = s.syn := rfl
@[simp] theorem updBlock_reds (s : State) (b : Nat) (f : BlockSt → BlockSt) : (s.updBlock b f).reds = s.reds := rfl
@[simp] theorem updBlock_ports (s : State) (b : Nat) (f : BlockSt → BlockSt) : (s.updBlock b f).ports = s.ports := rfl
@[simp] theorem updBlock_grp (s : State) (b : Nat) (f : BlockSt → BlockSt) : (s.updBlock b f).grp = s.grp := rfl
@[simp] theorem updBlock_pwr (s : State) (b : Nat) (f : BlockSt → BlockSt) : (s.updBlock b f).pwr = s.pwr := rfl
@[simp] theorem updBlock_share (s : State) (b : Nat) (f : BlockSt → BlockSt) : (s.updBlock b f).share = s.share := rfl
@[simp] theorem updBlock_thm (s : State) (b : Nat) (f : BlockSt → BlockSt) : (s.updBlock b f).thm = s.thm := rfl
@[simp] theorem updBlock_scratch (s : State) (b : Nat) (f : BlockSt → BlockSt) : (s.updBlock b f).scratch = s.scratch := rfl
@[simp] theorem updBlock_timers (s : State) (b : Nat) (f : BlockSt → BlockSt) : (s.updBlock b f).timers = s.timers := rfl

/-! ### updRegion -/

@[simp] theorem updRegion_pending (s : State) (r : Nat) (f : RegionSt → RegionSt) : (s.updRegion r f).pending = s.pending := rfl
@[simp] theorem updRegion_freeCtr (s : State) (r : Nat) (f : RegionSt → RegionSt) : (s.updRegion r f).freeCtr = s.freeCtr := rfl
@[simp] theorem updRegion_out (s : State) (r : Nat) (f : RegionSt → RegionSt) : (s.updRegion r f).out = s.out := rfl
@[simp] theorem updRegion_clk (s : State) (r : Nat) (f : RegionSt → RegionSt) : (s.updRegion r f).clk = s.clk := rfl
@[simp] theorem updRegion_pins (s : State) (r : Nat) (f : RegionSt → RegionSt) : (s.updRegion r f).pins = s.pins := rfl
@[simp] theorem updRegion_rst (s : State) (r : Nat) (f : RegionSt → RegionSt) : (s.updRegion r f).rst = s.rst := rfl
@[simp] theorem updRegion_keep (s : State) (r : Nat) (f : RegionSt → RegionSt) : (s.updRegion r f).keep = s.keep := rfl
@[simp] theorem updRegion_sec (s : State) (r : Nat) (f : RegionSt → RegionSt) : (s.updRegion r f).sec = s.sec := rfl
@[simp] theorem updRegion_sb (s : State) (r : Nat) (f : RegionSt → RegionSt) : (s.updRegion r f).sb = s.sb := rfl
@[simp] theorem updRegion_plan (s : State) (r : Nat) (f : RegionSt → RegionSt) : (s.updRegion r f).plan = s.plan := rfl
@[simp] theorem updRegion_svy (s : State) (r : Nat) (f : RegionSt → RegionSt) : (s.updRegion r f).svy = s.svy := rfl
@[simp] theorem updRegion_err (s : State) (r : Nat) (f : RegionSt → RegionSt) : (s.updRegion r f).err = s.err := rfl
@[simp] theorem updRegion_mon (s : State) (r : Nat) (f : RegionSt → RegionSt) : (s.updRegion r f).mon = s.mon := rfl
@[simp] theorem updRegion_sht (s : State) (r : Nat) (f : RegionSt → RegionSt) : (s.updRegion r f).sht = s.sht := rfl
@[simp] theorem updRegion_hif (s : State) (r : Nat) (f : RegionSt → RegionSt) : (s.updRegion r f).hif = s.hif := rfl
@[simp] theorem updRegion_jobs (s : State) (r : Nat) (f : RegionSt → RegionSt) : (s.updRegion r f).jobs = s.jobs := rfl
@[simp] theorem updRegion_clearing (s : State) (r : Nat) (f : RegionSt → RegionSt) : (s.updRegion r f).clearing = s.clearing := rfl
@[simp] theorem updRegion_tables (s : State) (r : Nat) (f : RegionSt → RegionSt) : (s.updRegion r f).tables = s.tables := rfl
@[simp] theorem updRegion_cells (s : State) (r : Nat) (f : RegionSt → RegionSt) : (s.updRegion r f).cells = s.cells := rfl
@[simp] theorem updRegion_blocks (s : State) (r : Nat) (f : RegionSt → RegionSt) : (s.updRegion r f).blocks = s.blocks := rfl
@[simp] theorem updRegion_columns (s : State) (r : Nat) (f : RegionSt → RegionSt) : (s.updRegion r f).columns = s.columns := rfl
@[simp] theorem updRegion_stk (s : State) (r : Nat) (f : RegionSt → RegionSt) : (s.updRegion r f).stk = s.stk := rfl
@[simp] theorem updRegion_plain (s : State) (r : Nat) (f : RegionSt → RegionSt) : (s.updRegion r f).plain = s.plain := rfl
@[simp] theorem updRegion_syn (s : State) (r : Nat) (f : RegionSt → RegionSt) : (s.updRegion r f).syn = s.syn := rfl
@[simp] theorem updRegion_reds (s : State) (r : Nat) (f : RegionSt → RegionSt) : (s.updRegion r f).reds = s.reds := rfl
@[simp] theorem updRegion_ports (s : State) (r : Nat) (f : RegionSt → RegionSt) : (s.updRegion r f).ports = s.ports := rfl
@[simp] theorem updRegion_grp (s : State) (r : Nat) (f : RegionSt → RegionSt) : (s.updRegion r f).grp = s.grp := rfl
@[simp] theorem updRegion_pwr (s : State) (r : Nat) (f : RegionSt → RegionSt) : (s.updRegion r f).pwr = s.pwr := rfl
@[simp] theorem updRegion_share (s : State) (r : Nat) (f : RegionSt → RegionSt) : (s.updRegion r f).share = s.share := rfl
@[simp] theorem updRegion_thm (s : State) (r : Nat) (f : RegionSt → RegionSt) : (s.updRegion r f).thm = s.thm := rfl
@[simp] theorem updRegion_scratch (s : State) (r : Nat) (f : RegionSt → RegionSt) : (s.updRegion r f).scratch = s.scratch := rfl
@[simp] theorem updRegion_timers (s : State) (r : Nat) (f : RegionSt → RegionSt) : (s.updRegion r f).timers = s.timers := rfl

/-! ### updPw -/

@[simp] theorem updPw_pending (s : State) (r : Nat) (f : RegionPw → RegionPw) : (s.updPw r f).pending = s.pending := rfl
@[simp] theorem updPw_freeCtr (s : State) (r : Nat) (f : RegionPw → RegionPw) : (s.updPw r f).freeCtr = s.freeCtr := rfl
@[simp] theorem updPw_out (s : State) (r : Nat) (f : RegionPw → RegionPw) : (s.updPw r f).out = s.out := rfl
@[simp] theorem updPw_clk (s : State) (r : Nat) (f : RegionPw → RegionPw) : (s.updPw r f).clk = s.clk := rfl
@[simp] theorem updPw_pins (s : State) (r : Nat) (f : RegionPw → RegionPw) : (s.updPw r f).pins = s.pins := rfl
@[simp] theorem updPw_rst (s : State) (r : Nat) (f : RegionPw → RegionPw) : (s.updPw r f).rst = s.rst := rfl
@[simp] theorem updPw_keep (s : State) (r : Nat) (f : RegionPw → RegionPw) : (s.updPw r f).keep = s.keep := rfl
@[simp] theorem updPw_sec (s : State) (r : Nat) (f : RegionPw → RegionPw) : (s.updPw r f).sec = s.sec := rfl
@[simp] theorem updPw_sb (s : State) (r : Nat) (f : RegionPw → RegionPw) : (s.updPw r f).sb = s.sb := rfl
@[simp] theorem updPw_plan (s : State) (r : Nat) (f : RegionPw → RegionPw) : (s.updPw r f).plan = s.plan := rfl
@[simp] theorem updPw_svy (s : State) (r : Nat) (f : RegionPw → RegionPw) : (s.updPw r f).svy = s.svy := rfl
@[simp] theorem updPw_err (s : State) (r : Nat) (f : RegionPw → RegionPw) : (s.updPw r f).err = s.err := rfl
@[simp] theorem updPw_mon (s : State) (r : Nat) (f : RegionPw → RegionPw) : (s.updPw r f).mon = s.mon := rfl
@[simp] theorem updPw_sht (s : State) (r : Nat) (f : RegionPw → RegionPw) : (s.updPw r f).sht = s.sht := rfl
@[simp] theorem updPw_hif (s : State) (r : Nat) (f : RegionPw → RegionPw) : (s.updPw r f).hif = s.hif := rfl
@[simp] theorem updPw_jobs (s : State) (r : Nat) (f : RegionPw → RegionPw) : (s.updPw r f).jobs = s.jobs := rfl
@[simp] theorem updPw_clearing (s : State) (r : Nat) (f : RegionPw → RegionPw) : (s.updPw r f).clearing = s.clearing := rfl
@[simp] theorem updPw_tables (s : State) (r : Nat) (f : RegionPw → RegionPw) : (s.updPw r f).tables = s.tables := rfl
@[simp] theorem updPw_cells (s : State) (r : Nat) (f : RegionPw → RegionPw) : (s.updPw r f).cells = s.cells := rfl
@[simp] theorem updPw_blocks (s : State) (r : Nat) (f : RegionPw → RegionPw) : (s.updPw r f).blocks = s.blocks := rfl
@[simp] theorem updPw_columns (s : State) (r : Nat) (f : RegionPw → RegionPw) : (s.updPw r f).columns = s.columns := rfl
@[simp] theorem updPw_stk (s : State) (r : Nat) (f : RegionPw → RegionPw) : (s.updPw r f).stk = s.stk := rfl
@[simp] theorem updPw_plain (s : State) (r : Nat) (f : RegionPw → RegionPw) : (s.updPw r f).plain = s.plain := rfl
@[simp] theorem updPw_syn (s : State) (r : Nat) (f : RegionPw → RegionPw) : (s.updPw r f).syn = s.syn := rfl
@[simp] theorem updPw_reds (s : State) (r : Nat) (f : RegionPw → RegionPw) : (s.updPw r f).reds = s.reds := rfl
@[simp] theorem updPw_ports (s : State) (r : Nat) (f : RegionPw → RegionPw) : (s.updPw r f).ports = s.ports := rfl
@[simp] theorem updPw_grp (s : State) (r : Nat) (f : RegionPw → RegionPw) : (s.updPw r f).grp = s.grp := rfl
@[simp] theorem updPw_pwr (s : State) (r : Nat) (f : RegionPw → RegionPw) : (s.updPw r f).pwr = s.pwr := rfl
@[simp] theorem updPw_share (s : State) (r : Nat) (f : RegionPw → RegionPw) : (s.updPw r f).share = s.share := rfl
@[simp] theorem updPw_thm (s : State) (r : Nat) (f : RegionPw → RegionPw) : (s.updPw r f).thm = s.thm := rfl
@[simp] theorem updPw_scratch (s : State) (r : Nat) (f : RegionPw → RegionPw) : (s.updPw r f).scratch = s.scratch := rfl
@[simp] theorem updPw_timers (s : State) (r : Nat) (f : RegionPw → RegionPw) : (s.updPw r f).timers = s.timers := rfl

/-! ### updColumn -/

@[simp] theorem updColumn_pending (s : State) (c : Nat) (f : ColumnSt → ColumnSt) : (s.updColumn c f).pending = s.pending := rfl
@[simp] theorem updColumn_freeCtr (s : State) (c : Nat) (f : ColumnSt → ColumnSt) : (s.updColumn c f).freeCtr = s.freeCtr := rfl
@[simp] theorem updColumn_out (s : State) (c : Nat) (f : ColumnSt → ColumnSt) : (s.updColumn c f).out = s.out := rfl
@[simp] theorem updColumn_clk (s : State) (c : Nat) (f : ColumnSt → ColumnSt) : (s.updColumn c f).clk = s.clk := rfl
@[simp] theorem updColumn_pins (s : State) (c : Nat) (f : ColumnSt → ColumnSt) : (s.updColumn c f).pins = s.pins := rfl
@[simp] theorem updColumn_rst (s : State) (c : Nat) (f : ColumnSt → ColumnSt) : (s.updColumn c f).rst = s.rst := rfl
@[simp] theorem updColumn_keep (s : State) (c : Nat) (f : ColumnSt → ColumnSt) : (s.updColumn c f).keep = s.keep := rfl
@[simp] theorem updColumn_sec (s : State) (c : Nat) (f : ColumnSt → ColumnSt) : (s.updColumn c f).sec = s.sec := rfl
@[simp] theorem updColumn_sb (s : State) (c : Nat) (f : ColumnSt → ColumnSt) : (s.updColumn c f).sb = s.sb := rfl
@[simp] theorem updColumn_plan (s : State) (c : Nat) (f : ColumnSt → ColumnSt) : (s.updColumn c f).plan = s.plan := rfl
@[simp] theorem updColumn_svy (s : State) (c : Nat) (f : ColumnSt → ColumnSt) : (s.updColumn c f).svy = s.svy := rfl
@[simp] theorem updColumn_err (s : State) (c : Nat) (f : ColumnSt → ColumnSt) : (s.updColumn c f).err = s.err := rfl
@[simp] theorem updColumn_mon (s : State) (c : Nat) (f : ColumnSt → ColumnSt) : (s.updColumn c f).mon = s.mon := rfl
@[simp] theorem updColumn_sht (s : State) (c : Nat) (f : ColumnSt → ColumnSt) : (s.updColumn c f).sht = s.sht := rfl
@[simp] theorem updColumn_hif (s : State) (c : Nat) (f : ColumnSt → ColumnSt) : (s.updColumn c f).hif = s.hif := rfl
@[simp] theorem updColumn_jobs (s : State) (c : Nat) (f : ColumnSt → ColumnSt) : (s.updColumn c f).jobs = s.jobs := rfl
@[simp] theorem updColumn_clearing (s : State) (c : Nat) (f : ColumnSt → ColumnSt) : (s.updColumn c f).clearing = s.clearing := rfl
@[simp] theorem updColumn_tables (s : State) (c : Nat) (f : ColumnSt → ColumnSt) : (s.updColumn c f).tables = s.tables := rfl
@[simp] theorem updColumn_cells (s : State) (c : Nat) (f : ColumnSt → ColumnSt) : (s.updColumn c f).cells = s.cells := rfl
@[simp] theorem updColumn_blocks (s : State) (c : Nat) (f : ColumnSt → ColumnSt) : (s.updColumn c f).blocks = s.blocks := rfl
@[simp] theorem updColumn_regions (s : State) (c : Nat) (f : ColumnSt → ColumnSt) : (s.updColumn c f).regions = s.regions := rfl
@[simp] theorem updColumn_stk (s : State) (c : Nat) (f : ColumnSt → ColumnSt) : (s.updColumn c f).stk = s.stk := rfl
@[simp] theorem updColumn_plain (s : State) (c : Nat) (f : ColumnSt → ColumnSt) : (s.updColumn c f).plain = s.plain := rfl
@[simp] theorem updColumn_syn (s : State) (c : Nat) (f : ColumnSt → ColumnSt) : (s.updColumn c f).syn = s.syn := rfl
@[simp] theorem updColumn_reds (s : State) (c : Nat) (f : ColumnSt → ColumnSt) : (s.updColumn c f).reds = s.reds := rfl
@[simp] theorem updColumn_ports (s : State) (c : Nat) (f : ColumnSt → ColumnSt) : (s.updColumn c f).ports = s.ports := rfl
@[simp] theorem updColumn_grp (s : State) (c : Nat) (f : ColumnSt → ColumnSt) : (s.updColumn c f).grp = s.grp := rfl
@[simp] theorem updColumn_pwr (s : State) (c : Nat) (f : ColumnSt → ColumnSt) : (s.updColumn c f).pwr = s.pwr := rfl
@[simp] theorem updColumn_share (s : State) (c : Nat) (f : ColumnSt → ColumnSt) : (s.updColumn c f).share = s.share := rfl
@[simp] theorem updColumn_thm (s : State) (c : Nat) (f : ColumnSt → ColumnSt) : (s.updColumn c f).thm = s.thm := rfl
@[simp] theorem updColumn_scratch (s : State) (c : Nat) (f : ColumnSt → ColumnSt) : (s.updColumn c f).scratch = s.scratch := rfl
@[simp] theorem updColumn_timers (s : State) (c : Nat) (f : ColumnSt → ColumnSt) : (s.updColumn c f).timers = s.timers := rfl

/-! ### updStack -/

@[simp] theorem updStack_pending (s : State) (n : Nat) (f : StackSt → StackSt) : (s.updStack n f).pending = s.pending := rfl
@[simp] theorem updStack_freeCtr (s : State) (n : Nat) (f : StackSt → StackSt) : (s.updStack n f).freeCtr = s.freeCtr := rfl
@[simp] theorem updStack_out (s : State) (n : Nat) (f : StackSt → StackSt) : (s.updStack n f).out = s.out := rfl
@[simp] theorem updStack_clk (s : State) (n : Nat) (f : StackSt → StackSt) : (s.updStack n f).clk = s.clk := rfl
@[simp] theorem updStack_pins (s : State) (n : Nat) (f : StackSt → StackSt) : (s.updStack n f).pins = s.pins := rfl
@[simp] theorem updStack_rst (s : State) (n : Nat) (f : StackSt → StackSt) : (s.updStack n f).rst = s.rst := rfl
@[simp] theorem updStack_keep (s : State) (n : Nat) (f : StackSt → StackSt) : (s.updStack n f).keep = s.keep := rfl
@[simp] theorem updStack_sec (s : State) (n : Nat) (f : StackSt → StackSt) : (s.updStack n f).sec = s.sec := rfl
@[simp] theorem updStack_sb (s : State) (n : Nat) (f : StackSt → StackSt) : (s.updStack n f).sb = s.sb := rfl
@[simp] theorem updStack_plan (s : State) (n : Nat) (f : StackSt → StackSt) : (s.updStack n f).plan = s.plan := rfl
@[simp] theorem updStack_svy (s : State) (n : Nat) (f : StackSt → StackSt) : (s.updStack n f).svy = s.svy := rfl
@[simp] theorem updStack_err (s : State) (n : Nat) (f : StackSt → StackSt) : (s.updStack n f).err = s.err := rfl
@[simp] theorem updStack_mon (s : State) (n : Nat) (f : StackSt → StackSt) : (s.updStack n f).mon = s.mon := rfl
@[simp] theorem updStack_sht (s : State) (n : Nat) (f : StackSt → StackSt) : (s.updStack n f).sht = s.sht := rfl
@[simp] theorem updStack_hif (s : State) (n : Nat) (f : StackSt → StackSt) : (s.updStack n f).hif = s.hif := rfl
@[simp] theorem updStack_jobs (s : State) (n : Nat) (f : StackSt → StackSt) : (s.updStack n f).jobs = s.jobs := rfl
@[simp] theorem updStack_clearing (s : State) (n : Nat) (f : StackSt → StackSt) : (s.updStack n f).clearing = s.clearing := rfl
@[simp] theorem updStack_tables (s : State) (n : Nat) (f : StackSt → StackSt) : (s.updStack n f).tables = s.tables := rfl
@[simp] theorem updStack_cells (s : State) (n : Nat) (f : StackSt → StackSt) : (s.updStack n f).cells = s.cells := rfl
@[simp] theorem updStack_blocks (s : State) (n : Nat) (f : StackSt → StackSt) : (s.updStack n f).blocks = s.blocks := rfl
@[simp] theorem updStack_regions (s : State) (n : Nat) (f : StackSt → StackSt) : (s.updStack n f).regions = s.regions := rfl
@[simp] theorem updStack_columns (s : State) (n : Nat) (f : StackSt → StackSt) : (s.updStack n f).columns = s.columns := rfl
@[simp] theorem updStack_plain (s : State) (n : Nat) (f : StackSt → StackSt) : (s.updStack n f).plain = s.plain := rfl
@[simp] theorem updStack_syn (s : State) (n : Nat) (f : StackSt → StackSt) : (s.updStack n f).syn = s.syn := rfl
@[simp] theorem updStack_reds (s : State) (n : Nat) (f : StackSt → StackSt) : (s.updStack n f).reds = s.reds := rfl
@[simp] theorem updStack_ports (s : State) (n : Nat) (f : StackSt → StackSt) : (s.updStack n f).ports = s.ports := rfl
@[simp] theorem updStack_grp (s : State) (n : Nat) (f : StackSt → StackSt) : (s.updStack n f).grp = s.grp := rfl
@[simp] theorem updStack_pwr (s : State) (n : Nat) (f : StackSt → StackSt) : (s.updStack n f).pwr = s.pwr := rfl
@[simp] theorem updStack_share (s : State) (n : Nat) (f : StackSt → StackSt) : (s.updStack n f).share = s.share := rfl
@[simp] theorem updStack_thm (s : State) (n : Nat) (f : StackSt → StackSt) : (s.updStack n f).thm = s.thm := rfl
@[simp] theorem updStack_scratch (s : State) (n : Nat) (f : StackSt → StackSt) : (s.updStack n f).scratch = s.scratch := rfl
@[simp] theorem updStack_timers (s : State) (n : Nat) (f : StackSt → StackSt) : (s.updStack n f).timers = s.timers := rfl

/-! ### updPort -/

@[simp] theorem updPort_pending (s : State) (n : Nat) (f : Port → Port) : (s.updPort n f).pending = s.pending := rfl
@[simp] theorem updPort_freeCtr (s : State) (n : Nat) (f : Port → Port) : (s.updPort n f).freeCtr = s.freeCtr := rfl
@[simp] theorem updPort_out (s : State) (n : Nat) (f : Port → Port) : (s.updPort n f).out = s.out := rfl
@[simp] theorem updPort_clk (s : State) (n : Nat) (f : Port → Port) : (s.updPort n f).clk = s.clk := rfl
@[simp] theorem updPort_pins (s : State) (n : Nat) (f : Port → Port) : (s.updPort n f).pins = s.pins := rfl
@[simp] theorem updPort_rst (s : State) (n : Nat) (f : Port → Port) : (s.updPort n f).rst = s.rst := rfl
@[simp] theorem updPort_keep (s : State) (n : Nat) (f : Port → Port) : (s.updPort n f).keep = s.keep := rfl
@[simp] theorem updPort_sec (s : State) (n : Nat) (f : Port → Port) : (s.updPort n f).sec = s.sec := rfl
@[simp] theorem updPort_sb (s : State) (n : Nat) (f : Port → Port) : (s.updPort n f).sb = s.sb := rfl
@[simp] theorem updPort_plan (s : State) (n : Nat) (f : Port → Port) : (s.updPort n f).plan = s.plan := rfl
@[simp] theorem updPort_svy (s : State) (n : Nat) (f : Port → Port) : (s.updPort n f).svy = s.svy := rfl
@[simp] theorem updPort_err (s : State) (n : Nat) (f : Port → Port) : (s.updPort n f).err = s.err := rfl
@[simp] theorem updPort_mon (s : State) (n : Nat) (f : Port → Port) : (s.updPort n f).mon = s.mon := rfl
@[simp] theorem updPort_sht (s : State) (n : Nat) (f : Port → Port) : (s.updPort n f).sht = s.sht := rfl
@[simp] theorem updPort_hif (s : State) (n : Nat) (f : Port → Port) : (s.updPort n f).hif = s.hif := rfl
@[simp] theorem updPort_jobs (s : State) (n : Nat) (f : Port → Port) : (s.updPort n f).jobs = s.jobs := rfl
@[simp] theorem updPort_clearing (s : State) (n : Nat) (f : Port → Port) : (s.updPort n f).clearing = s.clearing := rfl
@[simp] theorem updPort_tables (s : State) (n : Nat) (f : Port → Port) : (s.updPort n f).tables = s.tables := rfl
@[simp] theorem updPort_cells (s : State) (n : Nat) (f : Port → Port) : (s.updPort n f).cells = s.cells := rfl
@[simp] theorem updPort_blocks (s : State) (n : Nat) (f : Port → Port) : (s.updPort n f).blocks = s.blocks := rfl
@[simp] theorem updPort_regions (s : State) (n : Nat) (f : Port → Port) : (s.updPort n f).regions = s.regions := rfl
@[simp] theorem updPort_columns (s : State) (n : Nat) (f : Port → Port) : (s.updPort n f).columns = s.columns := rfl
@[simp] theorem updPort_stk (s : State) (n : Nat) (f : Port → Port) : (s.updPort n f).stk = s.stk := rfl
@[simp] theorem updPort_plain (s : State) (n : Nat) (f : Port → Port) : (s.updPort n f).plain = s.plain := rfl
@[simp] theorem updPort_syn (s : State) (n : Nat) (f : Port → Port) : (s.updPort n f).syn = s.syn := rfl
@[simp] theorem updPort_reds (s : State) (n : Nat) (f : Port → Port) : (s.updPort n f).reds = s.reds := rfl
@[simp] theorem updPort_grp (s : State) (n : Nat) (f : Port → Port) : (s.updPort n f).grp = s.grp := rfl
@[simp] theorem updPort_pwr (s : State) (n : Nat) (f : Port → Port) : (s.updPort n f).pwr = s.pwr := rfl
@[simp] theorem updPort_share (s : State) (n : Nat) (f : Port → Port) : (s.updPort n f).share = s.share := rfl
@[simp] theorem updPort_thm (s : State) (n : Nat) (f : Port → Port) : (s.updPort n f).thm = s.thm := rfl
@[simp] theorem updPort_scratch (s : State) (n : Nat) (f : Port → Port) : (s.updPort n f).scratch = s.scratch := rfl
@[simp] theorem updPort_timers (s : State) (n : Nat) (f : Port → Port) : (s.updPort n f).timers = s.timers := rfl

/-! ### updRing -/

@[simp] theorem updRing_pending (s : State) (n : Nat) (f : Ring → Ring) : (s.updRing n f).pending = s.pending := rfl
@[simp] theorem updRing_freeCtr (s : State) (n : Nat) (f : Ring → Ring) : (s.updRing n f).freeCtr = s.freeCtr := rfl
@[simp] theorem updRing_out (s : State) (n : Nat) (f : Ring → Ring) : (s.updRing n f).out = s.out := rfl
@[simp] theorem updRing_clk (s : State) (n : Nat) (f : Ring → Ring) : (s.updRing n f).clk = s.clk := rfl
@[simp] theorem updRing_pins (s : State) (n : Nat) (f : Ring → Ring) : (s.updRing n f).pins = s.pins := rfl
@[simp] theorem updRing_rst (s : State) (n : Nat) (f : Ring → Ring) : (s.updRing n f).rst = s.rst := rfl
@[simp] theorem updRing_keep (s : State) (n : Nat) (f : Ring → Ring) : (s.updRing n f).keep = s.keep := rfl
@[simp] theorem updRing_sec (s : State) (n : Nat) (f : Ring → Ring) : (s.updRing n f).sec = s.sec := rfl
@[simp] theorem updRing_sb (s : State) (n : Nat) (f : Ring → Ring) : (s.updRing n f).sb = s.sb := rfl
@[simp] theorem updRing_plan (s : State) (n : Nat) (f : Ring → Ring) : (s.updRing n f).plan = s.plan := rfl
@[simp] theorem updRing_svy (s : State) (n : Nat) (f : Ring → Ring) : (s.updRing n f).svy = s.svy := rfl
@[simp] theorem updRing_err (s : State) (n : Nat) (f : Ring → Ring) : (s.updRing n f).err = s.err := rfl
@[simp] theorem updRing_mon (s : State) (n : Nat) (f : Ring → Ring) : (s.updRing n f).mon = s.mon := rfl
@[simp] theorem updRing_sht (s : State) (n : Nat) (f : Ring → Ring) : (s.updRing n f).sht = s.sht := rfl
@[simp] theorem updRing_jobs (s : State) (n : Nat) (f : Ring → Ring) : (s.updRing n f).jobs = s.jobs := rfl
@[simp] theorem updRing_clearing (s : State) (n : Nat) (f : Ring → Ring) : (s.updRing n f).clearing = s.clearing := rfl
@[simp] theorem updRing_tables (s : State) (n : Nat) (f : Ring → Ring) : (s.updRing n f).tables = s.tables := rfl
@[simp] theorem updRing_cells (s : State) (n : Nat) (f : Ring → Ring) : (s.updRing n f).cells = s.cells := rfl
@[simp] theorem updRing_blocks (s : State) (n : Nat) (f : Ring → Ring) : (s.updRing n f).blocks = s.blocks := rfl
@[simp] theorem updRing_regions (s : State) (n : Nat) (f : Ring → Ring) : (s.updRing n f).regions = s.regions := rfl
@[simp] theorem updRing_columns (s : State) (n : Nat) (f : Ring → Ring) : (s.updRing n f).columns = s.columns := rfl
@[simp] theorem updRing_stk (s : State) (n : Nat) (f : Ring → Ring) : (s.updRing n f).stk = s.stk := rfl
@[simp] theorem updRing_plain (s : State) (n : Nat) (f : Ring → Ring) : (s.updRing n f).plain = s.plain := rfl
@[simp] theorem updRing_syn (s : State) (n : Nat) (f : Ring → Ring) : (s.updRing n f).syn = s.syn := rfl
@[simp] theorem updRing_reds (s : State) (n : Nat) (f : Ring → Ring) : (s.updRing n f).reds = s.reds := rfl
@[simp] theorem updRing_ports (s : State) (n : Nat) (f : Ring → Ring) : (s.updRing n f).ports = s.ports := rfl
@[simp] theorem updRing_grp (s : State) (n : Nat) (f : Ring → Ring) : (s.updRing n f).grp = s.grp := rfl
@[simp] theorem updRing_pwr (s : State) (n : Nat) (f : Ring → Ring) : (s.updRing n f).pwr = s.pwr := rfl
@[simp] theorem updRing_share (s : State) (n : Nat) (f : Ring → Ring) : (s.updRing n f).share = s.share := rfl
@[simp] theorem updRing_thm (s : State) (n : Nat) (f : Ring → Ring) : (s.updRing n f).thm = s.thm := rfl
@[simp] theorem updRing_scratch (s : State) (n : Nat) (f : Ring → Ring) : (s.updRing n f).scratch = s.scratch := rfl
@[simp] theorem updRing_timers (s : State) (n : Nat) (f : Ring → Ring) : (s.updRing n f).timers = s.timers := rfl

/-! ### updCellPlan -/

@[simp] theorem updCellPlan_pending (s : State) (c : Nat) (f : CellPlan → CellPlan) : (s.updCellPlan c f).pending = s.pending := rfl
@[simp] theorem updCellPlan_freeCtr (s : State) (c : Nat) (f : CellPlan → CellPlan) : (s.updCellPlan c f).freeCtr = s.freeCtr := rfl
@[simp] theorem updCellPlan_out (s : State) (c : Nat) (f : CellPlan → CellPlan) : (s.updCellPlan c f).out = s.out := rfl
@[simp] theorem updCellPlan_clk (s : State) (c : Nat) (f : CellPlan → CellPlan) : (s.updCellPlan c f).clk = s.clk := rfl
@[simp] theorem updCellPlan_pins (s : State) (c : Nat) (f : CellPlan → CellPlan) : (s.updCellPlan c f).pins = s.pins := rfl
@[simp] theorem updCellPlan_rst (s : State) (c : Nat) (f : CellPlan → CellPlan) : (s.updCellPlan c f).rst = s.rst := rfl
@[simp] theorem updCellPlan_keep (s : State) (c : Nat) (f : CellPlan → CellPlan) : (s.updCellPlan c f).keep = s.keep := rfl
@[simp] theorem updCellPlan_sec (s : State) (c : Nat) (f : CellPlan → CellPlan) : (s.updCellPlan c f).sec = s.sec := rfl
@[simp] theorem updCellPlan_sb (s : State) (c : Nat) (f : CellPlan → CellPlan) : (s.updCellPlan c f).sb = s.sb := rfl
@[simp] theorem updCellPlan_svy (s : State) (c : Nat) (f : CellPlan → CellPlan) : (s.updCellPlan c f).svy = s.svy := rfl
@[simp] theorem updCellPlan_err (s : State) (c : Nat) (f : CellPlan → CellPlan) : (s.updCellPlan c f).err = s.err := rfl
@[simp] theorem updCellPlan_mon (s : State) (c : Nat) (f : CellPlan → CellPlan) : (s.updCellPlan c f).mon = s.mon := rfl
@[simp] theorem updCellPlan_sht (s : State) (c : Nat) (f : CellPlan → CellPlan) : (s.updCellPlan c f).sht = s.sht := rfl
@[simp] theorem updCellPlan_hif (s : State) (c : Nat) (f : CellPlan → CellPlan) : (s.updCellPlan c f).hif = s.hif := rfl
@[simp] theorem updCellPlan_jobs (s : State) (c : Nat) (f : CellPlan → CellPlan) : (s.updCellPlan c f).jobs = s.jobs := rfl
@[simp] theorem updCellPlan_clearing (s : State) (c : Nat) (f : CellPlan → CellPlan) : (s.updCellPlan c f).clearing = s.clearing := rfl
@[simp] theorem updCellPlan_tables (s : State) (c : Nat) (f : CellPlan → CellPlan) : (s.updCellPlan c f).tables = s.tables := rfl
@[simp] theorem updCellPlan_cells (s : State) (c : Nat) (f : CellPlan → CellPlan) : (s.updCellPlan c f).cells = s.cells := rfl
@[simp] theorem updCellPlan_blocks (s : State) (c : Nat) (f : CellPlan → CellPlan) : (s.updCellPlan c f).blocks = s.blocks := rfl
@[simp] theorem updCellPlan_regions (s : State) (c : Nat) (f : CellPlan → CellPlan) : (s.updCellPlan c f).regions = s.regions := rfl
@[simp] theorem updCellPlan_columns (s : State) (c : Nat) (f : CellPlan → CellPlan) : (s.updCellPlan c f).columns = s.columns := rfl
@[simp] theorem updCellPlan_stk (s : State) (c : Nat) (f : CellPlan → CellPlan) : (s.updCellPlan c f).stk = s.stk := rfl
@[simp] theorem updCellPlan_plain (s : State) (c : Nat) (f : CellPlan → CellPlan) : (s.updCellPlan c f).plain = s.plain := rfl
@[simp] theorem updCellPlan_syn (s : State) (c : Nat) (f : CellPlan → CellPlan) : (s.updCellPlan c f).syn = s.syn := rfl
@[simp] theorem updCellPlan_reds (s : State) (c : Nat) (f : CellPlan → CellPlan) : (s.updCellPlan c f).reds = s.reds := rfl
@[simp] theorem updCellPlan_ports (s : State) (c : Nat) (f : CellPlan → CellPlan) : (s.updCellPlan c f).ports = s.ports := rfl
@[simp] theorem updCellPlan_grp (s : State) (c : Nat) (f : CellPlan → CellPlan) : (s.updCellPlan c f).grp = s.grp := rfl
@[simp] theorem updCellPlan_pwr (s : State) (c : Nat) (f : CellPlan → CellPlan) : (s.updCellPlan c f).pwr = s.pwr := rfl
@[simp] theorem updCellPlan_share (s : State) (c : Nat) (f : CellPlan → CellPlan) : (s.updCellPlan c f).share = s.share := rfl
@[simp] theorem updCellPlan_thm (s : State) (c : Nat) (f : CellPlan → CellPlan) : (s.updCellPlan c f).thm = s.thm := rfl
@[simp] theorem updCellPlan_scratch (s : State) (c : Nat) (f : CellPlan → CellPlan) : (s.updCellPlan c f).scratch = s.scratch := rfl
@[simp] theorem updCellPlan_timers (s : State) (c : Nat) (f : CellPlan → CellPlan) : (s.updCellPlan c f).timers = s.timers := rfl

/-! ### updBlockPlan -/

@[simp] theorem updBlockPlan_pending (s : State) (b : Nat) (f : BlockPlan → BlockPlan) : (s.updBlockPlan b f).pending = s.pending := rfl
@[simp] theorem updBlockPlan_freeCtr (s : State) (b : Nat) (f : BlockPlan → BlockPlan) : (s.updBlockPlan b f).freeCtr = s.freeCtr := rfl
@[simp] theorem updBlockPlan_out (s : State) (b : Nat) (f : BlockPlan → BlockPlan) : (s.updBlockPlan b f).out = s.out := rfl
@[simp] theorem updBlockPlan_clk (s : State) (b : Nat) (f : BlockPlan → BlockPlan) : (s.updBlockPlan b f).clk = s.clk := rfl
@[simp] theorem updBlockPlan_pins (s : State) (b : Nat) (f : BlockPlan → BlockPlan) : (s.updBlockPlan b f).pins = s.pins := rfl
@[simp] theorem updBlockPlan_rst (s : State) (b : Nat) (f : BlockPlan → BlockPlan) : (s.updBlockPlan b f).rst = s.rst := rfl
@[simp] theorem updBlockPlan_keep (s : State) (b : Nat) (f : BlockPlan → BlockPlan) : (s.updBlockPlan b f).keep = s.keep := rfl
@[simp] theorem updBlockPlan_sec (s : State) (b : Nat) (f : BlockPlan → BlockPlan) : (s.updBlockPlan b f).sec = s.sec := rfl
@[simp] theorem updBlockPlan_sb (s : State) (b : Nat) (f : BlockPlan → BlockPlan) : (s.updBlockPlan b f).sb = s.sb := rfl
@[simp] theorem updBlockPlan_svy (s : State) (b : Nat) (f : BlockPlan → BlockPlan) : (s.updBlockPlan b f).svy = s.svy := rfl
@[simp] theorem updBlockPlan_err (s : State) (b : Nat) (f : BlockPlan → BlockPlan) : (s.updBlockPlan b f).err = s.err := rfl
@[simp] theorem updBlockPlan_mon (s : State) (b : Nat) (f : BlockPlan → BlockPlan) : (s.updBlockPlan b f).mon = s.mon := rfl
@[simp] theorem updBlockPlan_sht (s : State) (b : Nat) (f : BlockPlan → BlockPlan) : (s.updBlockPlan b f).sht = s.sht := rfl
@[simp] theorem updBlockPlan_hif (s : State) (b : Nat) (f : BlockPlan → BlockPlan) : (s.updBlockPlan b f).hif = s.hif := rfl
@[simp] theorem updBlockPlan_jobs (s : State) (b : Nat) (f : BlockPlan → BlockPlan) : (s.updBlockPlan b f).jobs = s.jobs := rfl
@[simp] theorem updBlockPlan_clearing (s : State) (b : Nat) (f : BlockPlan → BlockPlan) : (s.updBlockPlan b f).clearing = s.clearing := rfl
@[simp] theorem updBlockPlan_tables (s : State) (b : Nat) (f : BlockPlan → BlockPlan) : (s.updBlockPlan b f).tables = s.tables := rfl
@[simp] theorem updBlockPlan_cells (s : State) (b : Nat) (f : BlockPlan → BlockPlan) : (s.updBlockPlan b f).cells = s.cells := rfl
@[simp] theorem updBlockPlan_blocks (s : State) (b : Nat) (f : BlockPlan → BlockPlan) : (s.updBlockPlan b f).blocks = s.blocks := rfl
@[simp] theorem updBlockPlan_regions (s : State) (b : Nat) (f : BlockPlan → BlockPlan) : (s.updBlockPlan b f).regions = s.regions := rfl
@[simp] theorem updBlockPlan_columns (s : State) (b : Nat) (f : BlockPlan → BlockPlan) : (s.updBlockPlan b f).columns = s.columns := rfl
@[simp] theorem updBlockPlan_stk (s : State) (b : Nat) (f : BlockPlan → BlockPlan) : (s.updBlockPlan b f).stk = s.stk := rfl
@[simp] theorem updBlockPlan_plain (s : State) (b : Nat) (f : BlockPlan → BlockPlan) : (s.updBlockPlan b f).plain = s.plain := rfl
@[simp] theorem updBlockPlan_syn (s : State) (b : Nat) (f : BlockPlan → BlockPlan) : (s.updBlockPlan b f).syn = s.syn := rfl
@[simp] theorem updBlockPlan_reds (s : State) (b : Nat) (f : BlockPlan → BlockPlan) : (s.updBlockPlan b f).reds = s.reds := rfl
@[simp] theorem updBlockPlan_ports (s : State) (b : Nat) (f : BlockPlan → BlockPlan) : (s.updBlockPlan b f).ports = s.ports := rfl
@[simp] theorem updBlockPlan_grp (s : State) (b : Nat) (f : BlockPlan → BlockPlan) : (s.updBlockPlan b f).grp = s.grp := rfl
@[simp] theorem updBlockPlan_pwr (s : State) (b : Nat) (f : BlockPlan → BlockPlan) : (s.updBlockPlan b f).pwr = s.pwr := rfl
@[simp] theorem updBlockPlan_share (s : State) (b : Nat) (f : BlockPlan → BlockPlan) : (s.updBlockPlan b f).share = s.share := rfl
@[simp] theorem updBlockPlan_thm (s : State) (b : Nat) (f : BlockPlan → BlockPlan) : (s.updBlockPlan b f).thm = s.thm := rfl
@[simp] theorem updBlockPlan_scratch (s : State) (b : Nat) (f : BlockPlan → BlockPlan) : (s.updBlockPlan b f).scratch = s.scratch := rfl
@[simp] theorem updBlockPlan_timers (s : State) (b : Nat) (f : BlockPlan → BlockPlan) : (s.updBlockPlan b f).timers = s.timers := rfl

/-! ### updRegionPlan -/

@[simp] theorem updRegionPlan_pending (s : State) (r : Nat) (f : RegionPlan → RegionPlan) : (s.updRegionPlan r f).pending = s.pending := rfl
@[simp] theorem updRegionPlan_freeCtr (s : State) (r : Nat) (f : RegionPlan → RegionPlan) : (s.updRegionPlan r f).freeCtr = s.freeCtr := rfl
@[simp] theorem updRegionPlan_out (s : State) (r : Nat) (f : RegionPlan → RegionPlan) : (s.updRegionPlan r f).out = s.out := rfl
@[simp] theorem updRegionPlan_clk (s : State) (r : Nat) (f : RegionPlan → RegionPlan) : (s.updRegionPlan r f).clk = s.clk := rfl
@[simp] theorem updRegionPlan_pins (s : State) (r : Nat) (f : RegionPlan → RegionPlan) : (s.updRegionPlan r f).pins = s.pins := rfl
@[simp] theorem updRegionPlan_rst (s : State) (r : Nat) (f : RegionPlan → RegionPlan) : (s.updRegionPlan r f).rst = s.rst := rfl
@[simp] theorem updRegionPlan_keep (s : State) (r : Nat) (f : RegionPlan → RegionPlan) : (s.updRegionPlan r f).keep = s.keep := rfl
@[simp] theorem updRegionPlan_sec (s : State) (r : Nat) (f : RegionPlan → RegionPlan) : (s.updRegionPlan r f).sec = s.sec := rfl
@[simp] theorem updRegionPlan_sb (s : State) (r : Nat) (f : RegionPlan → RegionPlan) : (s.updRegionPlan r f).sb = s.sb := rfl
@[simp] theorem updRegionPlan_svy (s : State) (r : Nat) (f : RegionPlan → RegionPlan) : (s.updRegionPlan r f).svy = s.svy := rfl
@[simp] theorem updRegionPlan_err (s : State) (r : Nat) (f : RegionPlan → RegionPlan) : (s.updRegionPlan r f).err = s.err := rfl
@[simp] theorem updRegionPlan_mon (s : State) (r : Nat) (f : RegionPlan → RegionPlan) : (s.updRegionPlan r f).mon = s.mon := rfl
@[simp] theorem updRegionPlan_sht (s : State) (r : Nat) (f : RegionPlan → RegionPlan) : (s.updRegionPlan r f).sht = s.sht := rfl
@[simp] theorem updRegionPlan_hif (s : State) (r : Nat) (f : RegionPlan → RegionPlan) : (s.updRegionPlan r f).hif = s.hif := rfl
@[simp] theorem updRegionPlan_jobs (s : State) (r : Nat) (f : RegionPlan → RegionPlan) : (s.updRegionPlan r f).jobs = s.jobs := rfl
@[simp] theorem updRegionPlan_clearing (s : State) (r : Nat) (f : RegionPlan → RegionPlan) : (s.updRegionPlan r f).clearing = s.clearing := rfl
@[simp] theorem updRegionPlan_tables (s : State) (r : Nat) (f : RegionPlan → RegionPlan) : (s.updRegionPlan r f).tables = s.tables := rfl
@[simp] theorem updRegionPlan_cells (s : State) (r : Nat) (f : RegionPlan → RegionPlan) : (s.updRegionPlan r f).cells = s.cells := rfl
@[simp] theorem updRegionPlan_blocks (s : State) (r : Nat) (f : RegionPlan → RegionPlan) : (s.updRegionPlan r f).blocks = s.blocks := rfl
@[simp] theorem updRegionPlan_regions (s : State) (r : Nat) (f : RegionPlan → RegionPlan) : (s.updRegionPlan r f).regions = s.regions := rfl
@[simp] theorem updRegionPlan_columns (s : State) (r : Nat) (f : RegionPlan → RegionPlan) : (s.updRegionPlan r f).columns = s.columns := rfl
@[simp] theorem updRegionPlan_stk (s : State) (r : Nat) (f : RegionPlan → RegionPlan) : (s.updRegionPlan r f).stk = s.stk := rfl
@[simp] theorem updRegionPlan_plain (s : State) (r : Nat) (f : RegionPlan → RegionPlan) : (s.updRegionPlan r f).plain = s.plain := rfl
@[simp] theorem updRegionPlan_syn (s : State) (r : Nat) (f : RegionPlan → RegionPlan) : (s.updRegionPlan r f).syn = s.syn := rfl
@[simp] theorem updRegionPlan_reds (s : State) (r : Nat) (f : RegionPlan → RegionPlan) : (s.updRegionPlan r f).reds = s.reds := rfl
@[simp] theorem updRegionPlan_ports (s : State) (r : Nat) (f : RegionPlan → RegionPlan) : (s.updRegionPlan r f).ports = s.ports := rfl
@[simp] theorem updRegionPlan_grp (s : State) (r : Nat) (f : RegionPlan → RegionPlan) : (s.updRegionPlan r f).grp = s.grp := rfl
@[simp] theorem updRegionPlan_pwr (s : State) (r : Nat) (f : RegionPlan → RegionPlan) : (s.updRegionPlan r f).pwr = s.pwr := rfl
@[simp] theorem updRegionPlan_share (s : State) (r : Nat) (f : RegionPlan → RegionPlan) : (s.updRegionPlan r f).share = s.share := rfl
@[simp] theorem updRegionPlan_thm (s : State) (r : Nat) (f : RegionPlan → RegionPlan) : (s.updRegionPlan r f).thm = s.thm := rfl
@[simp] theorem updRegionPlan_scratch (s : State) (r : Nat) (f : RegionPlan → RegionPlan) : (s.updRegionPlan r f).scratch = s.scratch := rfl
@[simp] theorem updRegionPlan_timers (s : State) (r : Nat) (f : RegionPlan → RegionPlan) : (s.updRegionPlan r f).timers = s.timers := rfl

/-! ### updStackPlan -/

@[simp] theorem updStackPlan_pending (s : State) (n : Nat) (f : StackPlan → StackPlan) : (s.updStackPlan n f).pending = s.pending := rfl
@[simp] theorem updStackPlan_freeCtr (s : State) (n : Nat) (f : StackPlan → StackPlan) : (s.updStackPlan n f).freeCtr = s.freeCtr := rfl
@[simp] theorem updStackPlan_out (s : State) (n : Nat) (f : StackPlan → StackPlan) : (s.updStackPlan n f).out = s.out := rfl
@[simp] theorem updStackPlan_clk (s : State) (n : Nat) (f : StackPlan → StackPlan) : (s.updStackPlan n f).clk = s.clk := rfl
@[simp] theorem updStackPlan_pins (s : State) (n : Nat) (f : StackPlan → StackPlan) : (s.updStackPlan n f).pins = s.pins := rfl
@[simp] theorem updStackPlan_rst (s : State) (n : Nat) (f : StackPlan → StackPlan) : (s.updStackPlan n f).rst = s.rst := rfl
@[simp] theorem updStackPlan_keep (s : State) (n : Nat) (f : StackPlan → StackPlan) : (s.updStackPlan n f).keep = s.keep := rfl
@[simp] theorem updStackPlan_sec (s : State) (n : Nat) (f : StackPlan → StackPlan) : (s.updStackPlan n f).sec = s.sec := rfl
@[simp] theorem updStackPlan_sb (s : State) (n : Nat) (f : StackPlan → StackPlan) : (s.updStackPlan n f).sb = s.sb := rfl
@[simp] theorem updStackPlan_svy (s : State) (n : Nat) (f : StackPlan → StackPlan) : (s.updStackPlan n f).svy = s.svy := rfl
@[simp] theorem updStackPlan_err (s : State) (n : Nat) (f : StackPlan → StackPlan) : (s.updStackPlan n f).err = s.err := rfl
@[simp] theorem updStackPlan_mon (s : State) (n : Nat) (f : StackPlan → StackPlan) : (s.updStackPlan n f).mon = s.mon := rfl
@[simp] theorem updStackPlan_sht (s : State) (n : Nat) (f : StackPlan → StackPlan) : (s.updStackPlan n f).sht = s.sht := rfl
@[simp] theorem updStackPlan_hif (s : State) (n : Nat) (f : StackPlan → StackPlan) : (s.updStackPlan n f).hif = s.hif := rfl
@[simp] theorem updStackPlan_jobs (s : State) (n : Nat) (f : StackPlan → StackPlan) : (s.updStackPlan n f).jobs = s.jobs := rfl
@[simp] theorem updStackPlan_clearing (s : State) (n : Nat) (f : StackPlan → StackPlan) : (s.updStackPlan n f).clearing = s.clearing := rfl
@[simp] theorem updStackPlan_tables (s : State) (n : Nat) (f : StackPlan → StackPlan) : (s.updStackPlan n f).tables = s.tables := rfl
@[simp] theorem updStackPlan_cells (s : State) (n : Nat) (f : StackPlan → StackPlan) : (s.updStackPlan n f).cells = s.cells := rfl
@[simp] theorem updStackPlan_blocks (s : State) (n : Nat) (f : StackPlan → StackPlan) : (s.updStackPlan n f).blocks = s.blocks := rfl
@[simp] theorem updStackPlan_regions (s : State) (n : Nat) (f : StackPlan → StackPlan) : (s.updStackPlan n f).regions = s.regions := rfl
@[simp] theorem updStackPlan_columns (s : State) (n : Nat) (f : StackPlan → StackPlan) : (s.updStackPlan n f).columns = s.columns := rfl
@[simp] theorem updStackPlan_stk (s : State) (n : Nat) (f : StackPlan → StackPlan) : (s.updStackPlan n f).stk = s.stk := rfl
@[simp] theorem updStackPlan_plain (s : State) (n : Nat) (f : StackPlan → StackPlan) : (s.updStackPlan n f).plain = s.plain := rfl
@[simp] theorem updStackPlan_syn (s : State) (n : Nat) (f : StackPlan → StackPlan) : (s.updStackPlan n f).syn = s.syn := rfl
@[simp] theorem updStackPlan_reds (s : State) (n : Nat) (f : StackPlan → StackPlan) : (s.updStackPlan n f).reds = s.reds := rfl
@[simp] theorem updStackPlan_ports (s : State) (n : Nat) (f : StackPlan → StackPlan) : (s.updStackPlan n f).ports = s.ports := rfl
@[simp] theorem updStackPlan_grp (s : State) (n : Nat) (f : StackPlan → StackPlan) : (s.updStackPlan n f).grp = s.grp := rfl
@[simp] theorem updStackPlan_pwr (s : State) (n : Nat) (f : StackPlan → StackPlan) : (s.updStackPlan n f).pwr = s.pwr := rfl
@[simp] theorem updStackPlan_share (s : State) (n : Nat) (f : StackPlan → StackPlan) : (s.updStackPlan n f).share = s.share := rfl
@[simp] theorem updStackPlan_thm (s : State) (n : Nat) (f : StackPlan → StackPlan) : (s.updStackPlan n f).thm = s.thm := rfl
@[simp] theorem updStackPlan_scratch (s : State) (n : Nat) (f : StackPlan → StackPlan) : (s.updStackPlan n f).scratch = s.scratch := rfl
@[simp] theorem updStackPlan_timers (s : State) (n : Nat) (f : StackPlan → StackPlan) : (s.updStackPlan n f).timers = s.timers := rfl

/-! ### updJob -/

@[simp] theorem updJob_pending (s : State) (j : Nat) (f : Job → Job) : (s.updJob j f).pending = s.pending := rfl
@[simp] theorem updJob_freeCtr (s : State) (j : Nat) (f : Job → Job) : (s.updJob j f).freeCtr = s.freeCtr := rfl
@[simp] theorem updJob_out (s : State) (j : Nat) (f : Job → Job) : (s.updJob j f).out = s.out := rfl
@[simp] theorem updJob_clk (s : State) (j : Nat) (f : Job → Job) : (s.updJob j f).clk = s.clk := rfl
@[simp] theorem updJob_pins (s : State) (j : Nat) (f : Job → Job) : (s.updJob j f).pins = s.pins := rfl
@[simp] theorem updJob_rst (s : State) (j : Nat) (f : Job → Job) : (s.updJob j f).rst = s.rst := rfl
@[simp] theorem updJob_keep (s : State) (j : Nat) (f : Job → Job) : (s.updJob j f).keep = s.keep := rfl
@[simp] theorem updJob_sec (s : State) (j : Nat) (f : Job → Job) : (s.updJob j f).sec = s.sec := rfl
@[simp] theorem updJob_sb (s : State) (j : Nat) (f : Job → Job) : (s.updJob j f).sb = s.sb := rfl
@[simp] theorem updJob_plan (s : State) (j : Nat) (f : Job → Job) : (s.updJob j f).plan = s.plan := rfl
@[simp] theorem updJob_svy (s : State) (j : Nat) (f : Job → Job) : (s.updJob j f).svy = s.svy := rfl
@[simp] theorem updJob_err (s : State) (j : Nat) (f : Job → Job) : (s.updJob j f).err = s.err := rfl
@[simp] theorem updJob_mon (s : State) (j : Nat) (f : Job → Job) : (s.updJob j f).mon = s.mon := rfl
@[simp] theorem updJob_sht (s : State) (j : Nat) (f : Job → Job) : (s.updJob j f).sht = s.sht := rfl
@[simp] theorem updJob_hif (s : State) (j : Nat) (f : Job → Job) : (s.updJob j f).hif = s.hif := rfl
@[simp] theorem updJob_clearing (s : State) (j : Nat) (f : Job → Job) : (s.updJob j f).clearing = s.clearing := rfl
@[simp] theorem updJob_tables (s : State) (j : Nat) (f : Job → Job) : (s.updJob j f).tables = s.tables := rfl
@[simp] theorem updJob_cells (s : State) (j : Nat) (f : Job → Job) : (s.updJob j f).cells = s.cells := rfl
@[simp] theorem updJob_blocks (s : State) (j : Nat) (f : Job → Job) : (s.updJob j f).blocks = s.blocks := rfl
@[simp] theorem updJob_regions (s : State) (j : Nat) (f : Job → Job) : (s.updJob j f).regions = s.regions := rfl
@[simp] theorem updJob_columns (s : State) (j : Nat) (f : Job → Job) : (s.updJob j f).columns = s.columns := rfl
@[simp] theorem updJob_stk (s : State) (j : Nat) (f : Job → Job) : (s.updJob j f).stk = s.stk := rfl
@[simp] theorem updJob_plain (s : State) (j : Nat) (f : Job → Job) : (s.updJob j f).plain = s.plain := rfl
@[simp] theorem updJob_syn (s : State) (j : Nat) (f : Job → Job) : (s.updJob j f).syn = s.syn := rfl
@[simp] theorem updJob_reds (s : State) (j : Nat) (f : Job → Job) : (s.updJob j f).reds = s.reds := rfl
@[simp] theorem updJob_ports (s : State) (j : Nat) (f : Job → Job) : (s.updJob j f).ports = s.ports := rfl
@[simp] theorem updJob_grp (s : State) (j : Nat) (f : Job → Job) : (s.updJob j f).grp = s.grp := rfl
@[simp] theorem updJob_pwr (s : State) (j : Nat) (f : Job → Job) : (s.updJob j f).pwr = s.pwr := rfl
@[simp] theorem updJob_share (s : State) (j : Nat) (f : Job → Job) : (s.updJob j f).share = s.share := rfl
@[simp] theorem updJob_thm (s : State) (j : Nat) (f : Job → Job) : (s.updJob j f).thm = s.thm := rfl
@[simp] theorem updJob_scratch (s : State) (j : Nat) (f : Job → Job) : (s.updJob j f).scratch = s.scratch := rfl
@[simp] theorem updJob_timers (s : State) (j : Nat) (f : Job → Job) : (s.updJob j f).timers = s.timers := rfl

/-! ### emit -/

@[simp] theorem emit_pending (s : State) (o : Out) : (s.emit o).pending = s.pending := rfl
@[simp] theorem emit_freeCtr (s : State) (o : Out) : (s.emit o).freeCtr = s.freeCtr := rfl
@[simp] theorem emit_clk (s : State) (o : Out) : (s.emit o).clk = s.clk := rfl
@[simp] theorem emit_pins (s : State) (o : Out) : (s.emit o).pins = s.pins := rfl
@[simp] theorem emit_rst (s : State) (o : Out) : (s.emit o).rst = s.rst := rfl
@[simp] theorem emit_keep (s : State) (o : Out) : (s.emit o).keep = s.keep := rfl
@[simp] theorem emit_sec (s : State) (o : Out) : (s.emit o).sec = s.sec := rfl
@[simp] theorem emit_sb (s : State) (o : Out) : (s.emit o).sb = s.sb := rfl
@[simp] theorem emit_plan (s : State) (o : Out) : (s.emit o).plan = s.plan := rfl
@[simp] theorem emit_svy (s : State) (o : Out) : (s.emit o).svy = s.svy := rfl
@[simp] theorem emit_err (s : State) (o : Out) : (s.emit o).err = s.err := rfl
@[simp] theorem emit_mon (s : State) (o : Out) : (s.emit o).mon = s.mon := rfl
@[simp] theorem emit_sht (s : State) (o : Out) : (s.emit o).sht = s.sht := rfl
@[simp] theorem emit_hif (s : State) (o : Out) : (s.emit o).hif = s.hif := rfl
@[simp] theorem emit_jobs (s : State) (o : Out) : (s.emit o).jobs = s.jobs := rfl
@[simp] theorem emit_clearing (s : State) (o : Out) : (s.emit o).clearing = s.clearing := rfl
@[simp] theorem emit_tables (s : State) (o : Out) : (s.emit o).tables = s.tables := rfl
@[simp] theorem emit_cells (s : State) (o : Out) : (s.emit o).cells = s.cells := rfl
@[simp] theorem emit_blocks (s : State) (o : Out) : (s.emit o).blocks = s.blocks := rfl
@[simp] theorem emit_regions (s : State) (o : Out) : (s.emit o).regions = s.regions := rfl
@[simp] theorem emit_columns (s : State) (o : Out) : (s.emit o).columns = s.columns := rfl
@[simp] theorem emit_stk (s : State) (o : Out) : (s.emit o).stk = s.stk := rfl
@[simp] theorem emit_plain (s : State) (o : Out) : (s.emit o).plain = s.plain := rfl
@[simp] theorem emit_syn (s : State) (o : Out) : (s.emit o).syn = s.syn := rfl
@[simp] theorem emit_reds (s : State) (o : Out) : (s.emit o).reds = s.reds := rfl
@[simp] theorem emit_ports (s : State) (o : Out) : (s.emit o).ports = s.ports := rfl
@[simp] theorem emit_grp (s : State) (o : Out) : (s.emit o).grp = s.grp := rfl
@[simp] theorem emit_pwr (s : State) (o : Out) : (s.emit o).pwr = s.pwr := rfl
@[simp] theorem emit_share (s : State) (o : Out) : (s.emit o).share = s.share := rfl
@[simp] theorem emit_thm (s : State) (o : Out) : (s.emit o).thm = s.thm := rfl
@[simp] theorem emit_scratch (s : State) (o : Out) : (s.emit o).scratch = s.scratch := rfl
@[simp] theorem emit_timers (s : State) (o : Out) : (s.emit o).timers = s.timers := rfl

/-! ### advancePs -/

@[simp] theorem advancePs_pending (s : State) (dt : Nat) : (s.advancePs dt).pending = s.pending := rfl
@[simp] theorem advancePs_freeCtr (s : State) (dt : Nat) : (s.advancePs dt).freeCtr = s.freeCtr := rfl
@[simp] theorem advancePs_out (s : State) (dt : Nat) : (s.advancePs dt).out = s.out := rfl
@[simp] theorem advancePs_pins (s : State) (dt : Nat) : (s.advancePs dt).pins = s.pins := rfl
@[simp] theorem advancePs_rst (s : State) (dt : Nat) : (s.advancePs dt).rst = s.rst := rfl
@[simp] theorem advancePs_keep (s : State) (dt : Nat) : (s.advancePs dt).keep = s.keep := rfl
@[simp] theorem advancePs_sec (s : State) (dt : Nat) : (s.advancePs dt).sec = s.sec := rfl
@[simp] theorem advancePs_sb (s : State) (dt : Nat) : (s.advancePs dt).sb = s.sb := rfl
@[simp] theorem advancePs_plan (s : State) (dt : Nat) : (s.advancePs dt).plan = s.plan := rfl
@[simp] theorem advancePs_svy (s : State) (dt : Nat) : (s.advancePs dt).svy = s.svy := rfl
@[simp] theorem advancePs_err (s : State) (dt : Nat) : (s.advancePs dt).err = s.err := rfl
@[simp] theorem advancePs_mon (s : State) (dt : Nat) : (s.advancePs dt).mon = s.mon := rfl
@[simp] theorem advancePs_sht (s : State) (dt : Nat) : (s.advancePs dt).sht = s.sht := rfl
@[simp] theorem advancePs_hif (s : State) (dt : Nat) : (s.advancePs dt).hif = s.hif := rfl
@[simp] theorem advancePs_jobs (s : State) (dt : Nat) : (s.advancePs dt).jobs = s.jobs := rfl
@[simp] theorem advancePs_clearing (s : State) (dt : Nat) : (s.advancePs dt).clearing = s.clearing := rfl
@[simp] theorem advancePs_tables (s : State) (dt : Nat) : (s.advancePs dt).tables = s.tables := rfl
@[simp] theorem advancePs_cells (s : State) (dt : Nat) : (s.advancePs dt).cells = s.cells := rfl
@[simp] theorem advancePs_blocks (s : State) (dt : Nat) : (s.advancePs dt).blocks = s.blocks := rfl
@[simp] theorem advancePs_regions (s : State) (dt : Nat) : (s.advancePs dt).regions = s.regions := rfl
@[simp] theorem advancePs_columns (s : State) (dt : Nat) : (s.advancePs dt).columns = s.columns := rfl
@[simp] theorem advancePs_stk (s : State) (dt : Nat) : (s.advancePs dt).stk = s.stk := rfl
@[simp] theorem advancePs_plain (s : State) (dt : Nat) : (s.advancePs dt).plain = s.plain := rfl
@[simp] theorem advancePs_syn (s : State) (dt : Nat) : (s.advancePs dt).syn = s.syn := rfl
@[simp] theorem advancePs_reds (s : State) (dt : Nat) : (s.advancePs dt).reds = s.reds := rfl
@[simp] theorem advancePs_ports (s : State) (dt : Nat) : (s.advancePs dt).ports = s.ports := rfl
@[simp] theorem advancePs_grp (s : State) (dt : Nat) : (s.advancePs dt).grp = s.grp := rfl
@[simp] theorem advancePs_pwr (s : State) (dt : Nat) : (s.advancePs dt).pwr = s.pwr := rfl
@[simp] theorem advancePs_share (s : State) (dt : Nat) : (s.advancePs dt).share = s.share := rfl
@[simp] theorem advancePs_thm (s : State) (dt : Nat) : (s.advancePs dt).thm = s.thm := rfl
@[simp] theorem advancePs_scratch (s : State) (dt : Nat) : (s.advancePs dt).scratch = s.scratch := rfl
@[simp] theorem advancePs_timers (s : State) (dt : Nat) : (s.advancePs dt).timers = s.timers := rfl

/-! ### count -/

@[simp] theorem count_pending (s : State) (code : Nat) (cell block region : Option Nat) (n : Nat) : (s.count code cell block region n).pending = s.pending := rfl
@[simp] theorem count_freeCtr (s : State) (code : Nat) (cell block region : Option Nat) (n : Nat) : (s.count code cell block region n).freeCtr = s.freeCtr := rfl
@[simp] theorem count_out (s : State) (code : Nat) (cell block region : Option Nat) (n : Nat) : (s.count code cell block region n).out = s.out := rfl
@[simp] theorem count_clk (s : State) (code : Nat) (cell block region : Option Nat) (n : Nat) : (s.count code cell block region n).clk = s.clk := rfl
@[simp] theorem count_pins (s : State) (code : Nat) (cell block region : Option Nat) (n : Nat) : (s.count code cell block region n).pins = s.pins := rfl
@[simp] theorem count_rst (s : State) (code : Nat) (cell block region : Option Nat) (n : Nat) : (s.count code cell block region n).rst = s.rst := rfl
@[simp] theorem count_keep (s : State) (code : Nat) (cell block region : Option Nat) (n : Nat) : (s.count code cell block region n).keep = s.keep := rfl
@[simp] theorem count_sec (s : State) (code : Nat) (cell block region : Option Nat) (n : Nat) : (s.count code cell block region n).sec = s.sec := rfl
@[simp] theorem count_sb (s : State) (code : Nat) (cell block region : Option Nat) (n : Nat) : (s.count code cell block region n).sb = s.sb := rfl
@[simp] theorem count_plan (s : State) (code : Nat) (cell block region : Option Nat) (n : Nat) : (s.count code cell block region n).plan = s.plan := rfl
@[simp] theorem count_svy (s : State) (code : Nat) (cell block region : Option Nat) (n : Nat) : (s.count code cell block region n).svy = s.svy := rfl
@[simp] theorem count_err (s : State) (code : Nat) (cell block region : Option Nat) (n : Nat) : (s.count code cell block region n).err = s.err := rfl
@[simp] theorem count_sht (s : State) (code : Nat) (cell block region : Option Nat) (n : Nat) : (s.count code cell block region n).sht = s.sht := rfl
@[simp] theorem count_hif (s : State) (code : Nat) (cell block region : Option Nat) (n : Nat) : (s.count code cell block region n).hif = s.hif := rfl
@[simp] theorem count_jobs (s : State) (code : Nat) (cell block region : Option Nat) (n : Nat) : (s.count code cell block region n).jobs = s.jobs := rfl
@[simp] theorem count_clearing (s : State) (code : Nat) (cell block region : Option Nat) (n : Nat) : (s.count code cell block region n).clearing = s.clearing := rfl
@[simp] theorem count_tables (s : State) (code : Nat) (cell block region : Option Nat) (n : Nat) : (s.count code cell block region n).tables = s.tables := rfl
@[simp] theorem count_cells (s : State) (code : Nat) (cell block region : Option Nat) (n : Nat) : (s.count code cell block region n).cells = s.cells := rfl
@[simp] theorem count_blocks (s : State) (code : Nat) (cell block region : Option Nat) (n : Nat) : (s.count code cell block region n).blocks = s.blocks := rfl
@[simp] theorem count_regions (s : State) (code : Nat) (cell block region : Option Nat) (n : Nat) : (s.count code cell block region n).regions = s.regions := rfl
@[simp] theorem count_columns (s : State) (code : Nat) (cell block region : Option Nat) (n : Nat) : (s.count code cell block region n).columns = s.columns := rfl
@[simp] theorem count_stk (s : State) (code : Nat) (cell block region : Option Nat) (n : Nat) : (s.count code cell block region n).stk = s.stk := rfl
@[simp] theorem count_plain (s : State) (code : Nat) (cell block region : Option Nat) (n : Nat) : (s.count code cell block region n).plain = s.plain := rfl
@[simp] theorem count_syn (s : State) (code : Nat) (cell block region : Option Nat) (n : Nat) : (s.count code cell block region n).syn = s.syn := rfl
@[simp] theorem count_reds (s : State) (code : Nat) (cell block region : Option Nat) (n : Nat) : (s.count code cell block region n).reds = s.reds := rfl
@[simp] theorem count_ports (s : State) (code : Nat) (cell block region : Option Nat) (n : Nat) : (s.count code cell block region n).ports = s.ports := rfl
@[simp] theorem count_grp (s : State) (code : Nat) (cell block region : Option Nat) (n : Nat) : (s.count code cell block region n).grp = s.grp := rfl
@[simp] theorem count_pwr (s : State) (code : Nat) (cell block region : Option Nat) (n : Nat) : (s.count code cell block region n).pwr = s.pwr := rfl
@[simp] theorem count_share (s : State) (code : Nat) (cell block region : Option Nat) (n : Nat) : (s.count code cell block region n).share = s.share := rfl
@[simp] theorem count_thm (s : State) (code : Nat) (cell block region : Option Nat) (n : Nat) : (s.count code cell block region n).thm = s.thm := rfl
@[simp] theorem count_scratch (s : State) (code : Nat) (cell block region : Option Nat) (n : Nat) : (s.count code cell block region n).scratch = s.scratch := rfl
@[simp] theorem count_timers (s : State) (code : Nat) (cell block region : Option Nat) (n : Nat) : (s.count code cell block region n).timers = s.timers := rfl

/-! ### What a part reads after its update -/

@[simp] theorem cell_updCell (s : State) (i j : Nat) (f : CellSt → CellSt) :
    (s.updCell i f).cell j = if i = j then f (s.cell i) else s.cell j := sget_supd _ _ _ _ _
@[simp] theorem block_updBlock (s : State) (i j : Nat) (f : BlockSt → BlockSt) :
    (s.updBlock i f).block j = if i = j then f (s.block i) else s.block j := sget_supd _ _ _ _ _
@[simp] theorem region_updRegion (s : State) (i j : Nat) (f : RegionSt → RegionSt) :
    (s.updRegion i f).region j = if i = j then f (s.region i) else s.region j := sget_supd _ _ _ _ _
@[simp] theorem column_updColumn (s : State) (i j : Nat) (f : ColumnSt → ColumnSt) :
    (s.updColumn i f).column j = if i = j then f (s.column i) else s.column j := sget_supd _ _ _ _ _
@[simp] theorem stack_updStack (s : State) (i j : Nat) (f : StackSt → StackSt) :
    (s.updStack i f).stack j = if i = j then f (s.stack i) else s.stack j := sget_supd _ _ _ _ _
@[simp] theorem port_updPort (s : State) (i j : Nat) (f : Port → Port) :
    (s.updPort i f).port j = if i = j then f (s.port i) else s.port j := sget_supd _ _ _ _ _
@[simp] theorem ring_updRing (s : State) (i j : Nat) (f : Ring → Ring) :
    (s.updRing i f).ring j = if i = j then f (s.ring i) else s.ring j := sget_supd _ _ _ _ _
@[simp] theorem cellPlan_updCellPlan (s : State) (i j : Nat) (f : CellPlan → CellPlan) :
    (s.updCellPlan i f).cellPlan j = if i = j then f (s.cellPlan i) else s.cellPlan j := sget_supd _ _ _ _ _
@[simp] theorem blockPlan_updBlockPlan (s : State) (i j : Nat) (f : BlockPlan → BlockPlan) :
    (s.updBlockPlan i f).blockPlan j = if i = j then f (s.blockPlan i) else s.blockPlan j := sget_supd _ _ _ _ _
@[simp] theorem regionPlan_updRegionPlan (s : State) (i j : Nat) (f : RegionPlan → RegionPlan) :
    (s.updRegionPlan i f).regionPlan j = if i = j then f (s.regionPlan i) else s.regionPlan j := sget_supd _ _ _ _ _
@[simp] theorem stackPlan_updStackPlan (s : State) (i j : Nat) (f : StackPlan → StackPlan) :
    (s.updStackPlan i f).stackPlan j = if i = j then f (s.stackPlan i) else s.stackPlan j := sget_supd _ _ _ _ _
@[simp] theorem cell_updSeq (s : State) (i j : Nat) (f : Seq → Seq) :
    (s.updSeq i f).cell j = if i = j then { s.cell i with seq := f (s.cell i).seq } else s.cell j := by simp [updSeq]
@[simp] theorem cell_updStash (s : State) (i j : Nat) (f : Stash → Stash) :
    (s.updStash i f).cell j = if i = j then { s.cell i with stash := f (s.cell i).stash } else s.cell j := by simp [updStash]
@[simp] theorem cell_updPlumb (s : State) (i j : Nat) (f : Plumb → Plumb) :
    (s.updPlumb i f).cell j = if i = j then { s.cell i with plumb := f (s.cell i).plumb } else s.cell j := by simp [updPlumb]
@[simp] theorem cell_updMm (s : State) (i j : Nat) (f : Matrix → Matrix) :
    (s.updMm i f).cell j = if i = j then { s.cell i with mm := f (s.cell i).mm } else s.cell j := by simp [updMm]
@[simp] theorem cell_updMisc (s : State) (i j : Nat) (f : Misc → Misc) :
    (s.updMisc i f).cell j = if i = j then { s.cell i with misc := f (s.cell i).misc } else s.cell j := by simp [updMisc]
@[simp] theorem region_updPw (s : State) (i j : Nat) (f : RegionPw → RegionPw) :
    (s.updPw i f).region j = if i = j then { s.region i with pw := f (s.region i).pw } else s.region j := by simp [updPw]

/-! ### What the other parts read after it -/

@[simp] theorem block_updCell (s : State) (c : Nat) (f : CellSt → CellSt) (k : Nat) : (s.updCell c f).block k = s.block k := rfl
@[simp] theorem region_updCell (s : State) (c : Nat) (f : CellSt → CellSt) (k : Nat) : (s.updCell c f).region k = s.region k := rfl
@[simp] theorem column_updCell (s : State) (c : Nat) (f : CellSt → CellSt) (k : Nat) : (s.updCell c f).column k = s.column k := rfl
@[simp] theorem stack_updCell (s : State) (c : Nat) (f : CellSt → CellSt) (k : Nat) : (s.updCell c f).stack k = s.stack k := rfl
@[simp] theorem port_updCell (s : State) (c : Nat) (f : CellSt → CellSt) (k : Nat) : (s.updCell c f).port k = s.port k := rfl
@[simp] theorem ring_updCell (s : State) (c : Nat) (f : CellSt → CellSt) (k : Nat) : (s.updCell c f).ring k = s.ring k := rfl
@[simp] theorem cellPlan_updCell (s : State) (c : Nat) (f : CellSt → CellSt) (k : Nat) : (s.updCell c f).cellPlan k = s.cellPlan k := rfl
@[simp] theorem blockPlan_updCell (s : State) (c : Nat) (f : CellSt → CellSt) (k : Nat) : (s.updCell c f).blockPlan k = s.blockPlan k := rfl
@[simp] theorem regionPlan_updCell (s : State) (c : Nat) (f : CellSt → CellSt) (k : Nat) : (s.updCell c f).regionPlan k = s.regionPlan k := rfl
@[simp] theorem stackPlan_updCell (s : State) (c : Nat) (f : CellSt → CellSt) (k : Nat) : (s.updCell c f).stackPlan k = s.stackPlan k := rfl
@[simp] theorem block_updSeq (s : State) (c : Nat) (f : Seq → Seq) (k : Nat) : (s.updSeq c f).block k = s.block k := rfl
@[simp] theorem region_updSeq (s : State) (c : Nat) (f : Seq → Seq) (k : Nat) : (s.updSeq c f).region k = s.region k := rfl
@[simp] theorem column_updSeq (s : State) (c : Nat) (f : Seq → Seq) (k : Nat) : (s.updSeq c f).column k = s.column k := rfl
@[simp] theorem stack_updSeq (s : State) (c : Nat) (f : Seq → Seq) (k : Nat) : (s.updSeq c f).stack k = s.stack k := rfl
@[simp] theorem port_updSeq (s : State) (c : Nat) (f : Seq → Seq) (k : Nat) : (s.updSeq c f).port k = s.port k := rfl
@[simp] theorem ring_updSeq (s : State) (c : Nat) (f : Seq → Seq) (k : Nat) : (s.updSeq c f).ring k = s.ring k := rfl
@[simp] theorem cellPlan_updSeq (s : State) (c : Nat) (f : Seq → Seq) (k : Nat) : (s.updSeq c f).cellPlan k = s.cellPlan k := rfl
@[simp] theorem blockPlan_updSeq (s : State) (c : Nat) (f : Seq → Seq) (k : Nat) : (s.updSeq c f).blockPlan k = s.blockPlan k := rfl
@[simp] theorem regionPlan_updSeq (s : State) (c : Nat) (f : Seq → Seq) (k : Nat) : (s.updSeq c f).regionPlan k = s.regionPlan k := rfl
@[simp] theorem stackPlan_updSeq (s : State) (c : Nat) (f : Seq → Seq) (k : Nat) : (s.updSeq c f).stackPlan k = s.stackPlan k := rfl
@[simp] theorem block_updStash (s : State) (c : Nat) (f : Stash → Stash) (k : Nat) : (s.updStash c f).block k = s.block k := rfl
@[simp] theorem region_updStash (s : State) (c : Nat) (f : Stash → Stash) (k : Nat) : (s.updStash c f).region k = s.region k := rfl
@[simp] theorem column_updStash (s : State) (c : Nat) (f : Stash → Stash) (k : Nat) : (s.updStash c f).column k = s.column k := rfl
@[simp] theorem stack_updStash (s : State) (c : Nat) (f : Stash → Stash) (k : Nat) : (s.updStash c f).stack k = s.stack k := rfl
@[simp] theorem port_updStash (s : State) (c : Nat) (f : Stash → Stash) (k : Nat) : (s.updStash c f).port k = s.port k := rfl
@[simp] theorem ring_updStash (s : State) (c : Nat) (f : Stash → Stash) (k : Nat) : (s.updStash c f).ring k = s.ring k := rfl
@[simp] theorem cellPlan_updStash (s : State) (c : Nat) (f : Stash → Stash) (k : Nat) : (s.updStash c f).cellPlan k = s.cellPlan k := rfl
@[simp] theorem blockPlan_updStash (s : State) (c : Nat) (f : Stash → Stash) (k : Nat) : (s.updStash c f).blockPlan k = s.blockPlan k := rfl
@[simp] theorem regionPlan_updStash (s : State) (c : Nat) (f : Stash → Stash) (k : Nat) : (s.updStash c f).regionPlan k = s.regionPlan k := rfl
@[simp] theorem stackPlan_updStash (s : State) (c : Nat) (f : Stash → Stash) (k : Nat) : (s.updStash c f).stackPlan k = s.stackPlan k := rfl
@[simp] theorem block_updPlumb (s : State) (c : Nat) (f : Plumb → Plumb) (k : Nat) : (s.updPlumb c f).block k = s.block k := rfl
@[simp] theorem region_updPlumb (s : State) (c : Nat) (f : Plumb → Plumb) (k : Nat) : (s.updPlumb c f).region k = s.region k := rfl
@[simp] theorem column_updPlumb (s : State) (c : Nat) (f : Plumb → Plumb) (k : Nat) : (s.updPlumb c f).column k = s.column k := rfl
@[simp] theorem stack_updPlumb (s : State) (c : Nat) (f : Plumb → Plumb) (k : Nat) : (s.updPlumb c f).stack k = s.stack k := rfl
@[simp] theorem port_updPlumb (s : State) (c : Nat) (f : Plumb → Plumb) (k : Nat) : (s.updPlumb c f).port k = s.port k := rfl
@[simp] theorem ring_updPlumb (s : State) (c : Nat) (f : Plumb → Plumb) (k : Nat) : (s.updPlumb c f).ring k = s.ring k := rfl
@[simp] theorem cellPlan_updPlumb (s : State) (c : Nat) (f : Plumb → Plumb) (k : Nat) : (s.updPlumb c f).cellPlan k = s.cellPlan k := rfl
@[simp] theorem blockPlan_updPlumb (s : State) (c : Nat) (f : Plumb → Plumb) (k : Nat) : (s.updPlumb c f).blockPlan k = s.blockPlan k := rfl
@[simp] theorem regionPlan_updPlumb (s : State) (c : Nat) (f : Plumb → Plumb) (k : Nat) : (s.updPlumb c f).regionPlan k = s.regionPlan k := rfl
@[simp] theorem stackPlan_updPlumb (s : State) (c : Nat) (f : Plumb → Plumb) (k : Nat) : (s.updPlumb c f).stackPlan k = s.stackPlan k := rfl
@[simp] theorem block_updMm (s : State) (c : Nat) (f : Matrix → Matrix) (k : Nat) : (s.updMm c f).block k = s.block k := rfl
@[simp] theorem region_updMm (s : State) (c : Nat) (f : Matrix → Matrix) (k : Nat) : (s.updMm c f).region k = s.region k := rfl
@[simp] theorem column_updMm (s : State) (c : Nat) (f : Matrix → Matrix) (k : Nat) : (s.updMm c f).column k = s.column k := rfl
@[simp] theorem stack_updMm (s : State) (c : Nat) (f : Matrix → Matrix) (k : Nat) : (s.updMm c f).stack k = s.stack k := rfl
@[simp] theorem port_updMm (s : State) (c : Nat) (f : Matrix → Matrix) (k : Nat) : (s.updMm c f).port k = s.port k := rfl
@[simp] theorem ring_updMm (s : State) (c : Nat) (f : Matrix → Matrix) (k : Nat) : (s.updMm c f).ring k = s.ring k := rfl
@[simp] theorem cellPlan_updMm (s : State) (c : Nat) (f : Matrix → Matrix) (k : Nat) : (s.updMm c f).cellPlan k = s.cellPlan k := rfl
@[simp] theorem blockPlan_updMm (s : State) (c : Nat) (f : Matrix → Matrix) (k : Nat) : (s.updMm c f).blockPlan k = s.blockPlan k := rfl
@[simp] theorem regionPlan_updMm (s : State) (c : Nat) (f : Matrix → Matrix) (k : Nat) : (s.updMm c f).regionPlan k = s.regionPlan k := rfl
@[simp] theorem stackPlan_updMm (s : State) (c : Nat) (f : Matrix → Matrix) (k : Nat) : (s.updMm c f).stackPlan k = s.stackPlan k := rfl
@[simp] theorem block_updMisc (s : State) (c : Nat) (f : Misc → Misc) (k : Nat) : (s.updMisc c f).block k = s.block k := rfl
@[simp] theorem region_updMisc (s : State) (c : Nat) (f : Misc → Misc) (k : Nat) : (s.updMisc c f).region k = s.region k := rfl
@[simp] theorem column_updMisc (s : State) (c : Nat) (f : Misc → Misc) (k : Nat) : (s.updMisc c f).column k = s.column k := rfl
@[simp] theorem stack_updMisc (s : State) (c : Nat) (f : Misc → Misc) (k : Nat) : (s.updMisc c f).stack k = s.stack k := rfl
@[simp] theorem port_updMisc (s : State) (c : Nat) (f : Misc → Misc) (k : Nat) : (s.updMisc c f).port k = s.port k := rfl
@[simp] theorem ring_updMisc (s : State) (c : Nat) (f : Misc → Misc) (k : Nat) : (s.updMisc c f).ring k = s.ring k := rfl
@[simp] theorem cellPlan_updMisc (s : State) (c : Nat) (f : Misc → Misc) (k : Nat) : (s.updMisc c f).cellPlan k = s.cellPlan k := rfl
@[simp] theorem blockPlan_updMisc (s : State) (c : Nat) (f : Misc → Misc) (k : Nat) : (s.updMisc c f).blockPlan k = s.blockPlan k := rfl
@[simp] theorem regionPlan_updMisc (s : State) (c : Nat) (f : Misc → Misc) (k : Nat) : (s.updMisc c f).regionPlan k = s.regionPlan k := rfl
@[simp] theorem stackPlan_updMisc (s : State) (c : Nat) (f : Misc → Misc) (k : Nat) : (s.updMisc c f).stackPlan k = s.stackPlan k := rfl
@[simp] theorem cell_updBlock (s : State) (b : Nat) (f : BlockSt → BlockSt) (k : Nat) : (s.updBlock b f).cell k = s.cell k := rfl
@[simp] theorem region_updBlock (s : State) (b : Nat) (f : BlockSt → BlockSt) (k : Nat) : (s.updBlock b f).region k = s.region k := rfl
@[simp] theorem column_updBlock (s : State) (b : Nat) (f : BlockSt → BlockSt) (k : Nat) : (s.updBlock b f).column k = s.column k := rfl
@[simp] theorem stack_updBlock (s : State) (b : Nat) (f : BlockSt → BlockSt) (k : Nat) : (s.updBlock b f).stack k = s.stack k := rfl
@[simp] theorem port_updBlock (s : State) (b : Nat) (f : BlockSt → BlockSt) (k : Nat) : (s.updBlock b f).port k = s.port k := rfl
@[simp] theorem ring_updBlock (s : State) (b : Nat) (f : BlockSt → BlockSt) (k : Nat) : (s.updBlock b f).ring k = s.ring k := rfl
@[simp] theorem cellPlan_updBlock (s : State) (b : Nat) (f : BlockSt → BlockSt) (k : Nat) : (s.updBlock b f).cellPlan k = s.cellPlan k := rfl
@[simp] theorem blockPlan_updBlock (s : State) (b : Nat) (f : BlockSt → BlockSt) (k : Nat) : (s.updBlock b f).blockPlan k = s.blockPlan k := rfl
@[simp] theorem regionPlan_updBlock (s : State) (b : Nat) (f : BlockSt → BlockSt) (k : Nat) : (s.updBlock b f).regionPlan k = s.regionPlan k := rfl
@[simp] theorem stackPlan_updBlock (s : State) (b : Nat) (f : BlockSt → BlockSt) (k : Nat) : (s.updBlock b f).stackPlan k = s.stackPlan k := rfl
@[simp] theorem cell_updRegion (s : State) (r : Nat) (f : RegionSt → RegionSt) (k : Nat) : (s.updRegion r f).cell k = s.cell k := rfl
@[simp] theorem block_updRegion (s : State) (r : Nat) (f : RegionSt → RegionSt) (k : Nat) : (s.updRegion r f).block k = s.block k := rfl
@[simp] theorem column_updRegion (s : State) (r : Nat) (f : RegionSt → RegionSt) (k : Nat) : (s.updRegion r f).column k = s.column k := rfl
@[simp] theorem stack_updRegion (s : State) (r : Nat) (f : RegionSt → RegionSt) (k : Nat) : (s.updRegion r f).stack k = s.stack k := rfl
@[simp] theorem port_updRegion (s : State) (r : Nat) (f : RegionSt → RegionSt) (k : Nat) : (s.updRegion r f).port k = s.port k := rfl
@[simp] theorem ring_updRegion (s : State) (r : Nat) (f : RegionSt → RegionSt) (k : Nat) : (s.updRegion r f).ring k = s.ring k := rfl
@[simp] theorem cellPlan_updRegion (s : State) (r : Nat) (f : RegionSt → RegionSt) (k : Nat) : (s.updRegion r f).cellPlan k = s.cellPlan k := rfl
@[simp] theorem blockPlan_updRegion (s : State) (r : Nat) (f : RegionSt → RegionSt) (k : Nat) : (s.updRegion r f).blockPlan k = s.blockPlan k := rfl
@[simp] theorem regionPlan_updRegion (s : State) (r : Nat) (f : RegionSt → RegionSt) (k : Nat) : (s.updRegion r f).regionPlan k = s.regionPlan k := rfl
@[simp] theorem stackPlan_updRegion (s : State) (r : Nat) (f : RegionSt → RegionSt) (k : Nat) : (s.updRegion r f).stackPlan k = s.stackPlan k := rfl
@[simp] theorem cell_updPw (s : State) (r : Nat) (f : RegionPw → RegionPw) (k : Nat) : (s.updPw r f).cell k = s.cell k := rfl
@[simp] theorem block_updPw (s : State) (r : Nat) (f : RegionPw → RegionPw) (k : Nat) : (s.updPw r f).block k = s.block k := rfl
@[simp] theorem column_updPw (s : State) (r : Nat) (f : RegionPw → RegionPw) (k : Nat) : (s.updPw r f).column k = s.column k := rfl
@[simp] theorem stack_updPw (s : State) (r : Nat) (f : RegionPw → RegionPw) (k : Nat) : (s.updPw r f).stack k = s.stack k := rfl
@[simp] theorem port_updPw (s : State) (r : Nat) (f : RegionPw → RegionPw) (k : Nat) : (s.updPw r f).port k = s.port k := rfl
@[simp] theorem ring_updPw (s : State) (r : Nat) (f : RegionPw → RegionPw) (k : Nat) : (s.updPw r f).ring k = s.ring k := rfl
@[simp] theorem cellPlan_updPw (s : State) (r : Nat) (f : RegionPw → RegionPw) (k : Nat) : (s.updPw r f).cellPlan k = s.cellPlan k := rfl
@[simp] theorem blockPlan_updPw (s : State) (r : Nat) (f : RegionPw → RegionPw) (k : Nat) : (s.updPw r f).blockPlan k = s.blockPlan k := rfl
@[simp] theorem regionPlan_updPw (s : State) (r : Nat) (f : RegionPw → RegionPw) (k : Nat) : (s.updPw r f).regionPlan k = s.regionPlan k := rfl
@[simp] theorem stackPlan_updPw (s : State) (r : Nat) (f : RegionPw → RegionPw) (k : Nat) : (s.updPw r f).stackPlan k = s.stackPlan k := rfl
@[simp] theorem cell_updColumn (s : State) (c : Nat) (f : ColumnSt → ColumnSt) (k : Nat) : (s.updColumn c f).cell k = s.cell k := rfl
@[simp] theorem block_updColumn (s : State) (c : Nat) (f : ColumnSt → ColumnSt) (k : Nat) : (s.updColumn c f).block k = s.block k := rfl
@[simp] theorem region_updColumn (s : State) (c : Nat) (f : ColumnSt → ColumnSt) (k : Nat) : (s.updColumn c f).region k = s.region k := rfl
@[simp] theorem stack_updColumn (s : State) (c : Nat) (f : ColumnSt → ColumnSt) (k : Nat) : (s.updColumn c f).stack k = s.stack k := rfl
@[simp] theorem port_updColumn (s : State) (c : Nat) (f : ColumnSt → ColumnSt) (k : Nat) : (s.updColumn c f).port k = s.port k := rfl
@[simp] theorem ring_updColumn (s : State) (c : Nat) (f : ColumnSt → ColumnSt) (k : Nat) : (s.updColumn c f).ring k = s.ring k := rfl
@[simp] theorem cellPlan_updColumn (s : State) (c : Nat) (f : ColumnSt → ColumnSt) (k : Nat) : (s.updColumn c f).cellPlan k = s.cellPlan k := rfl
@[simp] theorem blockPlan_updColumn (s : State) (c : Nat) (f : ColumnSt → ColumnSt) (k : Nat) : (s.updColumn c f).blockPlan k = s.blockPlan k := rfl
@[simp] theorem regionPlan_updColumn (s : State) (c : Nat) (f : ColumnSt → ColumnSt) (k : Nat) : (s.updColumn c f).regionPlan k = s.regionPlan k := rfl
@[simp] theorem stackPlan_updColumn (s : State) (c : Nat) (f : ColumnSt → ColumnSt) (k : Nat) : (s.updColumn c f).stackPlan k = s.stackPlan k := rfl
@[simp] theorem cell_updStack (s : State) (n : Nat) (f : StackSt → StackSt) (k : Nat) : (s.updStack n f).cell k = s.cell k := rfl
@[simp] theorem block_updStack (s : State) (n : Nat) (f : StackSt → StackSt) (k : Nat) : (s.updStack n f).block k = s.block k := rfl
@[simp] theorem region_updStack (s : State) (n : Nat) (f : StackSt → StackSt) (k : Nat) : (s.updStack n f).region k = s.region k := rfl
@[simp] theorem column_updStack (s : State) (n : Nat) (f : StackSt → StackSt) (k : Nat) : (s.updStack n f).column k = s.column k := rfl
@[simp] theorem port_updStack (s : State) (n : Nat) (f : StackSt → StackSt) (k : Nat) : (s.updStack n f).port k = s.port k := rfl
@[simp] theorem ring_updStack (s : State) (n : Nat) (f : StackSt → StackSt) (k : Nat) : (s.updStack n f).ring k = s.ring k := rfl
@[simp] theorem cellPlan_updStack (s : State) (n : Nat) (f : StackSt → StackSt) (k : Nat) : (s.updStack n f).cellPlan k = s.cellPlan k := rfl
@[simp] theorem blockPlan_updStack (s : State) (n : Nat) (f : StackSt → StackSt) (k : Nat) : (s.updStack n f).blockPlan k = s.blockPlan k := rfl
@[simp] theorem regionPlan_updStack (s : State) (n : Nat) (f : StackSt → StackSt) (k : Nat) : (s.updStack n f).regionPlan k = s.regionPlan k := rfl
@[simp] theorem stackPlan_updStack (s : State) (n : Nat) (f : StackSt → StackSt) (k : Nat) : (s.updStack n f).stackPlan k = s.stackPlan k := rfl
@[simp] theorem cell_updPort (s : State) (n : Nat) (f : Port → Port) (k : Nat) : (s.updPort n f).cell k = s.cell k := rfl
@[simp] theorem block_updPort (s : State) (n : Nat) (f : Port → Port) (k : Nat) : (s.updPort n f).block k = s.block k := rfl
@[simp] theorem region_updPort (s : State) (n : Nat) (f : Port → Port) (k : Nat) : (s.updPort n f).region k = s.region k := rfl
@[simp] theorem column_updPort (s : State) (n : Nat) (f : Port → Port) (k : Nat) : (s.updPort n f).column k = s.column k := rfl
@[simp] theorem stack_updPort (s : State) (n : Nat) (f : Port → Port) (k : Nat) : (s.updPort n f).stack k = s.stack k := rfl
@[simp] theorem ring_updPort (s : State) (n : Nat) (f : Port → Port) (k : Nat) : (s.updPort n f).ring k = s.ring k := rfl
@[simp] theorem cellPlan_updPort (s : State) (n : Nat) (f : Port → Port) (k : Nat) : (s.updPort n f).cellPlan k = s.cellPlan k := rfl
@[simp] theorem blockPlan_updPort (s : State) (n : Nat) (f : Port → Port) (k : Nat) : (s.updPort n f).blockPlan k = s.blockPlan k := rfl
@[simp] theorem regionPlan_updPort (s : State) (n : Nat) (f : Port → Port) (k : Nat) : (s.updPort n f).regionPlan k = s.regionPlan k := rfl
@[simp] theorem stackPlan_updPort (s : State) (n : Nat) (f : Port → Port) (k : Nat) : (s.updPort n f).stackPlan k = s.stackPlan k := rfl
@[simp] theorem cell_updRing (s : State) (n : Nat) (f : Ring → Ring) (k : Nat) : (s.updRing n f).cell k = s.cell k := rfl
@[simp] theorem block_updRing (s : State) (n : Nat) (f : Ring → Ring) (k : Nat) : (s.updRing n f).block k = s.block k := rfl
@[simp] theorem region_updRing (s : State) (n : Nat) (f : Ring → Ring) (k : Nat) : (s.updRing n f).region k = s.region k := rfl
@[simp] theorem column_updRing (s : State) (n : Nat) (f : Ring → Ring) (k : Nat) : (s.updRing n f).column k = s.column k := rfl
@[simp] theorem stack_updRing (s : State) (n : Nat) (f : Ring → Ring) (k : Nat) : (s.updRing n f).stack k = s.stack k := rfl
@[simp] theorem port_updRing (s : State) (n : Nat) (f : Ring → Ring) (k : Nat) : (s.updRing n f).port k = s.port k := rfl
@[simp] theorem cellPlan_updRing (s : State) (n : Nat) (f : Ring → Ring) (k : Nat) : (s.updRing n f).cellPlan k = s.cellPlan k := rfl
@[simp] theorem blockPlan_updRing (s : State) (n : Nat) (f : Ring → Ring) (k : Nat) : (s.updRing n f).blockPlan k = s.blockPlan k := rfl
@[simp] theorem regionPlan_updRing (s : State) (n : Nat) (f : Ring → Ring) (k : Nat) : (s.updRing n f).regionPlan k = s.regionPlan k := rfl
@[simp] theorem stackPlan_updRing (s : State) (n : Nat) (f : Ring → Ring) (k : Nat) : (s.updRing n f).stackPlan k = s.stackPlan k := rfl
@[simp] theorem cell_updCellPlan (s : State) (c : Nat) (f : CellPlan → CellPlan) (k : Nat) : (s.updCellPlan c f).cell k = s.cell k := rfl
@[simp] theorem block_updCellPlan (s : State) (c : Nat) (f : CellPlan → CellPlan) (k : Nat) : (s.updCellPlan c f).block k = s.block k := rfl
@[simp] theorem region_updCellPlan (s : State) (c : Nat) (f : CellPlan → CellPlan) (k : Nat) : (s.updCellPlan c f).region k = s.region k := rfl
@[simp] theorem column_updCellPlan (s : State) (c : Nat) (f : CellPlan → CellPlan) (k : Nat) : (s.updCellPlan c f).column k = s.column k := rfl
@[simp] theorem stack_updCellPlan (s : State) (c : Nat) (f : CellPlan → CellPlan) (k : Nat) : (s.updCellPlan c f).stack k = s.stack k := rfl
@[simp] theorem port_updCellPlan (s : State) (c : Nat) (f : CellPlan → CellPlan) (k : Nat) : (s.updCellPlan c f).port k = s.port k := rfl
@[simp] theorem ring_updCellPlan (s : State) (c : Nat) (f : CellPlan → CellPlan) (k : Nat) : (s.updCellPlan c f).ring k = s.ring k := rfl
@[simp] theorem blockPlan_updCellPlan (s : State) (c : Nat) (f : CellPlan → CellPlan) (k : Nat) : (s.updCellPlan c f).blockPlan k = s.blockPlan k := rfl
@[simp] theorem regionPlan_updCellPlan (s : State) (c : Nat) (f : CellPlan → CellPlan) (k : Nat) : (s.updCellPlan c f).regionPlan k = s.regionPlan k := rfl
@[simp] theorem stackPlan_updCellPlan (s : State) (c : Nat) (f : CellPlan → CellPlan) (k : Nat) : (s.updCellPlan c f).stackPlan k = s.stackPlan k := rfl
@[simp] theorem cell_updBlockPlan (s : State) (b : Nat) (f : BlockPlan → BlockPlan) (k : Nat) : (s.updBlockPlan b f).cell k = s.cell k := rfl
@[simp] theorem block_updBlockPlan (s : State) (b : Nat) (f : BlockPlan → BlockPlan) (k : Nat) : (s.updBlockPlan b f).block k = s.block k := rfl
@[simp] theorem region_updBlockPlan (s : State) (b : Nat) (f : BlockPlan → BlockPlan) (k : Nat) : (s.updBlockPlan b f).region k = s.region k := rfl
@[simp] theorem column_updBlockPlan (s : State) (b : Nat) (f : BlockPlan → BlockPlan) (k : Nat) : (s.updBlockPlan b f).column k = s.column k := rfl
@[simp] theorem stack_updBlockPlan (s : State) (b : Nat) (f : BlockPlan → BlockPlan) (k : Nat) : (s.updBlockPlan b f).stack k = s.stack k := rfl
@[simp] theorem port_updBlockPlan (s : State) (b : Nat) (f : BlockPlan → BlockPlan) (k : Nat) : (s.updBlockPlan b f).port k = s.port k := rfl
@[simp] theorem ring_updBlockPlan (s : State) (b : Nat) (f : BlockPlan → BlockPlan) (k : Nat) : (s.updBlockPlan b f).ring k = s.ring k := rfl
@[simp] theorem cellPlan_updBlockPlan (s : State) (b : Nat) (f : BlockPlan → BlockPlan) (k : Nat) : (s.updBlockPlan b f).cellPlan k = s.cellPlan k := rfl
@[simp] theorem regionPlan_updBlockPlan (s : State) (b : Nat) (f : BlockPlan → BlockPlan) (k : Nat) : (s.updBlockPlan b f).regionPlan k = s.regionPlan k := rfl
@[simp] theorem stackPlan_updBlockPlan (s : State) (b : Nat) (f : BlockPlan → BlockPlan) (k : Nat) : (s.updBlockPlan b f).stackPlan k = s.stackPlan k := rfl
@[simp] theorem cell_updRegionPlan (s : State) (r : Nat) (f : RegionPlan → RegionPlan) (k : Nat) : (s.updRegionPlan r f).cell k = s.cell k := rfl
@[simp] theorem block_updRegionPlan (s : State) (r : Nat) (f : RegionPlan → RegionPlan) (k : Nat) : (s.updRegionPlan r f).block k = s.block k := rfl
@[simp] theorem region_updRegionPlan (s : State) (r : Nat) (f : RegionPlan → RegionPlan) (k : Nat) : (s.updRegionPlan r f).region k = s.region k := rfl
@[simp] theorem column_updRegionPlan (s : State) (r : Nat) (f : RegionPlan → RegionPlan) (k : Nat) : (s.updRegionPlan r f).column k = s.column k := rfl
@[simp] theorem stack_updRegionPlan (s : State) (r : Nat) (f : RegionPlan → RegionPlan) (k : Nat) : (s.updRegionPlan r f).stack k = s.stack k := rfl
@[simp] theorem port_updRegionPlan (s : State) (r : Nat) (f : RegionPlan → RegionPlan) (k : Nat) : (s.updRegionPlan r f).port k = s.port k := rfl
@[simp] theorem ring_updRegionPlan (s : State) (r : Nat) (f : RegionPlan → RegionPlan) (k : Nat) : (s.updRegionPlan r f).ring k = s.ring k := rfl
@[simp] theorem cellPlan_updRegionPlan (s : State) (r : Nat) (f : RegionPlan → RegionPlan) (k : Nat) : (s.updRegionPlan r f).cellPlan k = s.cellPlan k := rfl
@[simp] theorem blockPlan_updRegionPlan (s : State) (r : Nat) (f : RegionPlan → RegionPlan) (k : Nat) : (s.updRegionPlan r f).blockPlan k = s.blockPlan k := rfl
@[simp] theorem stackPlan_updRegionPlan (s : State) (r : Nat) (f : RegionPlan → RegionPlan) (k : Nat) : (s.updRegionPlan r f).stackPlan k = s.stackPlan k := rfl
@[simp] theorem cell_updStackPlan (s : State) (n : Nat) (f : StackPlan → StackPlan) (k : Nat) : (s.updStackPlan n f).cell k = s.cell k := rfl
@[simp] theorem block_updStackPlan (s : State) (n : Nat) (f : StackPlan → StackPlan) (k : Nat) : (s.updStackPlan n f).block k = s.block k := rfl
@[simp] theorem region_updStackPlan (s : State) (n : Nat) (f : StackPlan → StackPlan) (k : Nat) : (s.updStackPlan n f).region k = s.region k := rfl
@[simp] theorem column_updStackPlan (s : State) (n : Nat) (f : StackPlan → StackPlan) (k : Nat) : (s.updStackPlan n f).column k = s.column k := rfl
@[simp] theorem stack_updStackPlan (s : State) (n : Nat) (f : StackPlan → StackPlan) (k : Nat) : (s.updStackPlan n f).stack k = s.stack k := rfl
@[simp] theorem port_updStackPlan (s : State) (n : Nat) (f : StackPlan → StackPlan) (k : Nat) : (s.updStackPlan n f).port k = s.port k := rfl
@[simp] theorem ring_updStackPlan (s : State) (n : Nat) (f : StackPlan → StackPlan) (k : Nat) : (s.updStackPlan n f).ring k = s.ring k := rfl
@[simp] theorem cellPlan_updStackPlan (s : State) (n : Nat) (f : StackPlan → StackPlan) (k : Nat) : (s.updStackPlan n f).cellPlan k = s.cellPlan k := rfl
@[simp] theorem blockPlan_updStackPlan (s : State) (n : Nat) (f : StackPlan → StackPlan) (k : Nat) : (s.updStackPlan n f).blockPlan k = s.blockPlan k := rfl
@[simp] theorem regionPlan_updStackPlan (s : State) (n : Nat) (f : StackPlan → StackPlan) (k : Nat) : (s.updStackPlan n f).regionPlan k = s.regionPlan k := rfl
@[simp] theorem cell_updJob (s : State) (j : Nat) (f : Job → Job) (k : Nat) : (s.updJob j f).cell k = s.cell k := rfl
@[simp] theorem block_updJob (s : State) (j : Nat) (f : Job → Job) (k : Nat) : (s.updJob j f).block k = s.block k := rfl
@[simp] theorem region_updJob (s : State) (j : Nat) (f : Job → Job) (k : Nat) : (s.updJob j f).region k = s.region k := rfl
@[simp] theorem column_updJob (s : State) (j : Nat) (f : Job → Job) (k : Nat) : (s.updJob j f).column k = s.column k := rfl
@[simp] theorem stack_updJob (s : State) (j : Nat) (f : Job → Job) (k : Nat) : (s.updJob j f).stack k = s.stack k := rfl
@[simp] theorem port_updJob (s : State) (j : Nat) (f : Job → Job) (k : Nat) : (s.updJob j f).port k = s.port k := rfl
@[simp] theorem ring_updJob (s : State) (j : Nat) (f : Job → Job) (k : Nat) : (s.updJob j f).ring k = s.ring k := rfl
@[simp] theorem cellPlan_updJob (s : State) (j : Nat) (f : Job → Job) (k : Nat) : (s.updJob j f).cellPlan k = s.cellPlan k := rfl
@[simp] theorem blockPlan_updJob (s : State) (j : Nat) (f : Job → Job) (k : Nat) : (s.updJob j f).blockPlan k = s.blockPlan k := rfl
@[simp] theorem regionPlan_updJob (s : State) (j : Nat) (f : Job → Job) (k : Nat) : (s.updJob j f).regionPlan k = s.regionPlan k := rfl
@[simp] theorem stackPlan_updJob (s : State) (j : Nat) (f : Job → Job) (k : Nat) : (s.updJob j f).stackPlan k = s.stackPlan k := rfl
@[simp] theorem cell_emit (s : State) (o : Out) (k : Nat) : (s.emit o).cell k = s.cell k := rfl
@[simp] theorem block_emit (s : State) (o : Out) (k : Nat) : (s.emit o).block k = s.block k := rfl
@[simp] theorem region_emit (s : State) (o : Out) (k : Nat) : (s.emit o).region k = s.region k := rfl
@[simp] theorem column_emit (s : State) (o : Out) (k : Nat) : (s.emit o).column k = s.column k := rfl
@[simp] theorem stack_emit (s : State) (o : Out) (k : Nat) : (s.emit o).stack k = s.stack k := rfl
@[simp] theorem port_emit (s : State) (o : Out) (k : Nat) : (s.emit o).port k = s.port k := rfl
@[simp] theorem ring_emit (s : State) (o : Out) (k : Nat) : (s.emit o).ring k = s.ring k := rfl
@[simp] theorem cellPlan_emit (s : State) (o : Out) (k : Nat) : (s.emit o).cellPlan k = s.cellPlan k := rfl
@[simp] theorem blockPlan_emit (s : State) (o : Out) (k : Nat) : (s.emit o).blockPlan k = s.blockPlan k := rfl
@[simp] theorem regionPlan_emit (s : State) (o : Out) (k : Nat) : (s.emit o).regionPlan k = s.regionPlan k := rfl
@[simp] theorem stackPlan_emit (s : State) (o : Out) (k : Nat) : (s.emit o).stackPlan k = s.stackPlan k := rfl
@[simp] theorem cell_advancePs (s : State) (dt : Nat) (k : Nat) : (s.advancePs dt).cell k = s.cell k := rfl
@[simp] theorem block_advancePs (s : State) (dt : Nat) (k : Nat) : (s.advancePs dt).block k = s.block k := rfl
@[simp] theorem region_advancePs (s : State) (dt : Nat) (k : Nat) : (s.advancePs dt).region k = s.region k := rfl
@[simp] theorem column_advancePs (s : State) (dt : Nat) (k : Nat) : (s.advancePs dt).column k = s.column k := rfl
@[simp] theorem stack_advancePs (s : State) (dt : Nat) (k : Nat) : (s.advancePs dt).stack k = s.stack k := rfl
@[simp] theorem port_advancePs (s : State) (dt : Nat) (k : Nat) : (s.advancePs dt).port k = s.port k := rfl
@[simp] theorem ring_advancePs (s : State) (dt : Nat) (k : Nat) : (s.advancePs dt).ring k = s.ring k := rfl
@[simp] theorem cellPlan_advancePs (s : State) (dt : Nat) (k : Nat) : (s.advancePs dt).cellPlan k = s.cellPlan k := rfl
@[simp] theorem blockPlan_advancePs (s : State) (dt : Nat) (k : Nat) : (s.advancePs dt).blockPlan k = s.blockPlan k := rfl
@[simp] theorem regionPlan_advancePs (s : State) (dt : Nat) (k : Nat) : (s.advancePs dt).regionPlan k = s.regionPlan k := rfl
@[simp] theorem stackPlan_advancePs (s : State) (dt : Nat) (k : Nat) : (s.advancePs dt).stackPlan k = s.stackPlan k := rfl
@[simp] theorem cell_count (s : State) (code : Nat) (cell block region : Option Nat) (n : Nat) (k : Nat) : (s.count code cell block region n).cell k = s.cell k := rfl
@[simp] theorem block_count (s : State) (code : Nat) (cell block region : Option Nat) (n : Nat) (k : Nat) : (s.count code cell block region n).block k = s.block k := rfl
@[simp] theorem region_count (s : State) (code : Nat) (cell block region : Option Nat) (n : Nat) (k : Nat) : (s.count code cell block region n).region k = s.region k := rfl
@[simp] theorem column_count (s : State) (code : Nat) (cell block region : Option Nat) (n : Nat) (k : Nat) : (s.count code cell block region n).column k = s.column k := rfl
@[simp] theorem stack_count (s : State) (code : Nat) (cell block region : Option Nat) (n : Nat) (k : Nat) : (s.count code cell block region n).stack k = s.stack k := rfl
@[simp] theorem port_count (s : State) (code : Nat) (cell block region : Option Nat) (n : Nat) (k : Nat) : (s.count code cell block region n).port k = s.port k := rfl
@[simp] theorem ring_count (s : State) (code : Nat) (cell block region : Option Nat) (n : Nat) (k : Nat) : (s.count code cell block region n).ring k = s.ring k := rfl
@[simp] theorem cellPlan_count (s : State) (code : Nat) (cell block region : Option Nat) (n : Nat) (k : Nat) : (s.count code cell block region n).cellPlan k = s.cellPlan k := rfl
@[simp] theorem blockPlan_count (s : State) (code : Nat) (cell block region : Option Nat) (n : Nat) (k : Nat) : (s.count code cell block region n).blockPlan k = s.blockPlan k := rfl
@[simp] theorem regionPlan_count (s : State) (code : Nat) (cell block region : Option Nat) (n : Nat) (k : Nat) : (s.count code cell block region n).regionPlan k = s.regionPlan k := rfl
@[simp] theorem stackPlan_count (s : State) (code : Nat) (cell block region : Option Nat) (n : Nat) (k : Nat) : (s.count code cell block region n).stackPlan k = s.stackPlan k := rfl

end State

end Sys2Proof.Machine
end

