-- ==== Sys2Proof/Laws/Issue.lean ====
section
/-! SUPPORT. What the issue of one instruction does. -/

namespace Sys2Proof.Machine

open Sys2Proof

/-- Everything that is known of an instruction that is ready. -/
theorem readyCtx_some {op c : Nat} {ph : List Phys} {s0 s : State} {x : Ctx} (hs : injectAll s0 ph = s)
    (h : readyCtx op c ph s0 = some x) :
    issuingJob s c = some x.j ∧ x.j.image.cells[(s.cell c).seq.vindex]? = some x.v ∧
    (∃ w, (s.cell c).seq.stream[(s.cell c).seq.index]? = some w ∧ x.i = readIns w) ∧
    x.c = c ∧ x.i.op = op ∧ x.o = operands x.i ((opInfo x.i.op).getD { op := 0 }) ∧
    x.bias = ((segmentOf x.j.image x.v x.j.sheet).map (·.2)).getD 0 ∧
    x.who = ⟨c, x.v.vcell, x.i.op, x.j.sheet, (s.cell c).seq.index, x.j.id⟩ ∧
    encodingFault x.i (kindOf c) (x.v.vcell == x.j.image.lead) = none ∧ predOf s c x.i.pred ≠ x.i.pneg ∧
    resourceFault s c x.j x.v x.bias x.i x.o = none ∧
    ¬((isWork x.i.op && !skippedWhole s c x.o) = true ∧ (s.region (regionOf c)).pw.gated = true) ∧
    goesThrough s c x.j x.v x.i x.o x.who ph = true := by
  subst hs
  simp only [readyCtx, Option.bind_eq_some_iff, Option.ite_none_right_eq_some, Option.some.injEq] at h
  obtain ⟨j, hj, v, hv, w, hw, hc, rfl⟩ := h
  exact ⟨hj, hv, ⟨w, hw, rfl⟩, rfl, hc.1, rfl, rfl, rfl, hc.2.1, hc.2.2.1, hc.2.2.2.1, hc.2.2.2.2.1, hc.2.2.2.2.2⟩

/-- The row of an instruction that is ready carries it out. -/
theorem issue_ready {op c : Nat} {ph : List Phys} {s : State} {x : Ctx} (act : Ctx → State → State)
    (h : readyCtx op c ph s = some x) :
    issue op c ph s act = .next (act x (issued (injectAll s ph) x ph)) := by
  obtain ⟨hj, hv, ⟨w, hw, hi⟩, hc, hop, ho, hb, hwho, he, hp, hr, hg, hs⟩ := readyCtx_some rfl h
  unfold issue
  simp only [hj, hv, hw]
  rw [← hi, ← ho, ← hb]
  have h1 : (x.i.op != op && (opInfo x.i.op).isSome) = false := by simp [hop]
  have h2 : (isWork x.i.op && !skippedWhole (injectAll s ph) c x.o && ((injectAll s ph).region (regionOf c)).pw.gated) = false := by
    revert hg; cases (isWork x.i.op && !skippedWhole (injectAll s ph) c x.o) <;> simp
  have h3 : (predOf (injectAll s ph) c x.i.pred == x.i.pneg) = false := by simpa using hp
  simp only [h1, h2, he, h3, hr, Bool.false_eq_true, if_false]
  unfold issued
  rw [hc]
  obtain ⟨xc, xj, xv, xb, xi, xo, xw⟩ := x
  simp_all

/-- With no physical fault. -/
theorem issue_ready_nil {op c : Nat} {s : State} {x : Ctx} (act : Ctx → State → State)
    (h : readyCtx op c [] s = some x) : issue op c [] s act = .next (act x (issued s x [])) :=
  issue_ready (ph := []) act h

end Sys2Proof.Machine
end

