-- ==== Sys2Proof/WellFormed.lean ====
section
/-! DEFINITION. When a command is one that can arrive: its unit numbers name units, its fields fit their widths. -/

namespace Sys2Proof

/-- A cell ID names a cell (R20, R21). -/
def cellOk (c : Nat) : Bool := c < 8192 && c / 16 % 16 < 12 && c % 16 < 12

/-- A physical fault strikes something that exists. -/
def physOk : Phys → Bool
  | .stashFlip c line w mask => cellOk c && line < 6144 && w < 8 && mask < 2 ^ 72
  | .stashCheckFlip c b d => cellOk c && b < 96 && d < 2 ^ 32
  | .stashCheckBits c k mask => cellOk c && k < 48 && mask < 2 ^ 72
  | .memFlip n a mask => n < 12 && a < 2 ^ 37 && mask < 2 ^ 36
  | .memCheckFlip n b d => n < 12 && b < 2 ^ 25 && d < 2 ^ 32
  | .cacheFlip n b w mask => n < 12 && b < 2 ^ 25 && w < 512 && mask < 2 ^ 72
  | .accFlip c t e mask => cellOk c && t < 64 && e < 256 && mask < 2 ^ 39
  | .bufFlip c _ w mask => cellOk c && w < 8192 && mask < 2 ^ 72
  | .cairnFlip n k mask => n < 4096 && k < 33 && mask < 2 ^ 39
  | .netCorrected r _ => r < 32
  | .plumb c _ group _ wrong replay => cellOk c && group < 4 && wrong < 2 ^ 136 && replay < 2 ^ 136
  | .lineCrc _ => true
  | .sumCrc r _ => r < 32
  | .router r _ => r < 32
  | .routerState r _ => r < 32
  | .adder router u _ _ => if router then u < 32 else u < 384
  | .array _ col _ _ => col < 17
  | .duplicate _ row grp _ => row < 16 && grp < 16
  | .proof _ _ => true
  | .plotUnit u => u < 4096
  | .memCheckBits st b m => st < 12 && b < 2 ^ 25 && m < 2 ^ 36
  | .txRefused => true

/-- The command can arrive. -/
def WellFormed (i : Instr) : Bool :=
  match i with
  | .sheetEnd c => cellOk c
  | .sheetEndDone c => cellOk c
  | .sheetForecast c => cellOk c
  | .sheetNop c => cellOk c
  | .scExt c => cellOk c
  | .scLdext c ph => cellOk c && ph.all physOk
  | .scExtsub c => cellOk c
  | .scExtmin c => cellOk c
  | .scPset c ph => cellOk c && ph.all physOk
  | .scPlog c => cellOk c
  | .mmLdw c ph => cellOk c && ph.all physOk
  | .mmLda c ph => cellOk c && ph.all physOk
  | .mmSweep c ph => cellOk c && ph.all physOk
  | .mmDrain c ph => cellOk c && ph.all physOk
  | .mmClr c => cellOk c
  | .vxAdd c ph => cellOk c && ph.all physOk
  | .vxMul c ph => cellOk c && ph.all physOk
  | .vxFma c ph => cellOk c && ph.all physOk
  | .vxMax c ph => cellOk c && ph.all physOk
  | .vxSfu c ph => cellOk c && ph.all physOk
  | .vxSort c ph => cellOk c && ph.all physOk
  | .vxTopk c ph => cellOk c && ph.all physOk
  | .vxHash c ph => cellOk c && ph.all physOk
  | .vxBmap c ph => cellOk c && ph.all physOk
  | .vxCvt c ph => cellOk c && ph.all physOk
  | .vxRed c ph => cellOk c && ph.all physOk
  | .vxProof c ph => cellOk c && ph.all physOk
  | .mvLoad c ph => cellOk c && ph.all physOk
  | .mvStore c ph => cellOk c && ph.all physOk
  | .mvStoreComplete c => cellOk c
  | .mvPut c ph => cellOk c && ph.all physOk
  | .mvPutComplete c => cellOk c
  | .mvGather c ph => cellOk c && ph.all physOk
  | .mvScatter c ph => cellOk c && ph.all physOk
  | .rdSum c ph => cellOk c && ph.all physOk
  | .rdSumTotalWritten c _ _ ph => cellOk c && ph.all physOk
  | .rdRing c ph => cellOk c && ph.all physOk
  | .caSignal c => cellOk c
  | .caSignalSend c => cellOk c
  | .cairnSignalArrival cairn copy ph => cairn < 4096 && copy < 33 && ph.all physOk
  | .caWait c ph => cellOk c && ph.all physOk
  | .caRead c ph => cellOk c && ph.all physOk
  | .atScore c ph => cellOk c && ph.all physOk
  | .atPv c ph => cellOk c && ph.all physOk
  | .atSoftmax c ph => cellOk c && ph.all physOk
  | .atMerge c ph => cellOk c && ph.all physOk
  | .atTree c ph => cellOk c && ph.all physOk
  | .atRollback c ph => cellOk c && ph.all physOk
  | .plIssue c ph => cellOk c && ph.all physOk
  | .plFence c => cellOk c
  | .plotFence stack job => stack < 12 && job < 65536
  | .streamSegmentFetch c ph => cellOk c && ph.all physOk
  | .bondTestEnd c _ failed => cellOk c && failed.all (· < 560)
  | .cairnTimeout c => cellOk c
  | .deadlockSample => true
  | .tick ph => ph.all physOk
  | .contextClearDone job => job < 65536
  | .clearTimeout job => job < 65536
  | .preemptSaveDone job ph => job < 65536 && ph.all physOk
  | .restoreDone job ph => job < 65536 && ph.all physOk
  | .sheetBudgetExpiry => true
  | .sheetStall => true
  | .tickWaitLimit => true
  | .regionWakeDone region => region < 32
  | .proofAuto c ph => cellOk c && ph.all physOk
  | .doorbell page off _ => page < 64 && off < 4096
  | .descriptorFetch ans => (ans.all fun b => b.length == 64)
  | .descriptorBegin ring _ ph => ring < 64 && ph.all physOk
  | .nop ring ph => ring < 64 && ph.all physOk
  | .jobStart ring param _ ph => ring < 64 && (param.all fun b => b.length == 256) && ph.all physOk
  | .jobPrepareDone job ph => job < 65536 && ph.all physOk
  | .copy ring ph => ring < 64 && ph.all physOk
  | .copyPieceDone engine _ ph => engine < 16 && ph.all physOk
  | .plot ring ph => ring < 64 && ph.all physOk
  | .table ring _ ph => ring < 64 && ph.all physOk
  | .fenceRing ring ph => ring < 64 && ph.all physOk
  | .fenceJob ring ph => ring < 64 && ph.all physOk
  | .fencePlot ring ph => ring < 64 && ph.all physOk
  | .waitTimeout ring => ring < 64
  | .msixModTimeout vector => vector < 2048
  | .hifJobAbort value => value < 2 ^ 32
  | .ringReset ring => ring < 64
  | .ringResetDone ring => ring < 64
  | .pcieLinkUp _ _ => true
  | .ecrcMismatch w0 w1 w2 w3 => w0 < 2 ^ 32 && w1 < 2 ^ 32 && w2 < 2 ^ 32 && w3 < 2 ^ 32
  | .unsupportedRequest _ _ t => t.header.length == 4 && t.header.all (· < 2 ^ 32)
  | .pcieHotReset => true
  | .svyFenceReq value => value < 2 ^ 32
  | .surveyCommit _ => true
  | .shtPeriodWrite value => value < 2 ^ 32
  | .shtOverrunLimitWrite value => value < 2 ^ 32
  | .groupFormation value => value < 2 ^ 32
  | .groupFormTimeout => true
  | .form port f => port < 8 && f.sync < 2 ^ 64 && f.body.length ≤ 240
  | .ack port f _ => port < 8 && f.sync < 2 ^ 64 && f.seq < 4096
  | .nak port f => port < 8 && f.sync < 2 ^ 64 && f.seq < 4096
  | .controlNop port sync => port < 8 && sync < 2 ^ 64
  | .twinCheck port sync body => port < 8 && sync < 2 ^ 64 && body.length ≤ 240
  | .ringDone port sync body => port < 8 && sync < 2 ^ 64 && body.length ≤ 240
  | .eq port sync body => port < 8 && sync < 2 ^ 64 && body.length ≤ 240
  | .headFlit port sync body => port < 8 && sync < 2 ^ 64 && body.length ≤ 240
  | .dataFlit port sync body ph => port < 8 && sync < 2 ^ 64 && body.length ≤ 240 && ph.all physOk
  | .idleFlit port sync => port < 8 && sync < 2 ^ 64
  | .linkPortDown port _ => port < 8
  | .linkRetrain port lane => port < 8 && lane < 8
  | .portRetrain port => port < 8
  | .ledgerSlot reports agentFault => (reports.all fun r => r.region < 32) && agentFault.all (· < 32)
  | .vcoreAlertAssert => true
  | .vcoreAlertRelease => true
  | .vcoreAlertLong => true
  | .avsAck rail => rail < 2
  | .avsWriteTimeout rail _ => rail < 2
  | .avsRetry => true
  | .marginSample _ _ => true
  | .guardUpdate => true
  | .viaMeasure _ => true
  | .trimCellFault block trim => block < 384 && trim < 8
  | .budgetShare _ _ _ => true
  | .sensorSample readings => (readings.all fun x => x.1 < 176)
  | .staircaseStep => true
  | .thermalCodeUpdate => true
  | .columnGovernor => true
  | .flowInPulse _ => true
  | .flowUpdate _ _ _ => true
  | .wearCount => true
  | .resume => true
  | .refresh stack bank _ => stack < 12 && bank < 4128
  | .stackTempReadout stack _ => stack < 12
  | .patrolRead stack ph => stack < 12 && ph.all physOk
  | .stackTrainingLost stack => stack < 12
  | .stackFenced stack => stack < 12
  | .plotSequenceStart stack => stack < 12
  | .plotStrokeEnd stack ph => stack < 12 && ph.all physOk
  | .plotSequenceComplete stack => stack < 12
  | .scrubRead c ph => cellOk c && ph.all physOk
  | .stsFlipArm c => cellOk c
  | .regionCtrlFault region => region < 32
  | .blockErrFault block => block < 384
  | .regionErrFault region => region < 32
  | .errHandlerFault _ => true
  | .errorRecordAccepted level unit => level < 4 && unit < 65536
  | .errRingWrite _ => true
  | .limiterSlotExpiry => true
  | .errorHistoryAppend _ => true
  | .wearSnapshot _ => true
  | .traceRingWrite region _ => region < 32
  | .drain region => region < 32
  | .monSelWrite addr value _ => addr < 0x4000000 && addr % 16 == 0 && value < 2 ^ 32
  | .monSnapLoRead addr _ => addr < 0x4000000 && addr % 16 == 0
  | .ibiHoldoffExpiry kind => kind < 3
  | .powerOn => true
  | .resetN => true
  | .railLost input => input < 5
  | .d0Release _ => true
  | .domainRelease _ => true
  | .resetClockTimeout => true
  | .clockLost domain => domain < 8
  | .datumBlockReset mask => mask < 2 ^ 32
  | .mscReset mask => mask < 2 ^ 32
  | .lnkReset mask => mask < 2 ^ 32
  | .copyEngineReset mask => mask < 2 ^ 32
  | .linkEngineReset mask => mask < 2 ^ 32
  | .regionReset region => region < 32
  | .blockReset region block => region < 32 && block < 12
  | .cellReset c => cellOk c
  | .swResetRelease _ => true
  | .clocks _ => true
  | .loadFw _ => true
  | .trainMem _ trained _ _ => trained.all (· < 12)
  | .testStack _ _ _ _ => true
  | .releaseCore _ => true
  | .trainLinks _ ls => ls.all fun l => decide (l.port < 8 ∧ l.serial < 2 ^ 64 ∧ l.partnerPort < 8) && l.lanes.all fun n => decide (n < 8)
  | .publishSurvey _ _ _ => true
  | .lock _ => true
  | .ready _ => true
  | .brgStepComplete => true
  | .stagingWrite off _ => off < 16777216
  | .secStageWrite value => value < 2 ^ 32
  | .commit => true
  | .secRevoke value => value < 2 ^ 32
  | .fuseOperationDone => true
  | .signatureDone => true
  | .getVersion _ _ => true
  | .getCapabilities _ _ => true
  | .negotiateAlgorithms _ _ => true
  | .getDigests _ _ => true
  | .getCertificate _ _ => true
  | .challenge _ _ => true
  | .getMeasurements _ _ => true
  | .chunkSend _ _ => true
  | .chunkGet _ _ => true
  | .respondIfReady _ _ => true
  | .getStatus => true
  | .claimBrg => true
  | .releaseBrg => true
  | .writeStep value => value < 2 ^ 32
  | .stageData off _ => off < 2 ^ 32
  | .stageSet value => value < 2 ^ 32
  | .readReg off _ => off < 2 ^ 32
  | .writeReg off value => off < 2 ^ 32 && value < 2 ^ 32
  | .readAlarms => true
  | .clearAlarms mask => mask < 2 ^ 256
  | .readRecords _ => true
  | .readPace _ _ => true
  | .setEndpointId _ => true
  | .getEndpointId _ => true
  | .getEndpointUuid _ => true
  | .getMctpVersionSupport _ => true
  | .getMessageTypeSupport _ => true
  | .getVendorDefinedMsgSupport _ => true
  | .gettid _ => true
  | .settid _ => true
  | .getpldmversion _ => true
  | .getpldmtypes _ => true
  | .getpldmcommands _ => true
  | .getpdrrepositoryinfo _ => true
  | .getpdr _ => true
  | .getsensorreading _ => true
  | .getstatesensorreadings _ => true
  | .seteventreceiver _ => true
  | .pollforplatformeventmessage _ => true
  | .entdaa addr => addr < 128
  | .setdasa stat addr => stat < 128 && addr < 128
  | .rstdaa => true
  | .enec _ => true
  | .disec _ => true
  | .getpid => true
  | .getbcr => true
  | .getdcr => true
  | .getmwl => true
  | .getmrl => true
  | .setmwl value => value < 2 ^ 32
  | .setmrl value => value < 2 ^ 32
  | .getstatus => true
  | .registerWrite addr value enables => addr < 0x4000000 && addr % 4 == 0 && enables < 256 &&
      (if enables < 16 then value < 2 ^ 32 else value < 2 ^ 64 && addr % 4096 != 4092)
  | .mvLoadComplete c => cellOk c
  | .stackRetrainDone stack => stack < 12
  | .linkTrainingDone port lanes _ => port < 8 && lanes < 256
  | .flitDiscard f => f.port < 8 && f.seq < 4096 && f.sync < 2 ^ 64 && f.body < 2 ^ 1920 && f.crc < 2 ^ 64
  | .gatedRead q => 0 < q.len && q.len ≤ 64 && q.addr % 4096 + q.len ≤ 4096 &&
      ((q.bar == 0 && q.addr < 0x4000000) || (q.bar == 4 && q.addr < 0x1000000))
  | .d3hotTransition _ => true
  | .powerOff => true

end Sys2Proof
end

