-- ==== Sys2Proof/Tests/Slice0.lean ====
section
/-! SUPPORT. The modeller's own tests: worked examples of the spec, ill-formed commands, and for every statement with hypotheses a
state and operands that meet them. -/

namespace Sys2Proof.Tests

open Sys2Proof Sys2Proof.Machine

/-! ### Instructions and a small state -/

/-- An instruction word from its fields (R175). -/
def word (op opd opa opb : Nat) (x : Nat := 0) (a : Nat := 0) (b : Nat := 0) (d : Nat := 0) (fn : Nat := 0) (sc : Nat := 0) : Nat :=
  op * 2 ^ 120 + fn * 2 ^ 112 + x * 2 ^ 112 + a * 2 ^ 108 + b * 2 ^ 104 + d * 2 ^ 100 + sc * 2 ^ 98 + opd * 2 ^ 64 + opa * 2 ^ 32 + opb

/-- A STASH descriptor: line, LEN in KiB (R177). -/
def stash (line kib : Nat) : Nat := 0x40000000 + kib * 2 ^ 14 + line

/-- An extent REG descriptor. -/
def ext (n : Nat) : Nat := 0x60000010 + n

/-- A predicate REG descriptor. -/
def prd (n : Nat) : Nat := 0x60000000 + n

/-- An ACC descriptor. -/
def acc (first count : Nat) : Nat := 0x10000000 + count * 64 + first

/-- A CAIRN descriptor. -/
def crn (n : Nat) : Nat := 0x50000000 + n

/-- A TABLE descriptor. -/
def tbl (kind id : Nat) : Nat := 0x70000000 + kind * 65536 + id

/-- The upper word of a DEV descriptor of segment 0, OFFSET 0 in the lower. -/
def dev : Nat := 0x80000000

/-- Job 1: a cell of its own (virtual and physical `c`), another one `c2`, one writable segment of 64 KiB, a table of each kind, 16
cairns from 32. -/
def job (c c2 : Nat) : Job :=
  { id := 1, interactive := false, ring := 0, count := 0, phase := .running, sheet := 1
    params := { cairnBase := 32, cairnCount := 16, windows := [⟨0x6000000000, 0x6000010000, true, true, true⟩] }
    image := {
      sheetCount := 9, lead := c, segs := [⟨0x6000000000, 65536, 0, 0, false, true⟩]
      cells := [⟨c, c, 64, false, 1, 0, 1, 0⟩, ⟨c2, c2, 64, false, 1, 0, 1, 0⟩]
      tables := [⟨1, 7, 65536⟩, ⟨2, 7, 65536⟩, ⟨3, 7, 65536⟩]
      sheets := [⟨0, 8, 0, 0⟩], streams := [⟨0, 1, 0, 1⟩] } }

/-- The cell's sequencer with one instruction to go. -/
def seqOne (w k : Nat) : Seq :=
  { job := 1, vindex := k, stream := [w], fetched := true, done := false, gran := [0], banks := [0, 1, 2, 3] }

/-- The first lines of a granule count as written. -/
def written : Sparse Bool := (List.range 64).map (·, true) ++ [(254, true), (255, true)]

/-- The part after bring-up, PCIe up, every region awake, all stacks trained. -/
def up : State :=
  { State.reset with
    rst := { released := 255, done := 9, ready := true }
    hif := { linkUp := true, fetchEn := true, rings := [(0, { enable := true, state := 1 })] }
    sht := { opened := true }
    stk := (List.range 12).map (·, { trained := true }) }

/-- `up` with job 1 running, cell `c` about to issue `w`; its stash holds `d`; cell 3 is the other one. -/
def run (c w : Nat) (d : Ram := []) : State :=
  let cell (k : Nat) (q : Seq) : Nat × CellSt := (k, { seq := q, stash := { data := d, written := written } })
  let mine := cell c (seqOne w 0)
  let other := cell 3 { seqOne 0 1 with done := true }
  { up with jobs := [job c 3], blocks := [(0, { extents := [(1, 1)] })], cells := if c < 3 then [mine, other] else [other, mine] }

/-- Cell `c` of `s` is about to issue an instruction of opcode `op`, and `f` holds of it and of the state after its issue. -/
def ready (op c : Nat) (s : State) (f : Ctx → State → Bool := fun _ _ => true) : Bool :=
  (readyCtx op c [] s).any fun x => f x (issued s x [])

/-- An access answers something, and `f` holds of it and of the state it leaves. -/
def got {α : Type} (r : Option α × State) (f : α → State → Bool := fun _ _ => true) : Bool := r.1.any fun a => f a r.2

/-- A stash move answers bytes, and `f` holds of them and of the state it leaves. -/
def moved (r : Bytes × Bool × State) (f : Bytes → State → Bool := fun _ _ => true) : Bool := r.2.1 && f r.1 r.2.2

/-- A device access goes well, and `f` holds of what it answers and the state it leaves. -/
def fine {ε α : Type} (r : Except ε α × State) (f : α → State → Bool := fun _ _ => true) : Bool :=
  match r.1 with
  | .ok a => f a r.2
  | .error _ => false

/-- An operand bounded by extent 0, which is 0. -/
def ext0 : Nat := 2 ^ 27

/-- An operand bounded by extent 1, which `run` sets to 1. -/
def ext1 : Nat := 2 ^ 27 + 2 ^ 23

/-- A group header: members cell 0 of region 0, block 0; TAG 0x41 (R352). -/
def sumHeader : Bytes := leBytes 4 1 ++ leBytes 4 0x10001 ++ leBytes 4 0x41 ++ List.replicate 52 0

/-! ### Instructions: states that meet the statements' hypotheses -/

/-- The scalar instructions that write an extent (R182, R184); also for IssueMovesTheStreamOn. -/
theorem witness_ScalarInstructionsWriteExtents :
    ready 0x10 11 (run 11 (word 0x10 (ext 2) 0 5)) = true ∧ ready 0x12 11 (run 11 (word 0x12 (ext 2) (ext 3) 5)) = true ∧
    ready 0x13 11 (run 11 (word 0x13 (ext 15) (ext 0) 5)) = true := by decide +kernel

theorem witness_PredicateLogicWritesThePredicate :
    ready 0x15 11 (run 11 (word 0x15 (prd 2) (prd 0) (prd 1))) = true ∧
    ready 0x15 11 (run 11 (word 0x15 (prd 0) (prd 0) (prd 1) 1)) = true := by decide +kernel

theorem witness_ScalarLoadsReadTheirOperand :
    (ready 0x11 11 (run 11 (word 0x11 0 (stash 0 0) 0)) fun x u =>
      bound u 11 x.oa != some 0 && x.oa.space == 4 && got (readOpnd u x x.oa 64 none false)) = true ∧
    (ready 0x11 11 (run 11 (word 0x11 0 dev 0)) fun x u =>
      bound u 11 x.oa != some 0 && x.oa.space != 4 && fine (readMem u (devAddr x x.oa) 64 x.acc)) = true ∧
    (ready 0x14 11 (run 11 (word 0x14 (prd 2) (stash 0 0) 5)) fun x u =>
      bound u 11 x.oa != some 0 && got (readOpnd u x x.oa 64 none false)) = true ∧
    (ready 0x11 11 (run 11 (word 0x11 0 (stash 0 0 + ext0) 0)) fun x u => bound u 11 x.oa == some 0) = true ∧
    (ready 0x14 11 (run 11 (word 0x14 (prd 2) (stash 0 0 + ext0) 5)) fun x u => bound u 11 x.oa == some 0) = true := by
  decide +kernel

theorem witness_SheetInstructionsComplete :
    ready 0x00 0 (run 0 (word 0x00 0 0 0)) = true ∧ ready 0x02 0 (run 0 (word 0x02 0 0 0)) = true ∧
    ready 0x01 11 (run 11 (word 0x01 0 0 5)) = true ∧
    (let s := (run 0 0).updSeq 0 fun q => { q with ended := true }
     (s.job? (s.cell 0).seq.job).isSome ∧ (s.cell 0).seq.ended = true ∧ (s.cell 0).seq.done = false ∧ (s.cell 0).seq.flight = []) := by
  decide +kernel

theorem witness_BufferLoadsFillTheBuffer :
    (ready 0x20 0 (run 0 (word 0x20 0x20000001 (stash 0 0) 0 0 9 9)) fun x u =>
      moved (readMove u x x.oa (stashLen x.i x.o x.oa) (bound u 0 x.oa)) fun d _ => d != []) = true ∧
    (ready 0x21 0 (run 0 (word 0x21 0x30000000 (stash 0 0) 0 0 9)) fun x u =>
      moved (readMove u x x.oa (stashLen x.i x.o x.oa) (bound u 0 x.oa)) fun d _ => d != []) = true := by decide +kernel

theorem witness_ClearZeroesTheRowsInPlay : ready 0x24 0 (run 0 (word 0x24 (acc 0 64) 0 0)) = true := by decide +kernel

theorem witness_SweepsAndDrainsComplete :
    (ready 0x22 0 (run 0 (word 0x22 (acc 0 0 + ext0) 0x30004000 0x20000000 0 9 9)) fun x u =>
      clipTo (minBound (bound u 0 x.od) (bound u 0 x.oa)) x.oa.rows == 0) = true ∧
    (ready 0x22 0 (run 0 (word 0x22 (acc 0 0) 0x30000400 0x20000000 0 9 9)) fun x u =>
      let i := x.i
      let g := geom i.a i.b i.shape x.ob.sparsity
      let live := clipTo (minBound (bound u 0 x.od) (bound u 0 x.oa)) x.oa.rows
      let ap := aParts i.a g.kt x.oa.rows i.scale
      let v := u.countCell 0x004 0 ((cdiv x.oa.rows 16 - cdiv live 16) * g.w)
      live != 0 && bound u 0 x.ob != some 0 &&
      got (readBuf v x false (x.ob.half * 16384 + x.ob.start) (wParts i.a i.b i.shape x.ob.sparsity i.scale).len) fun wb v1 =>
        escapeFault i x.ob.sparsity wb == none &&
        got (readBuf v1 x true x.oa.start (cdiv (live * g.kt * fmtWidth i.a) 8)) fun _ v2 =>
          got (readBuf v2 x true (x.oa.start + ap.zero) 0) fun _ v3 => got (readBuf v3 x true (x.oa.start + ap.scale) 0)) = true ∧
    ready 0x23 0 (run 0 (word 0x23 (stash 0 0) (acc 0 1) 0)) = true := by decide +kernel

/-- The element-wise instructions: 32 elements of 0 live under extent 1; none under extent 0. -/
def lanes (op opb : Nat) (d : Nat := 0) (x : Nat := 0) : State :=
  run 8 (word op (stash 16 0) (stash 0 0 + ext1) opb x 0 0 d)

/-- Elements of both operands are there. -/
def twoRead (op : Nat) (s : State) : Bool :=
  ready op 8 s fun x u =>
    let wa := fmtWidth x.i.a
    let n := liveCount u x wa wa (fmtWidth x.i.d)
    n != 0 && got (readElems (skipTiles u x wa n) x x.oa wa n) fun _ v =>
      x.ob.space == litSpace || got (readElems v x x.ob wa n) fun _ w => x.i.op != 0x32 || got (readElems w x x.od (fmtWidth x.i.d) n)

theorem witness_ElementwiseInstructionsCompute :
    twoRead 0x30 (lanes 0x30 (stash 0 0)) = true ∧ twoRead 0x30 (lanes 0x30 5 0 1) = true ∧ twoRead 0x31 (lanes 0x31 (stash 0 0)) = true ∧
    twoRead 0x32 (lanes 0x32 (stash 0 0)) = true ∧ twoRead 0x33 (lanes 0x33 (stash 0 0)) = true ∧
    (ready 0x34 8 (lanes 0x34 0) fun x u => let n := liveCount u x 32 32 32
      n != 0 && got (readElems (skipTiles u x 32 n) x x.oa 32 n)) = true ∧
    (ready 0x39 8 (lanes 0x39 0 1) fun x u => let n := liveCount u x 32 32 16
      n != 0 && got (readElems (skipTiles u x 32 n) x x.oa 32 n)) = true ∧
    (ready 0x30 8 { lanes 0x30 (stash 0 0) with blocks := [] } fun x u => liveCount u x 32 32 32 == 0) = true := by decide +kernel

theorem witness_LargerOfTwoValues : (∃ a b : Val, a ≠ .nan ∧ b ≠ .nan) ∧ ∃ a b : Val, a = .nan ∨ b = .nan :=
  ⟨⟨Val.zero, Val.zero, by decide, by decide⟩, .nan, Val.zero, Or.inl rfl⟩

/-- The list operand of `w` elements of `n` is there. -/
def oneRead (op w wd : Nat) (s : State) (f : Ins → Bool := fun _ => true) : Bool :=
  ready op 8 s fun x u => f x.i && let n := liveCount u x w w wd
    n != 0 && got (readElems (skipTiles u x w n) x x.oa w n)

/-- VX.RED of a function code. -/
def red (fn : Nat) : State :=
  run 8 (word 0x3A (stash 32 0) (stash 0 0 + ext1) 0 0 0 0 0 fn)

theorem witness_PairInstructionsCompute :
    oneRead 0x35 64 64 (lanes 0x35 0) = true ∧ oneRead 0x37 32 32 (lanes 0x37 0) = true ∧ oneRead 0x38 32 1 (lanes 0x38 0) = true ∧
    oneRead 0x36 64 64 (lanes 0x36 8) (fun i => !i.x && !bit i.opb 11 && !bit i.opb 10) = true ∧
    oneRead 0x3A 32 32 (red 0) (fun i => i.fn == 0) = true ∧ oneRead 0x3A 32 32 (red 1) (fun i => i.fn == 1) = true ∧
    oneRead 0x3A 32 32 (red 2) (fun i => i.fn == 2) = true ∧ oneRead 0x3A 1 32 (red 3) (fun i => i.fn == 3) = true ∧
    oneRead 0x3A 64 32 (red 4) (fun i => i.fn == 4) = true ∧ oneRead 0x3A 64 64 (red 6) (fun i => i.fn == 6) = true := by decide +kernel

theorem witness_ProofTilesThatPassAreNoted :
    ready 0x3B 8 (run 8 (word 0x3B 0 0 9)) = true ∧ ready 0x3B 11 (run 11 (word 0x3B 0 0 0x10)) = true ∧
    (let s := { up with regions := [(0, { pw := { gated := false, liveTicks := 64 } })] }
     s.goodCell 8 = true ∧ proofDue s 8 = true ∧ (s.region (regionOf 8)).pw.gated = false ∧ s.err.fatal = false ∧
       s.thm.stopped = false) := by decide +kernel

/-- A cell with an operation under way. -/
def flying (f : Flight) : State := (run 0 0).updSeq 0 fun q => { q with flight := [.fence 8 0, f] }

theorem witness_MovesCarryTheirLines :
    (ready 0x40 0 (run 0 (word 0x40 (stash 0 0 + ext0) dev 0)) fun x u => minBound (bound u 0 x.od) (bound u 0 x.oa) == some 0) = true ∧
    (ready 0x40 0 (run 0 (word 0x40 (stash 0 0 + ext1) dev 0)) fun x u =>
      let lenL := stashLen x.i x.o x.od
      let live := clipTo (minBound (bound u 0 x.od) (bound u 0 x.oa)) (lenL / 64)
      let uL := u.countCell 0x004 0 (cdiv lenL 1024 - cdiv live 16)
      live != 0 && moved (readDev uL (devAddr x x.oa) (live * 64) x.acc) fun d v => (badLine [] (d.length / 64)).isNone &&
        (writeLines (v.countRegion 0x201 0 (d.length / 64)) 0 (x.gran v) (x.od.start / 64) (toLines (d.take (live * 64))) (some x.who)).1) = true ∧
    (ready 0x41 0 (run 0 (word 0x41 dev 0 (stash 0 0 + ext1))) fun x u =>
      let lenS := stashLen x.i x.o x.ob
      let b := minBound (bound u 0 x.ob) (bound u 0 x.od)
      let uS := u.countCell 0x004 0 (cdiv lenS 1024 - cdiv (clipTo b (cdiv lenS 64)) 16)
      moved (readMove uS x x.ob lenS b) fun d v => d != [] &&
        fine (writeMem (v.countRegion 0x202 0 (d.length / 64)) (devAddr x x.od) d x.acc)) = true ∧
    (ready 0x42 0 (run 0 (word 0x42 0x90000003 0 (stash 0 0 + ext1))) fun x u =>
      let lenS := stashLen x.i x.o x.ob
      let b := minBound (bound u 0 x.ob) (bound u 0 x.od)
      let uS := u.countCell 0x004 0 (cdiv lenS 1024 - cdiv (clipTo b (cdiv lenS 64)) 16)
      physOf x.j x.od.vcell == some 3 && (badRouter [] 0 3).isNone && moved (readMove uS x x.ob lenS b) fun d v =>
        decide (64 ≤ d.length) && d.length % 64 == 0 &&
        (writeLines (v.count 0x101 none (some 0) (some 0) (d.length / 64)) 3 (v.cell 3).seq.gran (x.od.start / 64) (toLines d) (some x.who)).1) = true ∧
    ((flying (.load 64)).cell 0).seq.halted = false ∧ ((flying (.load 64)).cell 0).seq.flight = [.fence 8 0] ++ .load 64 :: [] ∧
    ((flying (.store 64)).cell 0).seq.flight = [.fence 8 0] ++ .store 64 :: [] ∧
    ((flying (.put 3 64)).cell 0).seq.flight = [.fence 8 0] ++ .put 3 64 :: [] := by decide +kernel

/-- A route image of one entry: stash rows of 64 bytes of cell 3 (R322). -/
def routes : Bytes := [2, 0, 0, 0, 1, 0, 0, 0, 64, 0, 0, 0] ++ List.replicate 52 0 ++ leBytes 8 (3 + 16 * 2 ^ 32)

/-- `run` with the route image committed. -/
def routing (w : Nat) : State :=
  { run 8 w with tables := [{ job := 1, kind := 2, id := 7, image := some routes }] }

theorem witness_GatherAndScatterMoveTheRows :
    (ready 0x43 8 (routing (word 0x43 (stash 0 0) (tbl 2 7) (stash 0 0 + ext0))) fun x u => bound u 8 x.ob == some 0) = true ∧
    (ready 0x44 8 (routing (word 0x44 (tbl 2 7) (stash 0 0) (stash 0 0 + ext0))) fun x u => bound u 8 x.ob == some 0) = true ∧
    (ready 0x43 8 (routing (word 0x43 (stash 0 0) (tbl 2 7) (stash 0 0 + ext1))) fun x u =>
      let img := (tableImage u x.j.id x.oa.tkind x.oa.tid).getD []
      let n := clipTo (minBound (boundElems (bound u 8 x.ob) 64) (boundElems (bound u 8 x.od) (8 * num img 8 4))) (vCount x.ob.lenKib 64)
      num img 8 4 == 64 && n != 0 && got (readOpnd u x x.ob (8 * n) none true) fun d _ =>
        (routeFault x.j img false (stashLen x.i x.o x.od) ((List.range n).map fun k => toPair (num d (8 * k) 8))).isNone) = true ∧
    (ready 0x44 8 (routing (word 0x44 (tbl 2 7) (stash 32 0) (stash 0 0 + ext1))) fun x u =>
      let img := (tableImage u x.j.id x.od.tkind x.od.tid).getD []
      let n := clipTo (minBound (boundElems (bound u 8 x.ob) 64) (boundElems (bound u 8 x.oa) (8 * num img 8 4))) (vCount x.ob.lenKib 64)
      num img 8 4 == 64 && n != 0 && got (readOpnd u x x.ob (8 * n) none true) fun d _ =>
        (routeFault x.j img true (stashLen x.i x.o x.oa) ((List.range n).map fun k => toPair (num d (8 * k) 8))).isNone) = true := by
  decide +kernel

/-- Cell 0 about to issue an RD.SUM of one tile to cell 3. -/
def summing : State := run 0 (word 0x50 0x90000003 0 (stash 0 0 + ext1)) (Ram.write [] 16320 sumHeader)

/-- A group of that sum with `n` contributions. -/
def sumGroup (n : Nat) : RedGroup :=
  { dest := 3, off := 0, tag := 0x41, job := 1, header := sumHeader, opcodeBits := 0x90000003 * 2 ^ 32
    parts := List.replicate n ⟨0, List.replicate 1024 0, 1, 0, 0, sumHeader, 0x90000003 * 2 ^ 32⟩ }

/-- The hypotheses that RD.SUM's two clauses share. -/
def sumSent (s : State) (f : Ctx → State → Bytes → Bytes → Bool) : Bool :=
  ready 0x50 0 s fun x u => got (readStash u 0 (x.gran u) (stashBytes x.v - 64) 64 (some x.who)) fun h v =>
    headerGood x.j x.v h && !skippedWhole u 0 x.o && got (contribution v x) fun d w => (badLine [] (d.length / 64)).isNone &&
      (routerOn [] (regionOf 0) (regionOf ((physOf x.j x.od.vcell).getD 0))).isNone && f x w h d

theorem witness_ReductionsGatherTheirMembers :
    (sumSent summing fun _ w _ _ => w.reds == []) = true ∧
    (sumSent { summing with reds := [sumGroup 0] } fun x w h d =>
      let mine (g : RedGroup) : Bool := g.job == x.j.id && g.dest == x.od.vcell && g.off == bits x.od.v 12 0 && g.tag == num h 8 2 &&
        !g.parts.any fun q => q.vcell == x.v.vcell
      (w.reds.find? mine).isSome && d != []) = true ∧
    (let s := { run 0 0 with reds := [sumGroup 1] }
     let t := netStep s
     ((t.reds.find? fun g => g.off == 0 && g.tag == 0x41 && g.summed && sameOrder t g &&
        (t.job? g.job).any fun j => physOf j g.dest == some 3).bind fun g => t.job? g.job).isSome = true ∧ plumbOpen t 3 = true ∧
     ∀ g ∈ s.reds, ∀ p ∈ g.parts, p.header = g.header ∧ p.bits = g.opcodeBits ∧ ∀ q ∈ g.parts, q.data.length = p.data.length) ∧
    (ready 0x50 0 (run 0 (word 0x50 0x90000003 0 (stash 0 0 + ext0))) fun x u => skippedWhole u 0 x.o) = true := by
  decide +kernel

/-- The units that hold one group hold at most 8. -/
theorem witness_ReductionsGatherTheirMembers_held :
    (∀ b, atXbar [sumGroup 1] b ≤ 8) ∧ ∀ r, atRouter [sumGroup 1] r ≤ 8 :=
  ⟨fun _ => Nat.le_trans (List.length_filter_le _ _) (by decide), fun _ => Nat.le_trans (List.length_filter_le _ _) (by decide)⟩

/-- Cell 11 about to issue an RD.RING of one block in a group of two. -/
def ringing : State :=
  let s := run 11 (word 0x51 0 dev 0) (Ram.write [] 16320 (leBytes 8 4096))
  { s with jobs := s.jobs.map fun j => { j with params := { j.params with group := true } }
           ports := [(0, { role := 1, up := true, lanes := 255 })], grp := { s.grp with topology := 0 } }

theorem witness_RingTransfersBegin :
    (ringHeld ringing 11 = false ∧ ready 0x51 11 ringing (fun x u => !x.j.interactive &&
      got (readStash u 11 (x.gran u) (stashBytes x.v - 64) 64 (some x.who)) fun r v => (ringFault v x r).isNone &&
        match (ringSource v (devAddr x x.oa) (num r 0 8 / 4096) { job := x.j.id, src := srcCell x.c }).1 with
        | .ok _ => true
        | .error _ => false) = true) ∧
    ringHeld { ringing with grp := { ringing.grp with rings := List.replicate 8 ⟨0, 1, 11, 0⟩ } } 11 = true := by decide +kernel

/-- A KV page table: one sequence of one page of 16 tokens, one layer and head of 16 dimensions, FP8 (R455 to R458). -/
def kvImage : Bytes :=
  [1, 0, 0, 0, 1, 0, 0, 0, 1, 0, 0, 0, 1, 0, 0, 0] ++ leBytes 4 (1 + 2 ^ 8 + 16 * 2 ^ 16 + 3 * 2 ^ 25) ++ [0, 0, 0, 0, 0x80, 0, 0, 0, 0xC0, 0, 0, 0] ++
  List.replicate 32 0 ++ [0, 0, 0, 0, 1, 0, 0, 0] ++ List.replicate 56 0 ++ leBytes 8 0 ++ leBytes 8 1 ++ List.replicate 48 0 ++ leBytes 8 0

/-- An attention record: QMODE 1, one fresh row, Q_GROUP 1 (R465). -/
def attBytes : Bytes := leBytes 4 (2 ^ 28) ++ List.replicate 12 0 ++ leBytes 4 0x101 ++ List.replicate 44 0

/-- A cell about to issue an attention instruction. -/
def attending (c w : Nat) : State :=
  { run c w (Ram.write [] 16256 attBytes) with tables := [{ job := 1, kind := 1, id := 7, image := some kvImage }] }

theorem witness_AttentionRowsComplete_scores :
    (ready 0x70 0 (attending 0 (word 0x70 (acc 0 0 + ext0) 0x30000400 (tbl 1 7) 1 3 3)) fun x u =>
      minBound (bound u 0 x.od) (bound u 0 x.oa) == some 0) = true ∧
    (ready 0x70 0 (attending 0 (word 0x70 (acc 0 0) 0x30000400 (tbl 1 7) 1 3 3)) fun x u =>
      let b := minBound (bound u 0 x.od) (bound u 0 x.oa)
      let live := clipTo b x.oa.rows
      b != some 0 && got (readAtt (u.countCell 0x004 0 0) x false) fun a v1 => (storeFault v1 x a).isNone && a.r.mask != 2 &&
        got (readFresh v1 x a false) fun _ v2 => got (readBuf v2 x true x.oa.start (live * a.h.dim * fmtWidth x.i.a / 8))) = true ∧
    (ready 0x71 0 (attending 0 (word 0x71 (acc 0 1) (stash 0 0 + ext0) (tbl 1 7) 1 3 3)) fun x u => bound u 0 x.oa == some 0) = true ∧
    (ready 0x71 0 (attending 0 (word 0x71 (acc 0 1) (stash 0 0 + ext1) (tbl 1 7) 1 3 3)) fun x u =>
      clipTo (bound u 0 x.od) (16 * pvGroups x) != 0 && bound u 0 x.oa != some 0 && got (readAtt (u.countCell 0x004 0 0) x true) fun a v1 =>
        (storeFault v1 x a).isNone && got (readFresh v1 x a true) fun _ v2 =>
          got (readOpnd v2 x x.oa (stashLen x.i x.o x.oa) (bound v2 0 x.oa) false)) = true := by decide +kernel

theorem witness_AttentionRowsComplete_states :
    (ready 0x72 8 (run 8 (word 0x72 (stash 32 0) (stash 0 1 + ext0) 0 0 0 0 3)) fun x u => linesIn u x == some 0) = true ∧
    (ready 0x72 8 (run 8 (word 0x72 (stash 32 0) (stash 0 1 + ext1) 0 0 0 0 3)) fun x u => linesIn u x != some 0 &&
      got (readOpnd u x x.oa (1024 * x.oa.lenKib) (linesIn u x) false)) = true ∧
    (ready 0x73 8 (run 8 (word 0x73 (stash 32 0) (stash 0 2) (stash 0 2 + ext0))) fun x u => linesIn u x == some 0) = true ∧
    (ready 0x73 8 (run 8 (word 0x73 (stash 32 0) (stash 0 2 + ext1) (stash 0 2 + ext1))) fun x u =>
      let la := stashLen x.i x.o x.oa
      linesIn u x != some 0 && stashLen x.i x.o x.ob == la &&
      got (readOpnd u x x.oa la (linesIn u x) false) fun p v1 => got (readOpnd v1 x x.ob la (linesIn u x) false) fun q _ =>
        num p 8 4 == num q 8 4) = true := by decide +kernel

/-- The tree of the spec's worked example (R476 to R479): six nodes, FIXED 1, sequence 37, parents 0xFF, 0, 1, 0, 3, 2, the candidates
of nodes 1 to 5, and what the verifier wrote. -/
def tree : Bytes :=
  [6, 1, 0, 0, 37, 0, 0, 0] ++ List.replicate 56 0 ++ [0xFF, 0, 1, 0, 3, 2] ++ List.replicate 58 0 ++
  [0, 881, 45016, 2950, 12007, 309].flatMap (leBytes 4) ++ List.replicate 104 0 ++
  [2950, 0, 0, 12007, 6113, 0].flatMap (leBytes 4) ++ List.replicate 104 0

/-- Cell 8 about to issue AT.TREE on that record. -/
def growing (x : Nat) : State := run 8 (word 0x74 (stash 32 0) (stash 0 0) 0 x) (Ram.write [] 0 tree)

theorem witness_TreeMaskHoldsTheAncestors :
    (ready 0x74 8 (growing 0) fun x u => !x.i.x && linesIn u x != some 0 &&
      got (readOpnd u x x.oa 384 (linesIn u x) false) fun b _ => (treeFault b).isNone) = true := by decide +kernel

theorem witness_TreeAcceptanceFollowsThePath :
    (ready 0x74 8 (growing 1) fun x u => x.i.x && linesIn u x != some 0 &&
      got (readOpnd u x x.oa 384 (linesIn u x) false) fun b _ => (treeFault b).isNone) = true := by decide +kernel

/-- Cell 11 about to issue AT.ROLLBACK; sequence 0 covers 16 positions. -/
def rolling (w : Nat) (d : Bytes) : State :=
  { run 11 w (Ram.write [] 0 d) with tables := [{ job := 1, kind := 1, id := 7, image := some kvImage }] }

/-- The hypotheses of AT.ROLLBACK's result. -/
def rolled (s : State) : Bool :=
  ready 0x75 11 s fun x u => bound u 11 x.oa != some 0 && got (readOpnd u x x.oa 64 none false) fun b v =>
    (v.tables.find? fun t => t.job == x.j.id && t.kind == 1 && t.id == x.od.tid).any fun y =>
      let n := num b 0 2 % 4096
      let new := if x.i.x then (if bit (num b 0 4) 31 then num b 4 4 else kvLen y n + num b 4 4) else kvLen y n + num b 5 1 % 64
      !(x.i.x && bit (num b 0 4) 31 && decide (kvLen y n < new)) && decide (new ≤ classLimit x.j.interactive) &&
      (y.image.any fun i => decide (new ≤ kvCover i n)) && y.shadow.isNone

theorem witness_RollbackMovesTheLength :
    (ready 0x75 11 (rolling (word 0x75 (tbl 1 7) (stash 0 0 + ext0) 0) []) fun x u => bound u 11 x.oa == some 0) = true ∧
    rolled (rolling (word 0x75 (tbl 1 7) (stash 0 0) 0) [0, 0, 0, 0, 0, 16, 0, 0]) = true ∧
    rolled (rolling (word 0x75 (tbl 1 7) (stash 0 0) 0 1) [0, 0, 0, 0, 16, 0, 0, 0]) = true ∧
    rolled (rolling (word 0x75 (tbl 1 7) (stash 0 0) 0 1) [0, 0, 0, 0x80, 0, 0, 0, 0]) = true := by decide +kernel

theorem witness_CairnInstructionsComplete :
    ready 0x60 0 (run 0 (word 0x60 (crn 1) 0 5)) = true ∧
    (ready 0x61 0 (run 0 (word 0x61 0 (crn 1) 0)) fun x u => decide (x.i.opb ≤ cairnVal u 33 0) && (sget 0 u.syn.bad (cairnKey 33 0) == 0)) = true ∧
    (ready 0x61 0 (run 0 (word 0x61 0 (crn 1) 1)) fun x u => decide (cairnVal u 33 0 < x.i.opb) && !(u.cell 0).seq.halted) = true ∧
    ready 0x62 0 (run 0 (word 0x62 (stash 0 0) (crn 1) 0)) = true := by decide +kernel

/-! ### Cairns, plotting, descriptors -/

/-- Cell 0 of job 1 with a sequencer changed. -/
def seqWith (f : Seq → Seq) (c : Nat := 0) : State := (run c 0).updSeq c f

theorem witness_SignalsReachEveryCopy :
    (let s := seqWith fun q => { q with flight := [.signal 33 1 false 0] }
     (s.cell 0).seq.flight = .signal 33 1 false 0 :: [] ∧ (s.job? (s.cell 0).seq.job).isSome = true ∧ cairnVal s 33 32 + onItsWay s 33 + 1 ≤ 0xFFFFFFFF) ∧
    ((ringing.job? 1).any fun j => j.params.group && decide (ringing.syn.groupQ.length < 64)) = true ∧
    (let s := { seqWith fun q => { q with wait := some ⟨33, 1, 0⟩ } with syn := { inFlight := [(33, 0, 1, 0)] } }
     takeFlight 33 0 s.syn.inFlight = some (1, []) ∧ sget 0 s.syn.bad (cairnKey 33 0) = 0 ∧ swf {} s.cells = true ∧
     (s.cell 0).seq.wait = some ⟨33, 1, 0⟩ ∧ 1 ≤ min 0xFFFFFFFF (cairnVal s 33 0 + 1)) := by decide +kernel

theorem witness_WaitsTimeOutAndJobsDeadlock :
    let s := seqWith fun q => { q with wait := some ⟨33, 1, 0⟩ }
    let j : Job := { job 0 3 with stuck := true, params := { (job 0 3).params with deadlockMode := 1 } }
    (s.cell 0).seq.wait = some ⟨33, 1, 0⟩ ∧ s.job? (s.cell 0).seq.job = some (job 0 3) ∧ (job 0 3).params.deadlockMode ≠ 1 ∧
    ((job 0 3).image.cells[(s.cell 0).seq.vindex]?).isSome = true ∧ j.params.group = false ∧ stuckNow s j = true ∧ j.stuck = true ∧
    sget 0 s.syn.bad (cairnKey 33 0) = 0 ∧ cairnVal s 33 0 < 1 ∧ ((seqWith fun q => { q with wait := some ⟨33, 0, 0⟩ }).cell 0).seq.wait = some ⟨33, 0, 0⟩ ∧
    j.params.deadlockMode = 1 ∧ stuckNow (run 0 0) j = false ∧ timesOut s { j with params := { j.params with deadlockMode := 2 } } = false := by
  decide +kernel

/-- A plot sequence of one unit: COUNT into result line 1 (R431 to R434). -/
def plotSeq (op : Nat := 3) : Bytes :=
  [1, 0, 1, 0, 2, 0, 0, 0] ++ leBytes 4 0x10000 ++ leBytes 4 1 ++ List.replicate 48 0 ++ leBytes 4 (op + 2 ^ 18) ++ List.replicate 60 0

/-- Stack 0 holds `d` at the start of segment 0; the job may plot in the first MiB. -/
def stocked (s : State) (d : Bytes) : State :=
  { s.updStack 0 fun x => { x with data := Ram.write [] 0 d } with
    jobs := s.jobs.map fun j => { j with params := { j.params with windows := ⟨0, 0x100000, true, true, true⟩ :: j.params.windows } } }

/-- A descriptor of a type with a job, flags in bits 8 to 11, and its body (R118). -/
def desc (ty job flags : Nat) (body : Bytes) : Bytes :=
  slice (leBytes 4 (ty + flags * 256) ++ leBytes 4 job ++ List.replicate 24 0 ++ body) 0 64

/-- `run` with ring 0 holding one fetched descriptor. -/
def posted (raw : Bytes) (phase : DescPhase := .fetched) (from_ : Option Nat := none) : State :=
  { run 0 0 with hif := { up.hif with descs := [{ ring := 0, count := 0, raw, phase, waitFrom := from_ }] } }

/-- `posted` with a COPY of ring 0 before the descriptor, begun. -/
def behind (raw : Bytes) : State :=
  let copy := slice (leBytes 4 2 ++ leBytes 4 1) 0 64
  { run 0 0 with hif := { up.hif with descs := [{ ring := 0, count := 0, raw := copy, phase := .begun }, { ring := 0, count := 1, raw }] } }

/-- A descriptor stands first in ring 0, and `f` holds of it. -/
def first (s : State) (f : Desc → Bool) : Bool := (unbegun s 0).any f

/-- The PLOT descriptor of that sequence. -/
def plotDesc (flags : Nat := 0) : Bytes := desc 3 1 flags (leBytes 8 0x6000000000 ++ leBytes 4 128 ++ leBytes 4 8)

/-- The hypotheses of a PLOT that begins. -/
def plotBegins (s : State) (p : DescPhase) : Bool :=
  first s fun d => dType d.raw == 3 && d.phase == p && plotMayBegin s d && (s.job? (dJob d.raw)).any fun j =>
    fine (decodeSeq s (plotStack d.raw) j (.desc d.ring d.count) (plotAddr d.raw) (some (plotLen d.raw))
      (inWindow j (·.read) (plotAddr d.raw)) { job := j.id, src := srcDesc d.ring (d.count % ringSize (s.ring d.ring)) })

/-- A sequence as decoded. -/
def queued (op : Nat := 3) : PlotSeq :=
  ⟨1, 1, .cell 11 (some 33) 1 0, plotSeq op, 1, 0, 1, 1, 0, 0, 0, false, 0, 0, 0, [], false, false⟩

/-- Cell 11 about to issue PL.ISSUE. -/
def plotting : State := stocked (run 11 (word 0x80 0x18 dev 0)) (plotSeq)

theorem witness_PlotSequencesAreQueued :
    (!plotHeld plotting 11 && ready 0x80 11 plotting fun x u => fine (decodeSeq u (bits x.i.opd 3 0) x.j (.cell x.c (some 33) x.j.sheet x.who.index)
      (devAddr x x.oa) none (fun k => match x.j.image.segs[x.oa.seg]? with
        | some g => !g.code && decide (devOffset x.bias x.oa + k ≤ g.len)
        | none => false) x.acc)) = true ∧
    plotHeld (plotting.updStack 8 fun x => { x with bulkQ := List.replicate 32 queued }) 11 = true ∧
    (let s := stocked (posted plotDesc) plotSeq
     first s (fun d => plotStatus s d == none) = true ∧ plotBegins s .fetched = true) ∧
    plotBegins (stocked (posted plotDesc .waiting) plotSeq) .waiting = true ∧
    (let s := posted (desc 3 1 0 [1])
     first s fun d => dType d.raw == 3 && d.phase == .fetched && plotStatus s d == some 0x11) = true ∧
    (let s := { posted plotDesc with jobs := [{ job 0 3 with phase := .saving }] }
     first s fun d => plotStatus s d == none && !plotMayBegin s d) = true ∧
    (let s := { posted plotDesc with err := { fatal := true } }
     first s (fun d => dType d.raw == 3 && d.phase == .fetched) = true ∧ s.err.fatal = true ∧ (posted plotDesc).err.fatal = false) := by
  decide +kernel

/-- A stack 8 whose bulk queue holds a sequence. -/
def scanning (q : PlotSeq) : State := (run 11 0).updStack 8 fun x => { x with bulkQ := [q] }

theorem witness_PlotSequencesRunStrokeByStroke :
    (let s := scanning queued
     (s.stack 8).bulkQ.all (fun y => !y.cancel) ∧ (s.stackPlan 8).fenced = false ∧ engineHeld s 8 = false ∧ (s.stack 8).frames = [] ∧
     ([(s.stack 8).interQ.head?, (s.stack 8).bulkQ.head?].filterMap id).find? (fun y => !y.started) = some queued) ∧
    (let q := { queued 1 with started := true }
     let s := ran (exec (.plotSequenceStart 8) (scanning (queued 1))) State.reset
     let u := ran (exec (.plotStrokeEnd 8 []) s) State.reset
     strokeTurn (s.stack 8) = some (false, q) ∧ engineHeld s 8 = false ∧ busyUnits s 8 false q = [0] ∧ (s.stack 8).bad = [] ∧
     (s.stack 8).checks = [] ∧ (classCtx (s.stack 8) false).all (·.writes.isEmpty) = true ∧
     (plotCmds q).all (fun k => k.op != 6) = true ∧
     strokeTurn (u.stack 8) = some (false, { q with strokes := 1 }) ∧ engineHeld u 8 = false ∧ busyUnits u 8 false q = []) ∧
    (let q := { queued with started := true, group := 1 }
     let s := scanning q
     ([(s.stack 8).interQ.head?, (s.stack 8).bulkQ.head?].filterMap id).find? (fun y => y.started && seqDone y) = some q ∧ q.failed = [] ∧
     q.src = .cell 11 (some 33) 1 0 ∧ (s.job? q.job).any (fun j => decide (j.phase = .running)) = true) := by decide +kernel

/-- A context that has moved nothing of its block agrees with the stack. -/
theorem bufAgrees_of_fresh (s : State) (n : Nat) (q : PlotSeq) (y : UnitCtx) (hw : y.writes = []) (h0 : y.word = 0) : bufAgrees s n q y := by
  intro c p _ _ b i _ held
  rw [if_pos hw, h0]
  omega

theorem witness_PlotSequencesRunStrokeByStroke_placed :
    let q := { queued 1 with started := true }
    let s := ran (exec (.plotSequenceStart 8) (scanning (queued 1))) State.reset
    seqPlaced s q ∧ (classCtx (s.stack 8) false).map (·.unit) = groupUnits q ∧ ∀ y ∈ classCtx (s.stack 8) false, bufAgrees s 8 q y := by
  refine ⟨by unfold seqPlaced; decide +kernel, by decide +kernel, fun y hy => ?_⟩
  have h : ∀ y ∈ classCtx ((ran (exec (.plotSequenceStart 8) (scanning (queued 1))) State.reset).stack 8) false,
    y.writes = [] ∧ y.word = 0 := by decide +kernel
  exact bufAgrees_of_fresh _ _ _ _ (h y hy).1 (h y hy).2

theorem witness_PlotFencesWaitForTheirSequences :
    ready 0x81 11 (run 11 (word 0x81 8 0 0)) = true ∧
    (let s := flying (.load 64)
     s.job? 1 = some (job 0 3) ∧ (jobCells (job 0 3)).Nodup ∧ 0 ∈ jobCells (job 0 3) ∧ (s.cell 0).seq.job = 1 ∧
     (s.cell 0).seq.flight = [] ++ .fence 8 0 :: [.load 64] ∧ plotClear s 8 1 0 = true ∧ 5 ∉ jobCells (job 0 3) ∧
     plotClear ({ s with stk := (scanning queued).stk }) 8 1 1 = false) ∧
    (let s := posted (desc 5 1 0 (leBytes 4 0x82))
     s.hif.descs.any fun d => fencePlotStatus s d == none && s.hif.descs.find? (fun y => y.ring == d.ring && y.count == d.count) == some d &&
       dType d.raw == 5 && fenceScope d.raw == 2 && d.phase == .fetched && !dFlag d.raw 9 &&
       plotClear s (fenceStack d.raw) (dJob d.raw) (s.stack (fenceStack d.raw)).serial) = true ∧
    (let s := posted (desc 5 1 0 (leBytes 4 0x82)) .begun
     s.hif.descs.any fun d => fencePlotStatus s d == none && d.phase == .begun) = true ∧
    (let s := posted (desc 5 1 0 (leBytes 4 0x2))
     s.hif.descs.any fun d => fencePlotStatus s d == some 0x11) = true := by decide +kernel

theorem witness_CompletionRecordsAreWritten :
    (let s := posted (desc 0 0 0 [])
     (s.ring 0).cqFailed = false ∧ s.hif.linkUp = true ∧ s.hif.txRefused = false ∧ (desc 0 0 0 []).length = 64 ∧ dFlag (desc 0 0 0 []) 8 = false) ∧
    (let s := { up with hif := { up.hif with mods := [(0, { count := 2 })] } }
     (sget ({} : Mod) s.hif.mods 0).pending + 1 < (sget ({} : Mod) s.hif.mods 0).count) ∧
    ((up.updRing 0 fun r => { r with cqFailed := true }).ring 0).cqFailed = true ∧
    (let s := { up with hif := { up.hif with txRefused := true } }
     (s.ring 0).cqFailed = false ∧ s.hif.txRefused = true) := by decide +kernel

/-- Ring 0 with one descriptor posted and not fetched. -/
def toFetch : State := up.updRing 0 fun r => { r with sqPi := 1 }

theorem witness_DoorbellsAndFetch :
    ([1, 2, 3] : Bytes).length < 8 ∧ ([1, 2, 3, 4, 5, 6, 7, 8] : Bytes).length = 8 ∧ (up.ring 1).enable = false ∧
    (let valid (b : Bytes) : Bool :=
       let r := up.ring 0
       decide ((num b 0 4 + 2 ^ 32 - r.sqPi) % 2 ^ 32 ≤ 2 ^ 31) && decide ((num b 4 4 + 2 ^ 32 - r.cqCi) % 2 ^ 32 ≤ 2 ^ 31) &&
       decide ((num b 0 4 + 2 ^ 32 - r.sqCi) % 2 ^ 32 ≤ 2 ^ r.sizeLog2) &&
       decide ((num b 4 4 + 2 ^ 32 - r.cqCi) % 2 ^ 32 ≤ (r.cqPi + 2 ^ 32 - r.cqCi) % 2 ^ 32)
     let r := up.ring 0
     (leBytes 4 16 ++ leBytes 4 0).length = 8 ∧ r.enable = true ∧ r.state = 1 ∧ r.sqPi < 2 ^ 32 ∧ r.sqCi < 2 ^ 32 ∧ r.cqPi < 2 ^ 32 ∧
     r.cqCi < 2 ^ 32 ∧ valid (leBytes 4 16 ++ leBytes 4 0) = true ∧ valid (leBytes 4 (2 ^ 17) ++ leBytes 4 0) = false) ∧
    fetchRing toFetch = some 0 ∧ (toFetch.ring 0).interactive = false ∧ toFetch.hif.descs = [] ∧
    (desc 5 1 0 [0x82]).length = 64 ∧ dType (desc 5 1 0 [0x82]) ≤ 5 ∧ fenceScope (desc 5 1 0 [0x82]) ≠ 3 := by decide +kernel

/-- A COPY of 64 bytes between device addresses (DIR 2). -/
def copyDesc (dir : Nat := 2) (flags : Nat := 0) : Bytes :=
  slice (leBytes 4 (2 + flags * 256) ++ leBytes 4 1 ++ List.replicate 8 0 ++ leBytes 4 33 ++ leBytes 4 1 ++ List.replicate 8 0 ++
    leBytes 8 0x6000000000 ++ leBytes 8 0x6000001000 ++ leBytes 4 64 ++ leBytes 4 dir) 0 64

/-- A TABLE of 64 bytes from device memory. -/
def tableDesc (kind : Nat := 2) : Bytes := desc 4 1 0 (leBytes 8 0x6000000000 ++ leBytes 4 64 ++ [BitVec.ofNat 8 kind, 7, 0, 0])

theorem witness_DescriptorsBeginOrWaitInRingOrder :
    (let s := posted copyDesc
     first s fun d => dType d.raw == 2 && d.phase == .fetched && copyStatus s d == none) = true ∧
    (let s := posted (copyDesc 3)
     first s fun d => dType d.raw == 2 && copyStatus s d == some 0x11) = true ∧
    (let s := posted tableDesc
     first s fun d => dType d.raw == 4 && d.phase == .fetched && tableStatus s d == none && mayBegin (scanWait s d) d) = true ∧
    (let s := { posted tableDesc with jobs := [{ job 0 3 with phase := .saving }] }
     first s fun d => dType d.raw == 4 && d.phase == .fetched && tableStatus s d == none && !mayBegin (scanWait s d) d) = true ∧
    (let s := posted (tableDesc 0)
     first s fun d => dType d.raw == 4 && tableStatus s d == some 0x11) = true ∧
    (let s := posted copyDesc .waiting
     first s fun d => dType d.raw == 2 && d.phase == .waiting && mayBegin (scanWait s d) d) = true ∧
    (let s := posted tableDesc .waiting
     first s fun d => dType d.raw == 4 && d.phase == .waiting && mayBegin (scanWait s d) d) = true ∧
    (let nops (s : State) (f : Desc → Bool) : Bool := (firstOf s 0 0 fun _ => true).any fun d => headerOk d.raw && !dFlag d.raw 10 &&
       !dFlag d.raw 11 && (d.raw.drop 0x20).all (· == 0) && dJob d.raw == 0 && f d
     nops (posted (desc 0 0 0 []) .begun) (·.phase == .begun) = true ∧
     nops (posted (desc 0 0 0 [])) (fun d => d.phase != .begun && !dFlag d.raw 9) = true ∧
     nops (behind (desc 0 0 2 [])) (fun d => d.phase != .begun && dFlag d.raw 9 && !alone (behind (desc 0 0 2 [])) d) = true) ∧
    (let dead (raw : Bytes) : State := { posted raw with err := { fatal := true } }
     first (dead copyDesc) (fun d => dType d.raw == 2 && d.phase == .fetched) = true ∧ (dead copyDesc).err.fatal = true ∧
     first (dead tableDesc) (fun d => dType d.raw == 4 && d.phase == .fetched) = true ∧ (posted copyDesc).err.fatal = false ∧
     (posted tableDesc).err.fatal = false) := by decide +kernel

theorem witness_DescriptorsBeginOrWaitInRingOrder_fence :
    (let s := posted (desc 5 0 2 [])
     s.hif.descs.any fun d => fenceStatus s d == none && s.hif.descs.find? (fun y => y.ring == d.ring && y.count == d.count) == some d &&
       dType d.raw == 5 && d.phase == .fetched && alone s d) = true ∧
    (let s := posted (desc 5 1 0 [1]) .begun
     s.hif.descs.any fun d => fenceStatus s d == none && d.phase == .begun) = true ∧
    (let s := behind (desc 5 0 2 [])
     s.hif.descs.any fun d => fenceStatus s d == none && d.phase == .fetched && dFlag d.raw 9 && !alone s d) = true ∧
    (let s := posted (desc 5 1 4 [1])
     s.hif.descs.any fun d => fenceStatus s d == some 0x11) = true ∧
    (let waits (s : State) (f : Desc → Bool) : Bool := first s fun d => d.phase == .waiting && dFlag d.raw 10 && d.waitFrom == some 0 &&
       (s.job? (dJob d.raw)).isSome && !parked s 1 && (sget 0 s.syn.bad (cairnKey (dWaitCairn d.raw) 32) : Nat) == 0 && f d
     let s := posted (copyDesc 2 4) .waiting (some 0)
     let u := { s with syn := { s.syn with copies := sset 0 s.syn.copies (cairnKey 33 32) 1 } }
     waits s (fun d => decide (cairnVal s (dWaitCairn d.raw) 32 < dWaitValue d.raw)) = true ∧
     waits u (fun d => decide (dWaitValue d.raw ≤ cairnVal u (dWaitCairn d.raw) 32)) = true) ∧
    (let s := (posted copyDesc .waiting).updRing 0 fun r => { r with interactive := true }
     sget none s.hif.engines 3 = none ∧ s.inReset 3 3 = false ∧ unitHeld s 3 3 = false ∧
     (s.hif.descs.find? fun y => copyReady s y && interDesc s y).isSome = true) := by decide +kernel

/-- A copy engine at work on a COPY. -/
def copying (dir : Nat) : State :=
  { run 0 0 with hif := { up.hif with
      engines := [(3, some ⟨0, 0, 0, 64⟩)], descs := [{ ring := 0, count := 0, raw := copyDesc dir, phase := .begun, open_ := 1 }] } }

/-- The descriptor and the state of a piece, as COPY_PIECE_DONE sees them. -/
def pieced (s : State) (f : Piece → Desc → State → Accessor → Bool) : Bool :=
  (sget none s.hif.engines 3).any fun p => (s.hif.descs.find? fun d => d.ring == p.ring && d.count == p.count).any fun d =>
    f p d { s with hif := { s.hif with engines := sset none s.hif.engines 3 none } }
      { job := dJob d.raw, src := srcDesc d.ring (d.count % ringSize (s.ring d.ring)), desc := some (d.ring, d.count) }

theorem witness_CopiesMoveTheirPieces :
    sget none up.hif.engines 3 = none ∧
    (pieced (copying 0) fun p d i a => copyDir d.raw == 0 && !copyZero d.raw && fine (writeMem i (copyDst d.raw + p.off) (List.replicate p.len 7) a)) = true ∧
    (pieced (copying 6) fun p d i a => copyZero d.raw && copyDir d.raw != 1 && fine (writeMem i (copyDst d.raw + p.off) (List.replicate p.len 0) a)) = true ∧
    (pieced (copying 1) fun p d i a => copyDir d.raw == 1 && !copyZero d.raw && fine (readMem i (copySrc d.raw + p.off) p.len a) fun _ v =>
      v.hif.linkUp && !v.hif.txRefused) = true ∧
    (pieced (copying 2) fun p d i a => copyDir d.raw == 2 && !copyZero d.raw && fine (readMem i (copySrc d.raw + p.off) p.len a) fun b v =>
      fine (writeMem v (copyDst d.raw + p.off) b a)) = true ∧
    (pieced ((copying 2).updStack 0 fun x => { x with checks := [(0, 1)] }) fun p d i a => copyDir d.raw != 0 && !copyZero d.raw &&
      !fine (readMem i (copySrc d.raw + p.off) p.len a)) = true := by decide +kernel

theorem witness_RingsAbortsAndInterrupts :
    datumReach up 4 = true ∧ (up.ring 0).state ≠ 3 ∧ up.hif.linkUp = true ∧ up.hif.txRefused = false ∧
    (let s := up.updRing 0 fun r => { r with state := 3 }
     (s.ring 0).state = 3 ∧ ∀ d ∈ s.hif.descs, d.ring ≠ 0) ∧
    bit (2 ^ 31 + 1) 31 = true ∧ ((run 0 0).job? ((2 ^ 31 + 1) % 65536) = some (job 0 3) ∧ (job 0 3).ending = none) ∧
    (let m := sget ({} : Mod) [(0, { time := 1, pending := 1 })] 0
     m.time ≠ 0 ∧ m.pending ≠ 0) ∧ (4096 < 4090 % 4096 + 8) ∧
    ({ up.hif with ecrc := true } : Hif).ecrc = true ∧ up.hif.ecrc = false := by decide +kernel

/-! ### Jobs -/

/-- A program image of one sheet and one cell, without its trailer: a code segment of 4 KiB, region 0, cell 11, one stream of one
instruction (R200 to R208). -/
def imageBody : Bytes :=
  leBytes 4 0x0043544A ++ [1, 0, 1, 0] ++ leBytes 4 576 ++ leBytes 4 0x10000 ++ leBytes 4 1 ++ leBytes 4 11 ++ List.replicate 16 0 ++
  [1, 0, 1, 0, 1, 0, 0, 0] ++ leBytes 4 1 ++ leBytes 4 1 ++ List.replicate 8 0 ++
  [128, 192, 256, 0, 320, 384, 0, 448].flatMap (leBytes 4) ++ leBytes 4 64 ++ List.replicate 28 0 ++
  (leBytes 8 0x6000000000 ++ leBytes 8 4096 ++ leBytes 4 448 ++ leBytes 4 64 ++ leBytes 4 1 ++ List.replicate 36 0) ++ List.replicate 64 0 ++
  (leBytes 4 (11 + 11 * 2 ^ 16) ++ leBytes 4 256 ++ leBytes 4 0 ++ leBytes 4 1 ++ leBytes 4 7 ++ List.replicate 44 0) ++
  (leBytes 4 0 ++ leBytes 4 1 ++ List.replicate 56 0) ++ (leBytes 4 0x10000 ++ leBytes 4 0 ++ leBytes 4 0xFFFFFFFF ++ List.replicate 52 0) ++
  List.replicate 120 0

/-- The image with its trailer. -/
def progImage : Bytes := imageBody ++ leBytes 4 (crc32c imageBody) ++ leBytes 4 0

/-- Its parameter block: 16 cairns from 32, one window (R124, R125). -/
def paramBlock : Bytes :=
  List.replicate 8 0 ++ leBytes 8 0x6000000000 ++ leBytes 4 0 ++ leBytes 4 (32 + 16 * 2 ^ 16) ++ List.replicate 8 0 ++
  leBytes 8 0x6000000007 ++ leBytes 8 0x6000010000 ++ List.replicate 208 0

/-- Its descriptor. -/
def startRaw (len : Nat := 576) : Bytes := desc 1 1 0 (leBytes 8 0 ++ leBytes 8 1024 ++ leBytes 4 len ++ leBytes 4 256)

/-- The part with that descriptor fetched and no job. -/
def starting (len : Nat := 576) : State := { posted (startRaw len) with jobs := [], cells := [] }

theorem witness_JobsStartAndPrepare_start :
    (first (starting) fun d => dType d.raw == 1 && d.phase == .fetched && !dFlag d.raw 9 && startFields (starting) d == none &&
      match startChecks (starting) d (slice paramBlock 0 256) progImage with
      | .ok j => j.phase == .preparing && jobCells j == [11]
      | .error _ => false) = true ∧
    (first (starting) fun d => match startChecks (starting) d [] progImage with
      | .ok _ => false
      | .error st => st == 0x11) = true ∧
    (let s := { starting with jobs := [{ job 0 3 with id := 2 }] }
     first s fun d => match startChecks s d (slice paramBlock 0 256) progImage with
      | .ok _ => false
      | .error st => st == 0x22) = true ∧
    (let s := { starting with jobs := [job 0 3] }
     first s fun d => startFields s d == some 0x12) = true := by decide +kernel

/-- Job 1 in a phase, with that image. -/
def imaged (p : JobPhase) (f : Job → Job := id) : State :=
  let j : Job := { job 11 3 with phase := p, image := (readImage progImage).1 }
  { run 11 0 with jobs := [f j] }

theorem witness_JobsStartAndPrepare :
    (let s := imaged .preparing
     (s.job? 1).any fun j => decide (j.phase = .preparing) && j.ending.isNone &&
       fine (copyInitial s j)) = true ∧
    (let s := (imaged .running fun j => { j with sheet := 1 }).updSeq 11 fun q => { q with fetched := false }
     let q := (s.cell 11).seq
     (s.job? q.job).any fun j => j.ending.isNone && q.next.isNone && (j.image.cells[q.vindex]?).any fun v =>
       (segmentOf j.image v j.sheet).any fun e => got (fetchSegment s j 11 e.1)) = true ∧
    (let s := imaged .ready fun j => { j with sheet := 0 }
     let q := (s.cell 11).seq
     (s.job? q.job).any fun j => q.next.isNone && (j.image.cells[q.vindex]?).any fun v =>
       (segmentOf j.image v (j.sheet + 1)).any fun e => got (fetchSegment s j 11 e.1)) = true ∧
    (let k : Clear := { job := 1, cells := [11], cairnBase := 32, cairnCount := 16, since := 0 }
     let s := { run 11 0 with clearing := [k] }
     s.clearing.find? (fun k => k.job == 1 && !k.cleared) = some k ∧ s.clk.cycles ≤ k.since + 8192 ∧ stashWaits s k = false ∧
     clearPutOff s k = false ∧ clearPutOff s { k with noLimit := true } = false ∧ s.err.fatal = false ∧
     s.clearing.find? (fun k => k.job == 1 && !k.cleared && !k.noLimit) = some k ∧ stashWaits s { k with save := true } = true) := by decide +kernel

/-- The cells of a job take up their places again. -/
def given (w : State) (j : Job) : State :=
  (j.image.cells.zipIdx).foldl (fun z e =>
    let k := (j.kept.find? fun k => k.cell == e.1.pcell).getD ⟨e.1.pcell, [], []⟩
    z.updSeq e.1.pcell fun _ => { job := 1, vindex := e.2, gran := k.gran, banks := k.banks }) w

/-- A restore whose copies stand: what it answers, and what it leaves. -/
def restored (s : State) (j : Job) : Bool × State := restoreJob (given (copyPlumbs s j []).2 j) j

theorem witness_PreEmptedJobsSaveAndRestore :
    (let s := imaged .saving fun j => { j with params := { j.params with saveAddr := 0x6000000000 } }
     (s.job? 1).any fun j => decide (j.phase = .saving) && (copyPlumbs s j []).1 && (saveJob s j).1) = true ∧
    (let s := (imaged .saving fun j => { j with
       params := { j.params with saveAddr := 0x6000000000 }, liveAt := [(11, 0)], image := { j.image with lives := [⟨0, 1, true⟩] } }).updPlumb 11
       fun p => { p with eastTest := some 9, westWait := true }
     (s.job? 1).any fun j => decide (j.phase = .saving) && savedCells j == [11] && !(copyPlumbs s j []).1) = true ∧
    (let s := imaged .restoring fun j => { j with params := { j.params with saveAddr := 0x6000000000 } }
     (s.job? 1).any fun j => decide (j.phase = .restoring) && (copyPlumbs s j []).1 && (restored s j).1 && j.id == 1 && j.deferred == [] &&
       (restored s j).2.hif.descs.all (fun d => decide (dJob d.raw = 1 → d.phase = .begun)) && (restored s j).2.syn.inFlight == []) = true ∧
    (let s := (imaged .restoring fun j => { j with params := { j.params with saveAddr := 0x6000000000 } }).updStack 0
       fun x => { x with checks := [(0, 1)] }
     (s.job? 1).any fun j => decide (j.phase = .restoring) && (copyPlumbs s j []).1 && !(restored s j).1) = true ∧
    32 + 16 ≤ 4096 ∧
    (let s := (imaged .saving fun j => { j with head := [1], params := { j.params with saveAddr := 0x6000000000 } }).updStackPlan 0
       fun x => { x with fenced := true }
     (s.job? 1).any fun j => decide (j.phase = .saving) && (copyPlumbs s j []).1 && !(saveJob s j).1) = true ∧
    (let s := { imaged .saving (fun j => { j with params := { j.params with saveAddr := 0x6000000000 } }) with
       clearing := [{ job := 1, cells := [11], cairnBase := 32, cairnCount := 16, since := 0, cleared := true, save := true }] }
     (s.job? 1).any fun j => (copyPlumbs s j []).1 && (saveJob s j).1 && (saveJob s j).2.clearing.any fun y =>
       y.job == 1 && y.cleared && y.cells == [11]) = true := by decide +kernel

/-! ### Links, sheets, power, heat -/

/-- `up` with port 0 in service as NEXT. -/
def linked (f : Port → Port := id) : State := { up with ports := [(0, f { role := 1, up := true, lanes := 255, rxSeq := 5, txSeq := 7 })] }

theorem witness_FlitsAreAcceptedAndReplayed :
    let r : RingOut := ⟨0, 1, 11, 0⟩
    let s := { linked with grp := { rings := [r] } }
    let body := List.replicate 240 (0 : Byte)
    let heard (v : State) : State := takeEvent (acceptFlit (takeState v 0 0) 0) 0 0
    let mine (u : State) (y : RingOut) : Bool := y.number == num body 6 2 && y.dir == (u.port 0).role - 1
    let grouped := { linked with sht := { linked.sht with groupActive := true, mask := 3 } }
    (s.port 0).up = true ∧ portUp (injectAll s []) 0 = true ∧ (s.port 0).rxSinceAck < 63 ∧ bits 0 26 25 = 0 ∧
    (heard linked).grp.rings.find? (mine (heard linked)) = none ∧ (heard s).grp.rings.find? (mine (heard s)) = some r ∧
    5 = (s.port 0).rxSeq ∧ 4 ≠ (s.port 0).rxSeq ∧ (s.port 0).nakked = false ∧
    ((linked fun x => { x with nakked := true }).port 0).nakked = true ∧
    neighbourOf up.grp.topology up.grp.ringSize up.sht.member (up.port 1).role = none ∧
    neighbourOf s.grp.topology s.grp.ringSize s.sht.member (s.port 0).role = some 1 ∧ s.sht.groupActive = false ∧
    grouped.sht.groupActive = true ∧ bits 0 5 2 < 10 ∧ 0 % 4 = grouped.sht.tick % 4 ∧ bits 40 5 2 = 10 ∧ bits 1 5 2 < 10 ∧
    1 % 4 = (grouped.sht.tick + 1) % 4 := by decide +kernel

theorem witness_FlitsAreAcceptedAndReplayed_replay :
    let kept (f : Port → Port) : State := linked fun x => f { x with replay := [(3, [0, 0, 9])] }
    let again (v : State) := (v.port 0).replay.dropWhile fun e => e.1 != 3
    let tried (v : State) := if (v.port 0).replaySeq = 3 then (v.port 0).replays else 0
    again linked = [] ∧ again (kept id) ≠ [] ∧ tried (kept id) < 16 ∧
    again (kept fun x => { x with replaySeq := 3, replays := 16 }) ≠ [] ∧ 16 ≤ tried (kept fun x => { x with replaySeq := 3, replays := 16 }) := by
  decide +kernel

theorem witness_PortsTrainAndGroupsForm :
    ((linked fun x => { x with training := true }).port 0).training = true ∧ bits 0xF0 7 4 = 15 ∧ (linked.port 0).up = true ∧
    (bits ((linked.port 0).lanes &&& 0xF0) 7 4 = 15) ∧ reach { up with rst := { up.rst with released := 255 } } 0x200000 ≠ .dead ∧
    datumReach up 5 = true ∧ (run 0 0).jobActive = true ∧ up.jobActive = false ∧ bit (2 ^ 31) 31 = true ∧ rolePort up = [] ∧
    rolePort linked ≠ [] ∧ linked.grp.forming = none ∧
    (let s := { (linked fun x => { x with form := some [0, 0, 2, 0, 0, 0, 0, 0, 0] }) with grp := { forming := some 0 } }
     s.grp.forming = some 0 ∧ (rolePort s).findSome? (fun p => (formCheck s p).map fun k => (p, k)) = some (0, 2)) := by decide +kernel

theorem witness_SheetsTickAtTheirTime :
    (let s := { up with sht := { opened := true, lastDone := some 0 } }
     s.sht.opened = true ∧ s.sht.groupActive = false ∧ s.allDone = true ∧ s.sht.lastDone = some 0 ∧
     s.clk.cycles ≤ max (s.sht.openCycle + s.sht.period) (0 + 64) ∧ s.clk.frac < 40000 ∧ s.pwr.pace < 64) ∧
    (run 0 0).allDone = false ∧ datumReach up 5 = true ∧ (4096 ≤ 8192 ∧ 8192 ≤ 4194304 ∧ 256 ∣ 8192) := by decide +kernel

theorem witness_OverrunsStallAndLeaveTheGroup :
    up.sht.opened = true ∧
    (let v := up.untilCycle (up.sht.openCycle + up.sht.period * (1 + up.sht.limit))
     v.allDone = true) ∧
    (let s := run 0 0
     let v := s.untilCycle (s.sht.openCycle + s.sht.period * (1 + s.sht.limit))
     v.allDone = false ∧ v.sht.groupActive = false ∧ (s.jobs.map (·.id)).Nodup ∧ job 0 3 ∈ s.jobs ∧ (job 0 3).id ≠ 0 ∧
     0 ∈ jobCells (job 0 3) ∧ (s.cell 0).seq.job = 1 ∧ (s.cell 0).seq.done = false) ∧
    (let s := { up with sht := { groupActive := true, doneSent := some 0 } }
     s.sht.doneSent = some 0 ∧ s.sht.groupActive = true ∧ mayTick (agree (s.untilCycle (0 + (s.sht.limit + 4) * s.sht.period))) = false) ∧
    (let s := { up with sht := { up.sht with groupActive := true, doneSent := some 0 }, grp := { level := 0, diam := 0 } }
     mayTick (agree (s.untilCycle (0 + (s.sht.limit + 4) * s.sht.period))) = true) ∧
    (let s := run 0 0
     let j := job 0 3
     s.job? j.id = some j ∧ j.phase = .running ∧ j.ending = none ∧ j.sheet < j.image.sheetCount ∧ yieldTick s 0 j = false ∧ (jobCells j).Nodup) := by
  decide +kernel

theorem witness_PowerEventsTakeEffect :
    (let p : Pwr := { command := some 700, vstoreCmd := some 700, avsFault := true, avsOk := false }
     p.command = some 700 ∧ p.vstoreCmd = some 700 ∧ p.attempts < 2 ∧ p.avsFault = true ∧ p.avsOk = false) ∧
    (let p : Pwr := { command := some 700, attempts := 3, avsOk := false }
     p.avsOk = false ∧ p.command = some 700 ∧ 3 ≤ p.attempts) ∧
    ({ attempts := 2 } : Pwr).attempts = 2 ∧ up.pwr.alertFrom = none ∧ ({ alertFrom := some 5 } : Pwr).alertLong = false ∧
    (let s := { up with pwr := { alertFrom := some 0 }, clk := { cycles := 16 }, regions := [(0, { pw := { gated := false, stretchFrom := some 0 } })] }
     (s.region 0).pw.stretchFrom = some 0 ∧ 6 ≤ (s.region 0).pw.lastCode ∧ 0 + 16 ≤ s.clk.cycles) ∧
    (([(0, 3)] : List (Nat × Nat)).map (·.1)).Nodup ∧ awake up 0 = true ∧
    (let l := List.replicate 15 320
     let s := { up with regions := [(0, { pw := { gated := false, via := [l] } })] }
     (s.region 0).pw.via.getD 0 [] = l ∧ l.length = 15 ∧ 1536 * 16 < 5 * ((l ++ [320]).foldl (· + ·) 0) ∧ s.regionReason 0 = 0) ∧
    up.blockReason 0 = 0 ∧ (up.blockPlan 0).trimFailed = 0 ∧
    (let s := up.updBlockPlan 0 fun p => { p with trimFailed := 2 }
     s.blockReason 0 = 0 ∧ bit (s.blockPlan 0).trimFailed 0 = false ∧ (s.blockPlan 0).trimFailed ≠ 0) := by decide +kernel

theorem witness_TheLedgerGrantsWithinItsRate :
    swf {} up.regions = true ∧ up.pwr.frozen = false ∧ ({ up.thm with stopped := true } : Thm).stopped = true ∧ (run 0 0).cell 0 ≠ {} ∧
    powerHeld { up with rst := { up.rst with units := [{ cls := 0, num := 2, since := 0 }] } } = true ∧
    ({ up.err with fatal := true } : Err).fatal = true ∧ (up.region 0).pw.wake ≠ some 16 ∧
    (let s := { up with regions := [(0, { pw := { wake := some 16 } })] }
     (s.region 0).pw.wake = some 16 ∧ s.clearing = []) := by decide +kernel

theorem witness_HeatIsGovernedAndStopsThePart :
    ((([(0, 440), (1, 80)] : List (Nat × Int)).map (·.1)).Nodup ∧ tripAt 0 ≤ 440) ∧
    (∀ r, 2 ≤ (State.reset.region r).pw.frac ∧ (State.reset.region r).pw.frac ≤ 8) ∧
    (let s := { up with clk := { ps := 10 ^ 11 }, thm := { lastPulse := some (10 ^ 11), interval := 2 * 10 ^ 10 }, timers := [(9, 10 ^ 11)] }
     2000000 ≤ flowNow (s.periodic 9 1000000000) ∧ s.thm.flowDoubt = false) ∧
    (flowNow ((run 0 0).periodic 9 1000000000) < 600000 ∧ (run 0 0).thm.stopped = false ∧ (run 0 0).cell 0 ≠ {}) ∧
    100 ≤ ((up.updStack 3 fun x => { x with temp := 100 }).stack 3).temp ∧
    (let s := { up with thm := { lastPulse := some 0, interval := 5 * 10 ^ 10 } }
     600000 ≤ flowNow (s.periodic 9 1000000000) ∧ flowNow (s.periodic 9 1000000000) ≤ 1200000) ∧
    ({ staircase := some 3 } : Thm).staircase = some 3 ∧
    (let s := { up with clk := { ps := 2 * 10 ^ 13 }, thm := { stopped := true, stopMask := 5, coolFrom := some 0, flowOkFrom := some 0 } }
     datumReach s 7 = true ∧ s.thm.stopped = true ∧ bit s.thm.stopMask 0 = true ∧ bit s.thm.stopMask 2 = true ∧
     bit s.thm.stopMask 3 = false ∧ s.thm.coolFrom = some 0 ∧ s.thm.flowOkFrom = some 0 ∧ 0 + 10000000000000 ≤ s.clk.ps) := by
  refine ⟨by decide, fun r => by rw [show State.reset.region r = {} from rfl]; decide, ?_⟩
  decide +kernel

/-- `up` with stack 3 changed. -/
def stacked (f : StackSt → StackSt) : State := up.updStack 3 f

theorem witness_StacksRefreshPatrolAndRetrain :
    (up.stack 3).trained = true ∧ (up.stackPlan 3).fenced = false ∧ sget 0 (up.stack 3).postponed 7 < 8 ∧ up.hif.d3hot = false ∧
    8 ≤ sget 0 ((stacked fun x => { x with postponed := [(7, 8)] }).stack 3).postponed 7 ∧
    sget 0 (up.stack 3).bad (patrolWord 3 (up.stack 3).patrolPos) = 0 ∧ (up.stack 3).patrolPos + 1 < lapLength 3 ∧
    sget 0 (up.stack 3).postponed (pairOf (blockOfWord (patrolWord 3 (up.stack 3).patrolPos))) < 8 ∧
    (let x := (stacked fun x => { x with patrolPos := lapLength 3 - 1 }).stack 3
     x.trained = true ∧ sget 0 x.bad (patrolWord 3 x.patrolPos) = 0 ∧ x.patrolPos + 1 = lapLength 3) ∧
    (let x := (stacked fun x => { x with bad := [(0, 4)] }).stack 3
     x.trained = true ∧ popcount 36 (sget 0 x.bad (patrolWord 3 x.patrolPos)) = 1) ∧
    (let x := (stacked fun x => { x with bad := [(0, 6)] }).stack 3
     x.trained = true ∧ 2 ≤ popcount 36 (sget 0 x.bad (patrolWord 3 x.patrolPos))) ∧ (up.stack 3).lost = none ∧
    ((stacked fun x => { x with lost := some 0 }).stack 3).lost = some 0 ∧ up.clk.ps ≤ 0 + 10000000000 := by decide +kernel

theorem witness_StashesScrubAndTheSurveyFollows :
    up.goodCell 0 = true ∧ scrubLine up 0 = some (0, false) ∧ (∀ w, w < 8 → sget 0 (up.cell 0).stash.bad (0 * 8 + w) = 0) ∧
    (up.cell 0).stash.marked = 0 ∧
    (let s := { up with cells := [(0, { plumb := { westTest := some 100 } })] }
     s.goodCell 0 = true ∧ (s.cell 0).plumb.westTest = some 100 ∧ (s.cell 0).plumb.eastWait = false ∧ (s.cellPlan 0).westSpares.length < 16 ∧
     ((s.updCellPlan 0 fun p => { p with westSpares := List.range 16 }).cellPlan 0).westSpares.length = 16) ∧
    (let s := { up with cells := [(0, { stash := { bad := [(3, 2)], written } })] }
     lineWritten s 0 0 = true ∧ scrubLine s 0 = some (0, false) ∧ popcount 72 (sget 0 (s.cell 0).stash.bad (0 * 8 + 3)) = 1 ∧
     (∀ v, v < 8 → v ≠ 3 → sget 0 (s.cell 0).stash.bad (0 * 8 + v) = 0) ∧ sget 0 (s.cell 0).stash.badChecks (0 / 128) = 0) ∧
    up.rst.locked = false ∧ reach up (cellBase 0 + 0x290) ≠ .dead ∧ up.up 2 = true ∧ up.inReset 0 6 = false ∧ bit (2 ^ 31) 31 = true ∧
    bits (2 ^ 31) 14 13 = 0 ∧ validCell (2 ^ 31 % 8192) = true ∧ up.svy.request = none ∧ up.cellReason 0 = 0 ∧ kindOf 0 ≠ .S ∧
    ((run 0 0).jobs.any fun j => decide (j.phase ≠ .claiming) && (jobCells j).contains 0) = true ∧
    (up.jobs.any fun j => decide (j.phase ≠ .claiming) && (jobCells j).contains 0) = false ∧
    (let slot := programSlot 3 1 [] true { data := some {} }
     let s := { up with svy := { building := some {} }, keep := { surveyA := slot } }
     s.svy.building = some {} ∧ s.svy.committed = false ∧ slotValid s.keep.surveyA = true ∧ newestIsB s.keep.surveyA s.keep.surveyB = false ∧
     newestIsB {} slot = true) := by decide +kernel

/-- The scrubber's other cases, those of a bond test, and the levels of a fence request. -/
theorem witness_StashesScrubAndTheSurveyFollows_more :
    (let s := { up with cells := [(0, { stash := { scrubPos := 6144, lapCorrected := 2 } })] }
     scrubLine s 0 = some (0, true) ∧ (s.cell 0).stash.marked = 0 ∧ (∀ w, w < 8 → sget 0 (s.cell 0).stash.bad (0 * 8 + w) = 0)) ∧
    (scrubLine up 0 = some (0, false) ∧ lineWritten up 0 0 = false) ∧
    (let s := (run 0 0).updStash 0 fun x => { x with bad := [(3, 3)] }
     s.goodCell 0 = true ∧ scrubLine s 0 = some (0, false) ∧ lineWritten s 0 0 = true ∧ 2 ≤ popcount 72 (sget 0 (s.cell 0).stash.bad (0 * 8 + 3)) ∧
     (∀ v, v < 8 → v ≠ 3 → sget 0 (s.cell 0).stash.bad (0 * 8 + v) = 0) ∧ s.heldBy 0 ≠ []) ∧
    (up.updCellPlan 0 fun p => { p with reason := 4 }).goodCell 0 = false ∧
    (let s := { up with cells := [(0, { plumb := { westTest := some 100, eastWait := true } })] }
     (s.cell 0).plumb.westTest = some 100 ∧ (s.cell 0).plumb.eastWait = true ∧ (s.cell 0).plumb.eastTest = none ∧
     ([20, 600].filter fun b => decide (b < 560) && !(s.cellPlan 0).westSpares.contains b).dedup.length ≤ 16 - (s.cellPlan 0).westSpares.length) ∧
    (let p : CellPlan := { westSpares := List.range 16, eastGone := true }
     16 - p.westSpares.length < ([20].filter fun b => decide (b < 560) && !p.westSpares.contains b).dedup.length ∧ p.eastGone = true) ∧
    namesUnit ((2 ^ 31 + 2 ^ 13) % 8192) (bits (2 ^ 31 + 2 ^ 13) 14 13) = true ∧ bits (2 ^ 31 + 2 ^ 13) 14 13 = 1 ∧
    namesUnit ((2 ^ 31 + 2 ^ 14) % 8192) (bits (2 ^ 31 + 2 ^ 14) 14 13) = true ∧ bits (2 ^ 31 + 2 ^ 14) 14 13 = 2 ∧
    up.regionReason 0 = 0 ∧ up.blockReason 0 = 0 ∧ up.cellReason 11 = 0 ∧ kindOf 11 = .S ∧ up.jobs = [] := by decide +kernel

/-! ### Errors, registers, reset, security, the side-band -/

/-- An error record of no account. -/
def note : ErrRec := { code := 0x7202, sev := 1 }

theorem witness_ErrorsAreHandledQueuedAndRecorded :
    regionUp up 0 = true ∧ up.regionReason 0 = 0 ∧ up.blockReason 0 = 0 ∧ (up.jobs.map (·.id)).Nodup ∧
    (let s := { up with err := { chipQ := [note], enable := true, sizeLog2 := 4, staging := [note] } }
     s.hif.linkUp = true ∧ s.hif.txRefused = false ∧ s.err.chipQ = note :: [] ∧ s.err.chipWait = [] ∧ s.err.staging.length < 512 ∧
     s.err.enable = true ∧ note.sbOnly = false ∧ s.err.chipQ.length < 64 ∧ s.err.staging = note :: [] ∧
     (s.err.pi + 2 ^ 32 - s.err.ci) % 2 ^ 32 < 2 ^ s.err.sizeLog2) ∧
    (let w : ErrRec := { note with level := 3 }
     let s := { up with err := { chipQ := [note], chipWait := [w], enable := true } }
     s.err.chipWait = w :: [] ∧ w.level = 3 ∧ ([] : List ErrRec).length < 64) ∧
    (let e : Err := { regionQ := [(0, [note])], blockQ := [(0, [note])], cellHeld := [(0, [note])], slots := [⟨0, 0, 0x7202, 5⟩] }
     sget [] e.regionQ (regionOf 0) = note :: [] ∧ sget [] e.blockQ (blockIndex 0) = note :: [] ∧ sget [] e.cellHeld 0 = note :: [] ∧
     (sget ([] : List ErrRec) e.regionQ (regionOf 0)).length < 8 ∧ (sget ([] : List ErrRec) e.blockQ (blockIndex 0)).length < 8 ∧
     e.slots = ⟨0, 0, 0x7202, 5⟩ :: []) ∧
    (let s := { up with keep := { historyQ := [note] } }
     s.keep.historyQ = note :: [] ∧ s.keep.history.length < 568 * 64 ∧ s.rst.ready = true ∧ s.keep.history.length + 3 ≤ 568 * 64) := by
  decide +kernel

theorem witness_RegistersReadAndWriteWhatIsReached :
    reach up 0xC0000 = .dead ∧ reach { up with regions := [(1, { pw := { gated := true } })] } (regionBase 1 + 0x10000) = .gated ∧ reach up 0x14 = .open_ ∧ counterLevel (0x14 - 8) = none ∧
    up.up 0 = true ∧ counterLevel 0x91000 = some 3 ∧ reach up 0x91000 = .open_ ∧ selAllowed 0x91000 (0x301 % 4096) 3 false = true ∧
    selAllowed 0x91000 (0xFFF % 4096) 3 false = false ∧ hiddenCounter 0x91000 false = false ∧ up.hif.d3hot ≠ true ∧
    ({ up.err with enable := true } : Err).enable = true ∧ swf {} up.hif.rings = true ∧ (up.ring 0).enable = true := by decide +kernel

theorem witness_TracesAndInterruptsLeave :
    (let s := { up with regions := [(0, { trace := [List.replicate 32 1], trcCtrl := 1, pw := { gated := false } })], mon := { trcEnable := true } }
     (s.region 0).trace = List.replicate 32 1 :: [] ∧ (s.region 0).trcCtrl % 4 = 1 ∧ (s.region 0).trace ≠ [] ∧ (up.region 0).trace = [] ∧
     s.mon.trcEnable = true ∧ (s.mon.trcPi + 2 ^ 32 - s.mon.trcCi) % 2 ^ 32 < 2 ^ s.mon.trcSize ∧ s.hif.linkUp = true) ∧
    (let s := { up with regions := [(0, { trcCtrl := 2, pw := { gated := false } })] }
     (s.region 0).trcCtrl % 4 = 2 ∧ reach s (regionBase 0 + 0xA00) ≠ .dead) ∧
    (let b : SideBand := { ibiEnable := true, dynAddr := some 8, ibiPend := 1, ibiLast := [(0, 5)] }
     b.ibiEnable = true ∧ b.dynAddr = some 8 ∧ bit b.ibiPend 0 = true ∧ sget 0 b.ibiLast 0 ≠ 0) := by decide +kernel

theorem witness_PartResetsGiveTheirState :
    ({ up.pins with vaux := false } : Pins).vaux = false ∧ up.pins.vaux = true ∧
    (let s := { State.reset with rst := { d0Since := some 0 } }
     s.rst.d0Since = some 0 ∧ s.pins.vaux = true ∧ s.pins.resetN = true ∧ s.pins.refclk = true) ∧
    (let s := { State.reset with rst := { released := 3, requested := 14, heldFrom := some 0 } }
     (∀ k, 1 ≤ k → k < 2 → s.up k = true) ∧ s.up 2 = false ∧ bit s.rst.requested 2 = true ∧ s.rst.heldFrom = some 0) ∧
    up.up 0 = true ∧ bit up.pins.pg 3 = true ∧ up.up 7 = true ∧ pllOf 7 = some 2 := by
  refine ⟨by decide, by decide, by decide, ⟨fun k h1 h2 => ?_, by decide⟩, by decide⟩
  obtain rfl : k = 1 := by omega
  decide

theorem witness_SoftwareResetsNeedIdleUnits :
    up.rst.ready = true ∧ up.inReset 7 0 = false ∧ (up.heldBy 0).isEmpty = true ∧ (run 0 0).inReset 7 0 = false ∧
    ((run 0 0).heldBy 0).isEmpty = false ∧ State.reset.rst.ready = false ∧ up.goodCell 0 = true ∧ up.regionReason 0 = 0 ∧
    up.blockReason 0 = 0 ∧ up.inReset 0 1 = false ∧ datumAccepts up 1 = true ∧ (!up.jobActive) = true ∧ (!up.sht.enable) = true ∧
    (let s := { up with rst := { up.rst with units := [{ cls := 7, num := 0, since := 5 }] } }
     (s.rst.units.filter fun u => !u.dead).find? (fun u => !u.held) = some { cls := 7, num := 0, since := 5 } ∧ s.inReset 7 0 = true) ∧
    (let s := { up with rst := { up.rst with units := [{ cls := 7, num := 0, since := 5, held := true }] } }
     (∀ x ∈ s.rst.units.filter fun u => !u.dead, x.held = true) ∧
     (s.rst.units.filter fun u => !u.dead).head? = some { cls := 7, num := 0, since := 5, held := true }) ∧
    (up.stackPlan 3).fenced = false ∧ ((up.updStackPlan 3 fun p => { p with fenced := true }).stackPlan 3).fenced = true := by decide +kernel

/-- Bring-up with `n` steps done. -/
def brought (n : Nat) : State := { State.reset with rst := { released := 255, done := n } }

theorem witness_BringUpStepsDoTheirWork :
    (∀ n, n < 9 → let s := brought n
      s.up 0 = true ∧ s.rst.railLost = false ∧ s.rst.ready = false ∧ s.rst.owner = false ∧ s.rst.step = none ∧ s.rst.done + 1 = n + 1) ∧
    (brought 0).pins.pg = 31 ∧ slotFault 1 (brought 0).keep.test = 0 ∧ slotFault 1 { NorSlot.test with commit := 0xFF } ≠ 0 ∧
    (let p : CellPlan := (brought 3).cellPlan 0
     let q : CellPlan := { eastSpares := List.range 16, westSpares := List.range 16 }
     let bonds (spared : List Nat) : List Nat := ([20].filter fun b => decide (b < 560) && !spared.contains b).dedup
     (brought 3).goodCell 0 = true ∧ p.westGone = false ∧ p.eastGone = false ∧ (bonds p.westSpares).length ≤ 16 - p.westSpares.length ∧
     (bonds p.eastSpares).length ≤ 16 - p.eastSpares.length ∧ 16 - q.westSpares.length < (bonds q.westSpares).length ∧
     16 - q.eastSpares.length < (bonds q.eastSpares).length) ∧
    ((brought 2).stackPlan 3).fenced = false ∧ ({ fenced := true } : StackPlan).fenced = true ∧ (brought 6).rst.memFast = false ∧
    (brought 3).regionReason 0 = 0 ∧ ((brought 3).regionPlan 0).capped = false ∧
    (∀ l, l < 4 → l ∈ [0, 1, 2, 3]) ∧
    (let r : Rst := { released := 255, step := some (5, 0), worked := true }
     r.step = some (5, 0) ∧ r.worked = true ∧ r.stepFail = 0 ∧ bit r.released 4 = true ∧ bit r.released 6 = true) ∧
    (let f : LinkFinding := { port := 0, lanes := [0, 1, 2, 3], serial := 5, partnerPort := 1, full := false }
     let r : Rst := { released := 255, step := some (6, 0), worked := true, linkFind := [f] }
     r.step = some (6, 0) ∧ r.worked = true ∧ r.stepFail = 0 ∧ bit r.released 7 = true ∧ r.linkFind = [f] ∧ f.port < 8) ∧
    ({ step := some (5, 0), stepFail := 8 } : Rst).stepFail ≠ 0 := by decide +kernel

/-- An image of the boot ROM's format with 256 bytes of body, all bytes of signature 0 (R678, R679). -/
def fwImage : Bytes :=
  [0x45, 0x42, 0x46, 0x57] ++ leBytes 4 1 ++ leBytes 4 3 ++ leBytes 4 256 ++ leBytes 4 7 ++ List.replicate (492 + 29792) 0

theorem witness_ImagesAreVerifiedAndFusesBlown :
    (let s := brought 1
     s.up 0 = true ∧ s.rst.owner = false ∧ s.sec.windowShut = false ∧ 0 + ([1, 2] : Bytes).length ≤ 16777216 ∧ s.inReset 0 8 = false ∧
     s.sec.fuseFault = false ∧ s.rst.railLost = false ∧ s.rst.ready = false ∧ s.rst.step = none ∧ s.rst.done = 1) ∧
    badHeaderWord fwImage = none ∧ fwImage.length = 256 + num fwImage 12 4 + 29792 ∧
    ({ length := 30304, staged := true } : Sec).staged = true ∧ ({ length := 30304, staged := true } : Sec).length ≠ 0 ∧
    (let s := { up with sec := { svn := 3, keyIndex := 1 } }
     s.rst.ready = true ∧ s.inReset 0 8 = false ∧ s.keep.rollback ≠ s.sec.svn ∧ s.sec.fuseOp = none ∧ bit (2 ^ 31 + 2) 31 = true ∧
     (2 ^ 31 + 2) % 4 ≠ s.sec.keyIndex ∧ bit s.keep.revoked ((2 ^ 31 + 2) % 4) = false ∧ (2 ^ 31 + 1) % 4 = s.sec.keyIndex) ∧
    (let s := { up with sec := { signQ := [b2n true], doe := { signing := some [1], deferred := true } } }
     s.sec.signQ = b2n true :: [] ∧ (conn s true).signing = some [1] ∧ (conn s true).deferred = true) := by decide +kernel

theorem witness_StepsKeepSecureBootAndFusesOnlyRise :
    SecureBoot { brought 1 with pending := [.clocks true] } ∧ ∃ t, step { brought 1 with pending := [.clocks true] } = .next t :=
  ⟨⟨fun h => h.elim (fun h => absurd h (by decide)) fun h => absurd h.1 (by decide), fun h => absurd h (by decide),
    fun h => absurd h (by decide), fun h => absurd h (by decide), fun _ _ h => (nomatch (h : none = some _)),
    fun _ _ h => (nomatch (h : none = some _))⟩, _, rfl⟩

theorem witness_SpdmRequestsAreAnswered :
    (let x : Spdm := { transfer := 42, version := 0x12, caps := true, algs := true }
     let s := { up with sec := { fwRunning := true, doe := x } }
     s.up 0 = true ∧ s.sec.fwRunning = true ∧ (conn s true).transfer ≠ 0 ∧ (conn s true).transfer < (List.replicate 50 (0 : Byte)).length ∧
     (conn s true).caps = true ∧ (conn s true).algs = true ∧ num [0x12, 0x81, 0, 0] 0 1 = (conn s true).version ∧ (conn s true).signing = none ∧
     s.sec.signQ = [] ∧ (conn s false).algs = false ∧ (conn s false).caps = false) ∧
    up.sec.fwRunning = false ∧ num [0x10, 0x84, 0, 0] 1 1 = 0x84 ∧
    (let q : Bytes := [0x12, 0xE1, 0, 0] ++ List.replicate 8 0 ++ leBytes 4 4096 ++ leBytes 4 4096
     num q 1 1 = 0xE1 ∧ num q 0 1 = 0x12 ∧ 20 ≤ q.length ∧ 42 ≤ num q 12 4) ∧
    (num [0x12, 0x82, 0, 0, 0, 0, 8, 0] 2 1 % 16 = 0 ∧ num [0x12, 0x82, 0, 0, 0, 0, 8, 0] 4 2 < (chainBytes up).length ∧
     num [0x12, 0x82, 1, 0, 0, 0, 8, 0] 2 1 % 16 ≠ 0) ∧
    (num [0x12, 0xE0, 1, 4] 1 1 = 0xE0 ∧ num [0x12, 0xE0, 1, 4] 3 1 = 4 ∧ bit (num [0x12, 0xE0, 1, 4] 2 1) 0 = true ∧
     bit (num [0x12, 0xE0, 0, 4] 2 1) 0 = false) ∧
    (num [0x12, 0x85, 0, 0, 0, 0, 0, 0] 4 2 = 0 ∧ bit (num [0x12, 0x85, 0, 0, 0, 0, 0, 0] 2 1) 0 = false ∧
     bit (num [0x12, 0x85, 1, 0, 0, 0, 0, 0] 2 1) 0 = true) ∧
    (let x : Spdm := { version := 0x12, algs := true, caps := true }
     let s := { up with sec := { fwRunning := true, doe := x, signQ := [0] } }
     (conn s true).signing = none ∧ s.sec.signQ ≠ []) ∧
    (let x : Spdm := { chunkOut := some [1], token := 3, ready := some [2] }
     x.chunkOut = some [1] ∧ num [0x12, 0x86, 0, 3, 0, 0] 3 1 = x.token ∧ num [0x12, 0x86, 0, 3, 0, 0] 4 2 = x.chunkSeq ∧
     num [0x12, 0xFF, 0, 3] 3 1 = x.token ∧ x.ready = some [2]) := by decide +kernel

/-- A measurement that every part has. -/
theorem witness_SpdmRequestsAreAnswered_measured : ∃ d, measurement up 4 = some d := ⟨_, rfl⟩

theorem witness_StavsanMessagesAreCarriedOut :
    up.up 0 = true ∧ up.rst.owner = false ∧
    (let s := { brought 1 with rst := { (brought 1).rst with owner := true } }
     s.up 0 = true ∧ s.rst.owner = true ∧ s.rst.railLost = false ∧ s.rst.ready = false ∧ s.rst.step = none ∧ s.sec.windowShut = false ∧
     s.inReset 0 8 = false ∧ 2 = s.rst.done + 1) ∧
    (4 ≤ ([1, 2, 3, 4] : Bytes).length ∧ 0 + ([1, 2, 3, 4] : Bytes).length ≤ 16777216) ∧ writePermitted up 0x14 (5 % 2 ^ 32) = none ∧
    (let s := { up with sec := { svn := 3 } }
     s.rst.ready = true ∧ s.inReset 0 8 = false ∧ s.keep.rollback ≠ s.sec.svn ∧ s.sec.fuseOp = none ∧ bit (2 ^ 31) 31 = true) ∧
    reach up 0x60004 ≠ .dead ∧ 600 ≤ up.grade.pkgWatts ∧ reach up 0x7000C ≠ .dead ∧ up.sb.pace = [] ∧
    (let b : SideBand := { pace := [⟨0, 63, 40, 40, false, 7⟩] }
     b.pace = ⟨0, 63, 40, 40, false, 7⟩ :: [] ∧ 7 < 2 ^ 31 ∧ 3 ≤ 7) := by decide +kernel

theorem witness_TheSideBandPortAnswers :
    up.up 0 = true ∧ up.sb.dynAddr = none ∧ ({ dynAddr := some 8 } : SideBand).dynAddr = some 8 ∧ 0x4C + up.pins.straps % 4 = 0x4C ∧
    num [0, 0x80, 1, 0, 9] 3 1 % 4 < 2 ∧ num [0, 0x80, 1, 0, 9] 4 1 = 9 ∧ num [0, 0x80, 4, 0x7F] 3 1 ∈ [0x00, 0x01, 0x05, 0x7F, 0xFF] ∧
    num [0x80, 2, 0x51, 1, 0, 0, 0] 3 4 = 1 ∧ 1 ≤ numericSensors.length ∧ num [0x80, 2, 0x11, 0, 1] 3 2 ∈ numericSensors ∧
    (({ readings := [(0x100, (0, 5))] } : SideBand).readings.find? fun e => e.1 == 0x100 && decide (up.clk.ps < e.2.1 + 1000000000)) = some (0x100, (0, 5)) ∧
    (up.sb.readings.find? fun e => e.1 == 0x100 && decide (up.clk.ps < e.2.1 + 1000000000)) = none ∧
    num [0x80, 2, 0x21, 1, 6] 3 2 = 0x601 ∧ num [0x80, 2, 0x21, 0, 6] 3 2 = 0x600 ∧ up.err.alarms = [] ∧
    ({ alarms := [(3, { set := true })] } : Err).alarms ≠ [] := by decide +kernel

theorem witness_AnEmptyQueueLetsTenNanosecondsPass : State.reset.pending = [] := rfl

theorem witness_AccumulatingAddsOrReplaces : sget 0 (up.cell 0).mm.accBad 256 = 0 := rfl

theorem witness_IssueMovesTheStreamOn : ready 0x10 11 (run 11 (word 0x10 (ext 2) 0 5)) = true := by decide +kernel

/-! ### The spec's worked examples -/

/-- The MM.SWEEP of the tile contract's worked example: its fields, and no fault in its encoding. -/
theorem test_worked_sweep_word :
    let i := readIns 0x22009B00190000083000C01020000001
    let o := operands i ((opInfo 0x22).getD { op := 0 })
    i.op = 0x22 ∧ i.pred = 0 ∧ i.pneg = false ∧ i.shape = 0 ∧ i.a = 9 ∧ i.b = 11 ∧ encodingFault i .M false = none ∧
    (o.1.any fun x => x.space == 1 && x.extEn && x.ext == 2 && x.count == 0 && x.first == 8) = true ∧
    (o.2.1.any fun x => x.space == 3 && x.rows == 48 && x.start == 1024) = true ∧
    (o.2.2.any fun x => x.space == 2 && x.sparsity == 0 && x.half == 1) = true := by decide +kernel

/-- A word of opcode 0x01 on a cell that is not the lead S cell faults; so does one on an M cell (R187, checks 1 to 3). -/
theorem test_encoding_checks :
    encodingFault (readIns (word 0x01 0 0 5)) .S false = some 0x0103 ∧ encodingFault (readIns (word 0x22 0 0 0)) .V false = some 0x0102 ∧
    encodingFault (readIns (word 0xFF 0 0 0)) .M false = some 0x0101 := by decide +kernel

/-- 0.3 in every float format (the example of R295's section). -/
theorem test_worked_conversions :
    [1, 2, 3, 4, 5, 6, 7].map (fun f => (encodeElem f false none (ofF32 0x3E99999A)).1) = [0x3E9A, 0x34CD, 0x2A, 0x35, 0x05, 0x02, 0x1] ∧
    (encodeElem 3 false none (ofF32 0x43E60000)).1 = 0x7E ∧ (encodeElem 3 false none (ofF32 0x43EB0000)).1 = 0x7F ∧
    (encodeElem 3 true none (ofF32 0x43EB0000)).1 = 0x7E := by decide +kernel

/-- Stochastic rounding of 0.3 to E4M3 with the two draws of the example. -/
theorem test_worked_stochastic :
    (encodeElem 3 false (some 0x80000001) (ofF32 0x3E99999A)).1 = 0x2A ∧ (encodeElem 3 false (some 0x12345678) (ofF32 0x3E99999A)).1 = 0x29 := by
  decide +kernel

/-- The ES4 tile of the example: the two outliers, their neighbours, and the escapes that match COUNT, and with COUNT 1 do not. -/
def es4 (count : Byte) : Bytes :=
  [0, 0, 0x83] ++ List.replicate 97 0 ++ [0xE8] ++ List.replicate 27 0 ++ [0x38, 0x41, 0xA2, 0xC1] ++ List.replicate 28 0 ++ [count] ++ List.replicate 31 0

theorem test_worked_es4 :
    let i := readIns (word 0x22 0 0 0 0 3 14)
    let weight (col row : Nat) : Val := (((latch i 0 (es4 2) none).cols.getD col []).getD row (0, .zero)).2
    (es4 2).length = 192 ∧ (wParts 3 14 0 0 0).len = 192 ∧ (wParts 3 14 0 0 0).side = 128 ∧ escapeFault i 0 (es4 2) = none ∧
    escapeFault i 0 (es4 1) = some [0, 2, 1] ∧ toF32 (weight 5 0) = 0x41380000 ∧ toF32 (weight 8 12) = 0xC1A20000 ∧
    toF32 (weight 4 0) = 0x40400000 ∧ toF32 (weight 9 12) = 0xC0000000 := by decide +kernel

/-- The eight members of the reduction example: virtual regions 2 and 19, blocks 0 and 1, M0 and M1; the total is 3.0. -/
theorem test_worked_fold :
    let part (r b m v : Nat) : Contribution := ⟨0, leBytes 4 v, 1, 0, r * 256 + b * 16 + m, [], 0⟩
    let ps := [part 2 0 0 0x4B800000, part 2 0 1 0x3F800000, part 2 1 0 0x3F800000, part 2 1 1 0,
      part 19 0 0 0xCB800000, part 19 0 1 0, part 19 1 0 0x40400000, part 19 1 1 0]
    (foldWords false ([2, 19].map fun r => (regionSum false ps r).1)).1 = [0x40400000] := by decide +kernel

/-- The tree of the decoding example: its mask words, and what its acceptance vector reads. -/
theorem test_worked_tree :
    (List.range 6).map (fun i => num (treeMask tree) (4 * i) 4) = [0x01, 0x03, 0x07, 0x09, 0x19, 0x27] ∧
    num (acceptance tree) 0 4 = 0x25 ∧ num (acceptance tree) 4 4 = 0x103 ∧ num (acceptance tree) 8 4 = 0x17E1 ∧
    num (acceptance tree) 12 4 = 0x19 ∧ num (acceptance tree) 16 4 = 3 := by decide +kernel

/-- The key of position 6,290 for layer 10, head 2, dimension 0 lies in the tile at page byte 0xA_8800. -/
theorem test_worked_key_address :
    kvTile ⟨38, 0, 0, 24, 4, 128, 3, 6, 0, 0⟩ ⟨0, 6272, 0x4B000000, 64, 1⟩ 10 2 false 6290 0 = 0x4B0A8800 := by decide

/-- Element (3, 10) of a 16-bit tile, at bytes 116 and 117, is delivered at bytes 326 and 327 (R378). -/
theorem test_worked_transpose :
    slice (transposeTiles 2 (List.replicate 116 0 ++ [1, 2] ++ List.replicate 394 0)) 326 2 = [1, 2] := by decide +kernel

/-- Device address 0x0040_0000_0000 lies in stack 8 at 64 GiB (R406). -/
theorem test_worked_plotting_address : resolve State.reset 0x4000000000 = some (8, 64 * 2 ^ 30) := by decide +kernel

/-- With T_L1 at 90.0 °C, T_L3 at 84.0 °C and 20 W in the store die, T_est is 90.3 °C; a pair at 83.0 °C counts as low (R591, R592). -/
theorem test_worked_store_estimate :
    let s : State := { up with
      thm := { reading := [(0, 360), (1, 360), (64, 336), (65, 336), (128, 332), (129, 332)] }, columns := [(0, { lines := 5833334 })] }
    ((storeEstimate 10000000 s 0).column 0).tEst / 100000 = 903 ∧ ((storeEstimate 10000000 s 0).column 0).estRun = 1 := by decide +kernel

/-- The survey entries of the example: block L-03-09 fenced for reason 8, cell L-03-04-M2 for reason 4, L-03-06-M1 with three banks. -/
theorem test_worked_survey_entries :
    let t : State := { up with plan := {
      blocks := [(45, { reason := 8 })], cells := [(834, { reason := 4 }), (865, { banksGone := 8 })] } }
    bits (num (regionEntry t 3) 0 4) 19 8 = 0xDFF ∧ bits (num (blockEntry t 45) 0 4) 7 4 = 8 ∧ bits (num (blockEntry t 40) 0 4) 19 8 = 0xFFB ∧
    bits (num (cellEntry t 834) 0 4) 7 4 = 4 ∧ bits (num (cellEntry t 865) 0 4) 11 8 = 7 := by decide +kernel

/-- The doorbell of the host-interface example: SQ_PI 257, CQ_CI 254; the first fetch takes count 254 from slot 254. -/
theorem test_worked_doorbell :
    let s := { up with hif := { up.hif with rings := [(5,
      { enable := true, interactive := true, state := 1, sizeLog2 := 8, sqCi := 254, cqPi := 254, sqPi := 254, cqCi := 254 })] } }
    (match exec (.doorbell 5 0 ⟨true, (leBytes 8 0x000000FE00000101)⟩) s with
     | .next t => (t.ring 5).sqPi == 257 && (t.ring 5).cqCi == 254 && fetchRing t == some 5
     | _ => false) = true := by decide +kernel

/-- CRC-32C's check value for "123456789" (the polynomial's published one). -/
theorem test_crc32c : crc32c [0x31, 0x32, 0x33, 0x34, 0x35, 0x36, 0x37, 0x38, 0x39] = 0xE3069283 := by decide +kernel

/-- The published values of SHA3-384 and SHAKE256 of the empty message (FIPS 202): their first bytes. -/
theorem test_hashes :
    slice (sha3Bytes []) 0 8 = [0x0C, 0x63, 0xA7, 0x5B, 0x84, 0x5E, 0x4F, 0x7D] ∧
    slice (shake256 [] 8) 0 8 = [0x46, 0xB9, 0xDD, 0x2B, 0x0B, 0xA8, 0x8D, 0x13] := by decide +kernel

/-- What PDRs say of a region sensor, the flow and the setpoint: quarter degrees, hundredths of a litre a minute, millivolts (R702). -/
theorem test_sensor_units :
    sensorUnit 0x100 = (2, 0, 0, 0x3E800000) ∧ sensorUnit 0x1D2 = (34, 0, 4, 0x3C23D70A) ∧ sensorUnit 0x204 = (5, 0xFD, 0, 0x3F800000) := by
  decide

/-- No table word spells a command, and the queue stays as it is. -/
theorem test_no_table_words : decodeTableWord 128 0x22 = none ∧ (State.reset.withFetchWord 32 5).pending = [] := ⟨rfl, rfl⟩

/-- The front command runs, and the one behind it stays. -/
theorem test_step_takes_the_front :
    step { up with pending := [.pcieHotReset, .sheetStall] } = exec .pcieHotReset { up with pending := [.sheetStall] } := rfl

/-! ### Commands that cannot arrive -/

/-- A cell ID out of range, one whose block field names no block, one whose cell field names no cell; a well-formed command. -/
theorem test_wf_cells :
    WellFormed (.sheetEnd 8192) = false ∧ WellFormed (.sheetEnd 0x0C0) = false ∧ WellFormed (.sheetEnd 0x00C) = false ∧
    WellFormed (.sheetEnd 0x1FBB) = true := by decide

/-- Physical faults of units, words and masks that do not exist. -/
theorem test_wf_phys :
    ([.stashFlip 12 0 0 1, .stashFlip 0 6144 0 1, .stashFlip 0 0 8 1, .stashFlip 0 0 0 (2 ^ 72), .stashCheckFlip 12 0 1, .stashCheckFlip 0 96 1,
      .stashCheckFlip 0 0 (2 ^ 32), .stashCheckBits 12 0 1, .stashCheckBits 0 48 1,
      .stashCheckBits 0 0 (2 ^ 72), .memCheckBits 12 0 1, .memCheckBits 0 (2 ^ 25) 1, .memCheckBits 0 0 (2 ^ 36), .memFlip 12 0 1, .memFlip 0 (2 ^ 37) 1, .memFlip 0 0 (2 ^ 36),
      .memCheckFlip 12 0 1, .memCheckFlip 0 (2 ^ 25) 1, .memCheckFlip 0 0 (2 ^ 32), .cacheFlip 12 0 0 1, .cacheFlip 0 (2 ^ 25) 0 1,
      .cacheFlip 0 0 512 1, .cacheFlip 0 0 0 (2 ^ 72), .accFlip 12 0 0 1, .accFlip 0 64 0 1, .accFlip 0 0 256 1, .accFlip 0 0 0 (2 ^ 39),
      .bufFlip 12 true 0 1, .bufFlip 0 true 8192 1, .bufFlip 0 true 0 (2 ^ 72), .cairnFlip 4096 0 1, .cairnFlip 0 33 1, .cairnFlip 0 0 (2 ^ 39),
      .netCorrected 32 1, .plumb 12 true 0 true 1 1, .plumb 0 true 4 true 1 1, .plumb 0 true 0 true (2 ^ 136) 1, .plumb 0 true 0 true 1 (2 ^ 136),
      .router 32 0, .routerState 32 0, .adder true 32 0 true, .adder false 384 0 true, .array 0 17 1 true, .duplicate 0 16 0 true,
      .duplicate 0 0 16 true, .plotUnit 4096] : List Phys).all (fun p => !physOk p && !WellFormed (.tick [p])) = true ∧
    ([.lineCrc 3, .duplicate 0 15 15 true, .proof 0 true, .txRefused, .router 31 0, .adder false 383 0 true, .plumb 0 true 3 false 1 0] : List Phys).all physOk = true := by
  decide +kernel

/-- Unit numbers out of range. -/
theorem test_wf_units :
    ([.cairnSignalArrival 4096 0 [], .cairnSignalArrival 0 33 [], .plotFence 12 1, .plotFence 8 65536, .bondTestEnd 0 true [560],
      .contextClearDone 65536, .clearTimeout 65536, .preemptSaveDone 65536 [], .restoreDone 65536 [], .regionWakeDone 32, .doorbell 64 0 ⟨true, []⟩,
      .doorbell 0 4096 ⟨true, []⟩, .descriptorFetch (some [1]), .descriptorBegin 64 none [], .nop 64 [], .jobStart 64 none none [],
      .jobStart 0 (some [1]) none [], .jobPrepareDone 65536 [], .copy 64 [], .copyPieceDone 16 none [], .plot 64 [], .table 64 none [],
      .fenceRing 64 [], .fenceJob 64 [], .fencePlot 64 [], .waitTimeout 64, .msixModTimeout 2048, .ringReset 64, .ringResetDone 64,
      .form 8 ⟨0, []⟩, .form 0 ⟨(2 ^ 64), []⟩, .form 0 ⟨0, (List.replicate 241 0)⟩, .ack 8 ⟨0, 0⟩ 0, .ack 0 ⟨0, 4096⟩ 0, .nak 8 ⟨0, 0⟩, .nak 0 ⟨0, 4096⟩, .controlNop 8 0, .twinCheck 8 0 [], .ringDone 8 0 [], .eq 8 0 [],
      .headFlit 8 0 [], .dataFlit 8 0 [] [], .idleFlit 8 0, .linkPortDown 8 0, .linkRetrain 8 0, .linkRetrain 0 8, .portRetrain 8,
      .linkTrainingDone 8 0 true, .linkTrainingDone 0 256 true, .flitDiscard ⟨8, 0, 0, 0, 0, 0⟩,
      .flitDiscard ⟨0, 4096, 0, 0, 0, 0⟩, .flitDiscard ⟨0, 0, 0, 0, (2 ^ 64), 0⟩] : List Instr).all (fun i => !WellFormed i) = true := by
  decide +kernel

theorem test_wf_more_units :
    ([.ledgerSlot [⟨32, 0, 0, []⟩] none, .ledgerSlot [] (some 32), .avsAck 2, .avsWriteTimeout 2 0, .trimCellFault 384 0, .trimCellFault 0 8,
      .sensorSample [(176, 0)], .refresh 12 0 true, .refresh 0 4128 true, .stackTempReadout 12 0, .patrolRead 12 [], .stackTrainingLost 12,
      .stackFenced 12, .stackRetrainDone 12, .plotSequenceStart 12, .plotStrokeEnd 12 [], .plotSequenceComplete 12, .regionCtrlFault 32,
      .blockErrFault 384, .regionErrFault 32, .errorRecordAccepted 4 0, .errorRecordAccepted 0 65536, .traceRingWrite 32 true, .drain 32,
      .ibiHoldoffExpiry 3, .railLost 5, .clockLost 8, .regionReset 32, .blockReset 32 0, .blockReset 0 12, .cellReset 12, .trainMem true [12] [] [],
      .scrubRead 12 [], .stsFlipArm 12] : List Instr).all (fun i => !WellFormed i) = true := by decide +kernel

/-- Values and addresses that do not fit their fields. -/
theorem test_wf_values :
    ([.hifJobAbort (2 ^ 32), .svyFenceReq (2 ^ 32), .shtPeriodWrite (2 ^ 32), .shtOverrunLimitWrite (2 ^ 32), .groupFormation (2 ^ 32),
      .ecrcMismatch (2 ^ 32) 0 0 0, .ecrcMismatch 0 0 0 (2 ^ 32), .controlNop 0 (2 ^ 64), .twinCheck 0 0 (List.replicate 241 0),
      .monSelWrite 0x4000000 0 true, .monSelWrite 8 0 true, .monSelWrite 0 (2 ^ 32) true, .monSnapLoRead 8 true, .datumBlockReset (2 ^ 32),
      .mscReset (2 ^ 32), .lnkReset (2 ^ 32), .copyEngineReset (2 ^ 32), .linkEngineReset (2 ^ 32), .stagingWrite 16777216 [],
      .secStageWrite (2 ^ 32), .secRevoke (2 ^ 32), .writeStep (2 ^ 32), .stageData (2 ^ 32) [], .stageSet (2 ^ 32), .readReg (2 ^ 32) 1,
      .writeReg (2 ^ 32) 0, .writeReg 0 (2 ^ 32), .clearAlarms (2 ^ 256), .entdaa 128, .setdasa 128 0, .setdasa 0 128, .setmwl (2 ^ 32),
      .setmrl (2 ^ 32), .registerWrite 0x4000000 0 15, .registerWrite 2 0 15, .registerWrite 0 (2 ^ 32) 15, .registerWrite 0 0 256,
      .registerWrite 4092 0 255, .registerWrite 0 (2 ^ 64) 255, .gatedRead ⟨0, 0x4000000, 4⟩, .gatedRead ⟨4, 0x1000000, 4⟩, .gatedRead ⟨2, 0, 4⟩, .gatedRead ⟨0, 0, 0⟩,
      .gatedRead ⟨0, 0, 65⟩, .gatedRead ⟨0, 4092, 8⟩, .unsupportedRequest true 0 ⟨4, [0, 0, 0]⟩, .unsupportedRequest true 0 ⟨4, [0, 0, 0, 2 ^ 32]⟩] : List Instr).all (fun i => !WellFormed i) = true := by decide +kernel

/-- e rounds to the FP32 0x402DF854: within 2 ulp of e^1, and the encoding 3 ulp above it is not (R306). -/
theorem test_sfu_exp_bound :
    sfuNear 0x402DF854 (expFix (2 ^ 160)) (sfuBound 0 1 0 (expFix (2 ^ 160))) = true ∧
      sfuNear 0x402DF857 (expFix (2 ^ 160)) (sfuBound 0 1 0 (expFix (2 ^ 160))) = false := by decide +kernel

/-- log2 8 is 3 exactly (R306). -/
theorem test_sfu_log2 : log2Fix 1 3 = 3 * 2 ^ 400 := by decide +kernel

end Sys2Proof.Tests
end

section
/-! ### What raising an error leaves alone (R620 to R647) -/

namespace Sys2Proof.Machine

open Sys2Proof

/-- `t` is `s` after errors were raised and jobs began to end: everything else stands. -/
structure Raises (s t : State) : Prop where
  rest : { t with out := s.out, rst := s.rst, keep := s.keep, sb := s.sb, err := s.err, mon := s.mon, sht := s.sht, hif := s.hif,
                  jobs := s.jobs, cells := s.cells, regions := s.regions, reds := s.reds, grp := s.grp } = s
  rst : { t.rst with compatWait := s.rst.compatWait } = s.rst
  keep : { t.keep with historyQ := s.keep.historyQ } = s.keep
  sb : { t.sb with ibiLast := s.sb.ibiLast, ibiPend := s.sb.ibiPend } = s.sb
  mon : { t.mon with pend := s.mon.pend } = s.mon
  sht : { t.sht with lastDone := s.sht.lastDone } = s.sht
  hif : { t.hif with fetchEn := s.hif.fetchEn, descs := s.hif.descs, mods := s.hif.mods, msix := s.hif.msix } = s.hif
  grp : { t.grp with abort := s.grp.abort, ownAbort := s.grp.ownAbort } = s.grp
  jobs : (t.jobs.map fun j => { j with ending := none }) = s.jobs.map fun j => { j with ending := none }
  cell : ∀ c, { t.cell c with seq := (s.cell c).seq } = s.cell c
  region : ∀ r, { t.region r with trcFrozen := (s.region r).trcFrozen } = s.region r

namespace Raises

theorem refl (s : State) : Raises s s := ⟨rfl, rfl, rfl, rfl, rfl, rfl, rfl, rfl, rfl, fun _ => rfl, fun _ => rfl⟩

theorem trans {s t u : State} (h : Raises s t) (k : Raises t u) : Raises s u where
  rest := (congrArg (fun x : State => { x with
    out := s.out, rst := s.rst, keep := s.keep, sb := s.sb, err := s.err, mon := s.mon, sht := s.sht, hif := s.hif,
    jobs := s.jobs, cells := s.cells, regions := s.regions, reds := s.reds, grp := s.grp }) k.rest).trans h.rest
  rst := (congrArg (fun x : Rst => { x with compatWait := s.rst.compatWait }) k.rst).trans h.rst
  keep := (congrArg (fun x : Persist => { x with historyQ := s.keep.historyQ }) k.keep).trans h.keep
  sb := (congrArg (fun x : SideBand => { x with ibiLast := s.sb.ibiLast, ibiPend := s.sb.ibiPend }) k.sb).trans h.sb
  mon := (congrArg (fun x : Mon => { x with pend := s.mon.pend }) k.mon).trans h.mon
  sht := (congrArg (fun x : Sht => { x with lastDone := s.sht.lastDone }) k.sht).trans h.sht
  hif := (congrArg (fun x : Hif => { x with
    fetchEn := s.hif.fetchEn, descs := s.hif.descs, mods := s.hif.mods, msix := s.hif.msix }) k.hif).trans h.hif
  grp := (congrArg (fun x : Grp => { x with abort := s.grp.abort, ownAbort := s.grp.ownAbort }) k.grp).trans h.grp
  jobs := k.jobs.trans h.jobs
  cell c := (congrArg (fun x : CellSt => { x with seq := (s.cell c).seq }) (k.cell c)).trans (h.cell c)
  region r := (congrArg (fun x : RegionSt => { x with trcFrozen := (s.region r).trcFrozen }) (k.region r)).trans (h.region r)

/-- The registers, queues and outputs that an error writes. -/
theorem note (s : State) (out : List Out) (err : Err) (reds : List RedGroup) (compatWait : List CompatWait) (historyQ : List ErrRec)
    (ibiLast : Sparse Nat) (ibiPend : Nat) (pend : Sparse Bool) (lastDone : Option Nat) (fetchEn : Bool) (descs : List Desc)
    (mods : Sparse Mod) (msix : Sparse Msix) (abort ownAbort : Nat) :
    Raises s { s with
      out, err, reds, rst := { s.rst with compatWait }, keep := { s.keep with historyQ }, sb := { s.sb with ibiLast, ibiPend }
      mon := { s.mon with pend }, sht := { s.sht with lastDone }, hif := { s.hif with fetchEn, descs, mods, msix }
      grp := { s.grp with abort, ownAbort } } :=
  ⟨rfl, rfl, rfl, rfl, rfl, rfl, rfl, rfl, rfl, fun _ => rfl, fun _ => rfl⟩

/-- Jobs take the record that ends them. -/
theorem jobEndings (s : State) (f : Job → Option Ending) :
    Raises s { s with jobs := s.jobs.map fun j => { j with ending := f j } } :=
  ⟨rfl, rfl, rfl, rfl, rfl, rfl, rfl, rfl, by simp [Function.comp_def], fun _ => rfl, fun _ => rfl⟩

theorem updSeq (s : State) (c : Nat) (f : Seq → Seq) : Raises s (s.updSeq c f) :=
  ⟨rfl, rfl, rfl, rfl, rfl, rfl, rfl, rfl, rfl, fun d => by by_cases h : c = d <;> simp [h], fun _ => rfl⟩

theorem foldl {β : Type} {f : State → β → State} (h : ∀ s x, Raises s (f s x)) (l : List β) (s : State) : Raises s (l.foldl f s) := by
  induction l generalizing s with
  | nil => exact refl s
  | cons x l ih => exact (h s x).trans (ih (f s x))

theorem ite {s t u : State} {p : Prop} {dec : Decidable p} (h : Raises s t) (k : Raises s u) : Raises s (if p then t else u) := by
  split
  · exact h
  · exact k

end Raises

/-! Each operation on the way of an error. -/

theorem raises_dropped (s : State) (k n : Nat) : Raises s (dropped s k n) := Raises.note ..

theorem raises_sendVector (s : State) (v : Nat) : Raises s (sendVector s v) := by
  unfold sendVector
  simp only
  split_ifs <;> exact Raises.note ..

theorem raises_raiseIbi (s : State) (kind : Nat) : Raises s (raiseIbi s kind) := by
  unfold raiseIbi
  simp only
  split_ifs
  · exact Raises.refl s
  all_goals exact Raises.note ..

theorem raises_alarmOne (code unit job : Nat) (s : State) (b : Nat) : Raises s (alarmOne code unit job s b) := by
  unfold alarmOne
  extract_lets a al _ s1 s2 _
  have h1 : Raises s s1 := Raises.note ..
  have h2 : Raises s s2 := h1.trans (.ite (.refl _) (raises_raiseIbi _ 1))
  exact h2.trans (.ite (.refl _) (.ite (.refl _) ((Raises.note ..).trans (raises_sendVector _ _))))

theorem raises_pushSideBand (s : State) (r : ErrRec) : Raises s (pushSideBand s r) := by
  unfold pushSideBand
  extract_lets q _ s1 s2
  have h1 : Raises s s1 := Raises.note ..
  have h2 : Raises s s2 := h1.trans (.ite (raises_dropped _ 5 1) (.refl _))
  exact h2.trans (.ite (raises_raiseIbi _ 2) (.refl _))

/-- A job that takes an ending where a test passes. -/
theorem raises_setEndings (s : State) (p : Job → Bool) (e : Job → Option Ending) :
    Raises s { s with jobs := s.jobs.map fun j => if p j then { j with ending := e j } else j } := by
  have h : (fun j : Job => if p j then { j with ending := e j } else j) = fun j => { j with ending := if p j then e j else j.ending } := by
    funext j
    split <;> rfl
  rw [h]
  exact Raises.jobEndings s _

theorem raises_stage {s t : State} {r : ErrRec} (h : stage s r = some t) : Raises s t := by
  unfold stage at h
  extract_lets full seq history r' jobs named descs _ _ _ s1 s2 _ s3 _ at h
  obtain ⟨-, h⟩ := Option.ite_none_left_eq_some.mp h
  have h1 : Raises s s1 := (raises_setEndings s _ _).trans (Raises.note ..)
  have h2 : Raises s s2 := h1.trans (.ite (raises_pushSideBand _ _) (.refl _))
  have h3 : Raises s s3 := h2.trans (.ite ((Raises.note ..).trans (raises_dropped _ 3 1)) (.refl _))
  split_ifs at h <;> obtain rfl := Option.some.inj h
  · exact h3
  · exact h3.trans (raises_dropped _ 4 1)
  · exact h3.trans (Raises.note ..)

theorem raises_setQueue (s : State) (lvl unit : Nat) (q : List ErrRec) : Raises s (setQueue s lvl unit q) := by
  unfold setQueue
  split <;> exact Raises.note ..

theorem raises_lostAt (s : State) (lvl unit : Nat) : Raises s (lostAt s lvl unit) := by
  unfold lostAt
  refine (raises_dropped s 2 1).trans ?_
  split
  · exact Raises.note ..
  · exact Raises.note ..
  · exact Raises.refl _

theorem raises_enqueue {s t : State} {lvl unit : Nat} {r : ErrRec} (h : enqueue s lvl unit r = some t) : Raises s t := by
  unfold enqueue at h
  split at h
  · obtain rfl := Option.some.inj h
    exact (raises_setQueue s lvl unit _).trans (Raises.ite (raises_lostAt _ lvl unit) (Raises.refl _))
  · cases h

theorem raises_whenStaged {s : State} {p : Prop} {dec : Decidable p} {r : ErrRec} (t : State)
    (h : (if p then stage s r else none) = some t) : Raises s t :=
  raises_stage (Option.ite_none_right_eq_some.mp h).2

theorem raises_whenQueued {s : State} {p : Prop} {dec : Decidable p} {lvl unit : Nat} {r : ErrRec} (t : State)
    (h : (if p then enqueue s lvl unit r else none) = some t) : Raises s t :=
  raises_enqueue (Option.ite_none_right_eq_some.mp h).2

theorem raises_place (s : State) (r : ErrRec) : Raises s (place s r) := by
  unfold place
  extract_lets lvl try1 direct _ wait
  have waits : Raises s wait := Raises.note ..
  have tried {o : Option State} {k : Unit → State} (h : ∀ t, o = some t → Raises s t) (hk : Raises s (k ())) : Raises s (try1 o k) := by
    cases o with
    | none => exact hk
    | some t => exact h t rfl
  clear_value try1
  refine tried raises_whenStaged ?_
  refine tried raises_whenQueued (.ite waits ?_)
  refine tried raises_whenQueued (.ite waits ?_)
  refine tried (fun _ => raises_enqueue) (.ite waits ?_)
  exact tried (fun _ => raises_enqueue) waits

theorem raises_haltCell (s : State) (c : Nat) : Raises s (haltCell s c) := by
  unfold haltCell
  extract_lets q fl
  exact Raises.updSeq s c _

theorem raises_setAbort (s : State) (mask : Nat) : Raises s (setAbort s mask) := by
  unfold setAbort
  split_ifs <;> exact Raises.note ..

theorem raises_noteDone (s : State) : Raises s s.noteDone := by
  unfold State.noteDone
  split_ifs
  · exact Raises.refl s
  all_goals exact Raises.note ..

theorem raises_endJob (s : State) (j status : Nat) : Raises s (endJob s j status) := by
  unfold endJob
  split
  · exact Raises.refl s
  · extract_lets s1 s2 s3 s4
    have h1 : Raises s s1 := raises_setEndings s (·.id == j) fun _ => some ⟨status, 0⟩
    have h2 : Raises s s2 := h1.trans (.ite (.foldl raises_haltCell _ _) (.refl _))
    have h3 : Raises s s3 := h2.trans (Raises.note ..)
    have h4 : Raises s s4 := h3.trans (.ite (raises_setAbort _ _) (.refl _))
    exact .ite (.refl s) (h4.trans (raises_noteDone _))

theorem raises_endHolders (s : State) (cs : List Nat) : Raises s (endHolders s cs) :=
  Raises.foldl (fun s (j : Job) => raises_endJob s j.id 0x42) _ s

theorem raises_chipFatal (s : State) : Raises s (chipFatal s) :=
  Raises.trans (Raises.note ..) (Raises.foldl (fun s (j : Job) => raises_endJob s j.id 0x42) _ _)

theorem raises_freezeTrace (s : State) (lvl unit : Nat) : Raises s (freezeTrace s lvl unit) := by
  unfold freezeTrace
  refine Raises.ite (Raises.refl s) ⟨rfl, rfl, rfl, rfl, rfl, rfl, rfl, rfl, rfl, fun _ => rfl, fun r => ?_⟩
  rw [State.region_updRegion]
  split_ifs with h
  · subst h; rfl
  · subst h; rfl
  · rfl

theorem raises_raiseAdmitted (s : State) (e : Ev) : Raises s (raiseAdmitted s e) := by
  unfold raiseAdmitted
  extract_lets now open? sev nested det cs job ends alarm bitsL a coalesced live mine going _ s1 s2 s3 also s4 _ s5 s6 r _ s7
  have h1 : Raises s s1 := Raises.note ..
  have h2 : Raises s s2 := h1.trans ((Raises.ite (raises_endJob _ job 0x42) (.refl _)).trans (raises_endHolders _ cs))
  have h3 : Raises s s3 := h2.trans (.ite (raises_chipFatal _) (.refl _))
  have h4 : Raises s s4 := h3.trans (.ite (raises_freezeTrace _ _ _) (.refl _))
  have h5 : Raises s s5 := h4.trans (by
    unfold s5
    split
    · exact .ite (Raises.note ..) (.refl _)
    · exact .refl _)
  have h6 : Raises s s6 := h5.trans (.foldl (fun s b => raises_alarmOne _ _ _ s b) _ _)
  have h7 : Raises s s7 := h6.trans (.ite (Raises.note ..) (.refl _))
  exact h7.trans (.ite (raises_dropped _ 7 1) (raises_place _ _))

theorem raises_discardLog (s : State) (k : Nat) (e : Ev) : Raises s (discardLog s k e) := by
  unfold discardLog
  exact (raises_dropped s k 1).trans (Raises.ite (Raises.refl _) (Raises.note ..))

/-- Whatever becomes of an error, it leaves alone what `Raises` names. -/
theorem raises_raise (s : State) (e : Ev) : Raises s (raise s e) := by
  unfold raise
  refine Raises.ite (Raises.refl s) (Raises.ite ?_ (raises_raiseAdmitted s e))
  refine Raises.ite (raises_discardLog s 0 e) (Raises.ite (raises_discardLog s 1 e) ?_)
  exact Raises.trans (Raises.note ..) (raises_raiseAdmitted _ e)

theorem raises_raiseChip (s : State) (code sev cls n job : Nat) (det : List Nat) (hist chain : Bool) :
    Raises s (raiseChip s code sev cls n job det hist chain) := raises_raise s _

theorem raises_raiseCell (s : State) (code sev unit : Nat) (who : Option Issuer) (items : List Nat) (job : Nat) (ends hist : Bool) :
    Raises s (raiseCell s code sev unit who items job ends hist) := by
  unfold raiseCell
  cases who <;> exact raises_raise s _

/-! What is read after an error as before it. -/

namespace Raises

variable {s t : State} (h : Raises s t)
include h

theorem plan : t.plan = s.plan := (congrArg State.plan h.rest :)
theorem svy : t.svy = s.svy := (congrArg State.svy h.rest :)
theorem clk : t.clk = s.clk := (congrArg State.clk h.rest :)
theorem stash (c : Nat) : (t.cell c).stash = (s.cell c).stash := (congrArg CellSt.stash (h.cell c) :)

theorem heldBy (c : Nat) : t.heldBy c = s.heldBy c := by
  have key (l : List Job) : (l.filter fun j => decide (j.phase ≠ .claiming) && (jobCells j).contains c).map (·.id) =
      ((l.map fun j => { j with ending := none }).filter fun j => decide (j.phase ≠ .claiming) && (jobCells j).contains c).map (·.id) := by
    simp [List.filter_map, Function.comp_def, jobCells]
  unfold State.heldBy
  rw [key t.jobs, h.jobs, ← key s.jobs]

end Raises

end Sys2Proof.Machine
end

section
/-! ### Fences and republications (R27 to R31, R45 to R48) -/

namespace Sys2Proof.Machine

open Sys2Proof

/-- `t` is `s` after the change of a floor plan was taken into a survey generation: the plan, a held fence request, the clock and
the stashes stand. -/
structure Republishes (s t : State) : Prop where
  plan : t.plan = s.plan
  request : t.svy.request = s.svy.request
  clk : t.clk = s.clk
  stash : ∀ c, (t.cell c).stash = (s.cell c).stash

namespace Republishes

theorem refl (s : State) : Republishes s s := ⟨rfl, rfl, rfl, fun _ => rfl⟩

theorem trans {s t u : State} (h : Republishes s t) (k : Republishes t u) : Republishes s u :=
  ⟨k.plan.trans h.plan, k.request.trans h.request, k.clk.trans h.clk, fun c => (k.stash c).trans (h.stash c)⟩

theorem cellPlan {s t : State} (h : Republishes s t) (c : Nat) : t.cellPlan c = s.cellPlan c := by
  unfold State.cellPlan; rw [h.plan]

end Republishes

theorem Raises.republishes {s t : State} (h : Raises s t) : Republishes s t :=
  ⟨h.plan, by rw [h.svy], h.clk, h.stash⟩

theorem republishes_startBuild (s : State) (x : Snap) : Republishes s (startBuild s x) :=
  ⟨rfl, rfl, rfl, fun _ => rfl⟩

theorem republishes_surveyChange (s : State) : Republishes s (surveyChange s) := by
  unfold surveyChange
  split
  · exact .refl s
  · split_ifs
    · exact ⟨rfl, rfl, rfl, fun _ => rfl⟩
    · exact republishes_startBuild s _

theorem republishes_checkGrade (s : State) (gen : Nat) : Republishes s (checkGrade s gen) := by
  have below : Republishes s { s with svy := { s.svy with belowGrade := true } } := ⟨rfl, rfl, rfl, fun _ => rfl⟩
  unfold checkGrade
  extract_lets g least
  split_ifs
  · exact below.trans (raises_raiseChip ..).republishes
  · exact .refl s

theorem republishes_republish (s : State) (gen : Nat) : Republishes s (republish s gen) :=
  (republishes_surveyChange s).trans (republishes_checkGrade _ gen)

/-! What the fence of a unit writes in the floor plan. -/

/-- A block's reason hangs on the plans of blocks and regions alone. -/
theorem blockReason_of_plan {s t : State} (hb : t.plan.blocks = s.plan.blocks) (hr : t.plan.regions = s.plan.regions) (b : Nat) :
    t.blockReason b = s.blockReason b := by
  unfold State.blockReason State.regionReason State.blockPlan State.regionPlan
  rw [hb, hr]

theorem cellReason_of_plan {s t : State} (h : t.plan = s.plan) (c : Nat) : t.cellReason c = s.cellReason c := by
  unfold State.cellReason State.cellPlan
  rw [blockReason_of_plan (congrArg Plan.blocks h) (congrArg Plan.regions h), h]

/-- The cell's own reason comes first (R32). -/
theorem cellReason_eq_zero {s : State} {c : Nat} : s.cellReason c = 0 ↔ (s.cellPlan c).reason = 0 ∧ s.blockReason (blockIndex c) = 0 := by
  unfold State.cellReason
  by_cases h1 : (s.cellPlan c).reason = 0 <;> by_cases h2 : s.blockReason (blockIndex c) = 0 <;> simp [h1, h2]

theorem goodCell_reason {s : State} {c : Nat} (h : s.goodCell c = true) : s.cellReason c = 0 := by
  simp only [State.goodCell, Bool.and_eq_true, beq_iff_eq] at h
  exact h.2

theorem cellPlan_of_plan {s t : State} (h : t.plan = s.plan) (c : Nat) : t.cellPlan c = s.cellPlan c := by
  unfold State.cellPlan; rw [h]

theorem blockPlan_of_plan {s t : State} (h : t.plan = s.plan) (b : Nat) : t.blockPlan b = s.blockPlan b := by
  unfold State.blockPlan; rw [h]

theorem regionPlan_of_plan {s t : State} (h : t.plan = s.plan) (r : Nat) : t.regionPlan r = s.regionPlan r := by
  unfold State.regionPlan; rw [h]

theorem fenceBlockPlan_plan {s : State} {b : Nat} (h : s.blockReason b = 0) (reason : Nat) :
    (fenceBlockPlan s b reason).plan = (s.updBlockPlan b fun p => { p with reason }).plan := by
  unfold fenceBlockPlan
  rw [if_neg (by simp [h]), (raises_noteDone _).plan]
  unfold State.updBlockPlan
  rw [(raises_endHolders s _).plan]

theorem fenceRegionPlan_plan {s : State} {r : Nat} (h : s.regionReason r = 0) (reason : Nat) :
    (fenceRegionPlan s r reason).plan = (s.updRegionPlan r fun p => { p with reason }).plan := by
  unfold fenceRegionPlan
  rw [if_neg (by simp [h]), (raises_noteDone _).plan]
  unfold State.updRegionPlan
  rw [(raises_endHolders s _).plan]

/-- A cell's fence: an S cell takes its block with it, with reason 0xA (R27, R32). -/
theorem fenceCellPlan_plan {s : State} {c : Nat} (h : s.cellReason c = 0) (reason : Nat) :
    (fenceCellPlan s c reason).plan =
      (if kindOf c = .S then (s.updCellPlan c fun p => { p with reason }).updBlockPlan (blockIndex c) fun p => { p with reason := 0xA }
       else s.updCellPlan c fun p => { p with reason }).plan := by
  unfold fenceCellPlan
  rw [if_neg (by simp [h])]
  extract_lets s1
  have hs1 : s1.plan = (s.updCellPlan c fun p => { p with reason }).plan := by
    unfold s1
    rw [(raises_noteDone _).plan]
    unfold State.updCellPlan
    rw [(raises_endHolders s _).plan]
  have hb : s1.blockReason (blockIndex c) = 0 := by
    rw [blockReason_of_plan (congrArg Plan.blocks hs1) (congrArg Plan.regions hs1)]
    exact (cellReason_eq_zero.mp h).2
  split_ifs
  · rw [fenceBlockPlan_plan hb]
    unfold State.updBlockPlan
    rw [hs1]
  · exact hs1

theorem cellPlan_fenceCellPlan {s : State} {c : Nat} (h : s.cellReason c = 0) (reason d : Nat) :
    (fenceCellPlan s c reason).cellPlan d = if c = d then { s.cellPlan c with reason } else s.cellPlan d := by
  rw [cellPlan_of_plan (fenceCellPlan_plan h reason)]
  refine Eq.trans ?_ (State.cellPlan_updCellPlan s c d fun p => { p with reason })
  split_ifs
  · exact State.cellPlan_updBlockPlan ..
  · rfl

theorem stash_fenceBlockPlan (s : State) (b reason d : Nat) : ((fenceBlockPlan s b reason).cell d).stash = (s.cell d).stash := by
  unfold fenceBlockPlan
  split_ifs
  · rfl
  · rw [(raises_noteDone _).stash, State.cell_updBlockPlan, (raises_endHolders s _).stash]

theorem stash_fenceCellPlan (s : State) (c reason d : Nat) : ((fenceCellPlan s c reason).cell d).stash = (s.cell d).stash := by
  have cell : (((endHolders s [c]).updCellPlan c fun p => { p with reason }).noteDone.cell d).stash = (s.cell d).stash := by
    rw [(raises_noteDone _).stash, State.cell_updCellPlan, (raises_endHolders s _).stash]
  unfold fenceCellPlan
  split_ifs
  · rfl
  · rw [stash_fenceBlockPlan, cell]
  · exact cell

theorem fenceBlockPlan_svy (s : State) (b reason : Nat) : (fenceBlockPlan s b reason).svy = s.svy := by
  unfold fenceBlockPlan
  split_ifs
  · rfl
  · rw [(raises_noteDone _).svy, State.updBlockPlan_svy, (raises_endHolders s _).svy]

theorem fenceCellPlan_svy (s : State) (c reason : Nat) : (fenceCellPlan s c reason).svy = s.svy := by
  have cell : ((endHolders s [c]).updCellPlan c fun p => { p with reason }).noteDone.svy = s.svy := by
    rw [(raises_noteDone _).svy, State.updCellPlan_svy, (raises_endHolders s _).svy]
  unfold fenceCellPlan
  split_ifs
  · rfl
  · rw [fenceBlockPlan_svy, cell]
  · exact cell

theorem fenceRegionPlan_svy (s : State) (r reason : Nat) : (fenceRegionPlan s r reason).svy = s.svy := by
  unfold fenceRegionPlan
  split_ifs
  · rfl
  · rw [(raises_noteDone _).svy, State.updRegionPlan_svy, (raises_endHolders s _).svy]

end Sys2Proof.Machine
end

section
/-! ### The requests and the commit of the survey (R42 to R56, R669 to R673) -/

namespace Sys2Proof.Machine

open Sys2Proof

/-! Fence requests. -/

theorem fenceCell_plan {s : State} {c : Nat} (h : s.cellReason c = 0) (reason : Nat) :
    (fenceCell s c reason).plan = (fenceCellPlan s c reason).plan := by
  unfold fenceCell
  rw [if_neg (by simp [h]), (republishes_republish _ _).plan]

theorem fenceBlock_plan {s : State} {b : Nat} (h : s.blockReason b = 0) (reason : Nat) :
    (fenceBlock s b reason).plan = (s.updBlockPlan b fun p => { p with reason }).plan := by
  unfold fenceBlock
  rw [if_neg (by simp [h]), (republishes_republish _ _).plan, fenceBlockPlan_plan h]

theorem fenceRegion_plan {s : State} {r : Nat} (h : s.regionReason r = 0) (reason : Nat) :
    (fenceRegion s r reason).plan = (s.updRegionPlan r fun p => { p with reason }).plan := by
  unfold fenceRegion
  rw [if_neg (by simp [h]), (republishes_republish _ _).plan, fenceRegionPlan_plan h]

theorem fenceCell_request (s : State) (c reason : Nat) : (fenceCell s c reason).svy.request = s.svy.request := by
  unfold fenceCell
  split_ifs
  · rfl
  · rw [(republishes_republish _ _).request, fenceCellPlan_svy]

theorem fenceBlock_request (s : State) (b reason : Nat) : (fenceBlock s b reason).svy.request = s.svy.request := by
  unfold fenceBlock
  split_ifs
  · rfl
  · rw [(republishes_republish _ _).request, fenceBlockPlan_svy]

theorem fenceRegion_request (s : State) (r reason : Nat) : (fenceRegion s r reason).svy.request = s.svy.request := by
  unfold fenceRegion
  split_ifs
  · rfl
  · rw [(republishes_republish _ _).request, fenceRegionPlan_svy]

/-- The cells that a fence request takes (R56). -/
def requestCells (u lvl : Nat) : List Nat :=
  if lvl = 0 then [u] else if lvl = 1 then blockCells (blockIndex u) else (upto (regionOf u * 12) 12).flatMap blockCells

/-- A job uses one of these cells. -/
def cellsInUse (s : State) (cs : List Nat) : Bool := s.jobs.any fun j => decide (j.phase ≠ .claiming) && (jobCells j).any cs.contains

/-- No request is held any more. -/
def State.dropRequest (s : State) : State := { s with svy := { s.svy with request := none } }

@[simp] theorem State.cellPlan_dropRequest (s : State) (c : Nat) : s.dropRequest.cellPlan c = s.cellPlan c := rfl
@[simp] theorem State.blockPlan_dropRequest (s : State) (b : Nat) : s.dropRequest.blockPlan b = s.blockPlan b := rfl
@[simp] theorem State.regionPlan_dropRequest (s : State) (r : Nat) : s.dropRequest.regionPlan r = s.regionPlan r := rfl

/-- A unit of a level is fenced by the request of R56. -/
def fenceRequested (s : State) (u lvl : Nat) : State :=
  if lvl = 0 then fenceCell s u 0xC else if lvl = 1 then fenceBlock s (blockIndex u) 0xC else fenceRegion s (regionOf u) 0xC

/-- The request held in SVY takes effect, or waits for the jobs that use its unit. -/
theorem applyRequest_some {s : State} {u lvl : Nat} (h : s.svy.request = some (u, lvl)) :
    applyRequest s = if cellsInUse s (requestCells u lvl) then s else fenceRequested s.dropRequest u lvl := by
  unfold applyRequest requestCells fenceRequested
  rw [h]
  match lvl with
  | 0 => rfl
  | 1 => rfl
  | _ + 2 => rfl

/-- A write of SVY_FENCE_REQ that is taken (R56). -/
def requestTaken (s : State) (v : Nat) : Prop :=
  s.up 2 = true ∧ s.inReset 0 6 = false ∧ bit v 31 = true ∧ namesUnit (v % 8192) (bits v 14 13) = true ∧ s.svy.request = none

theorem execSvyFenceReq_ignored {s : State} {v : Nat} (h : ¬requestTaken s v) : execSvyFenceReq v s = .next s := by
  unfold execSvyFenceReq
  extract_lets u lvl
  split_ifs with hc
  · rfl
  · refine absurd ?_ h
    simpa [requestTaken, u, lvl, and_assoc] using hc

theorem execSvyFenceReq_taken {s : State} {v : Nat} (h : requestTaken s v) :
    execSvyFenceReq v s = .next (if cellsInUse s (requestCells (v % 8192) (bits v 14 13))
      then { s with svy := { s.svy with request := some (v % 8192, bits v 14 13) } }
      else fenceRequested s.dropRequest (v % 8192) (bits v 14 13)) := by
  obtain ⟨hup, hreset, hgo, hunit, hfree⟩ := h
  unfold execSvyFenceReq
  simp only [Nat.reducePow, hup, hreset, hgo, hunit, hfree, Bool.not_true, Option.isSome_none, Bool.or_false, Bool.false_eq_true, if_false]
  rw [applyRequest_some rfl]
  rfl

/-- SVY_FENCE_REQ: it is ignored, held, or fences its unit (R56). -/
theorem svyFenceReq_law (v : Nat) (s : State) :
    let u := v % 8192
    let lvl := bits v 14 13
    let b := blockIndex u
    let r := regionOf u
    (¬requestTaken s v → exec (.svyFenceReq v) s = .next s) ∧
    (requestTaken s v → cellsInUse s (requestCells u lvl) = true →
      exec (.svyFenceReq v) s = .next { s with svy := { s.svy with request := some (u, lvl) } }) ∧
    (requestTaken s v → cellsInUse s (requestCells u lvl) = false →
      (lvl = 0 → s.cellReason u = 0 → ∃ t : State, exec (.svyFenceReq v) s = .next t ∧ t.svy.request = none ∧
        t.cellPlan u = { s.cellPlan u with reason := 0xC } ∧ (∀ d, d ≠ u → t.cellPlan d = s.cellPlan d) ∧
        (t.blockPlan b).reason = (if kindOf u = .S then 0xA else (s.blockPlan b).reason) ∧ ∀ k, k ≠ b → t.blockPlan k = s.blockPlan k) ∧
      (lvl = 1 → s.blockReason b = 0 → ∃ t : State, exec (.svyFenceReq v) s = .next t ∧ t.svy.request = none ∧
        t.blockPlan b = { s.blockPlan b with reason := 0xC } ∧ ∀ k, k ≠ b → t.blockPlan k = s.blockPlan k) ∧
      (lvl = 2 → s.regionReason r = 0 → ∃ t : State, exec (.svyFenceReq v) s = .next t ∧ t.svy.request = none ∧
        t.regionPlan r = { s.regionPlan r with reason := 0xC } ∧ ∀ k, k ≠ r → t.regionPlan k = s.regionPlan k)) := by
  intro u lvl b r
  refine ⟨execSvyFenceReq_ignored, fun taken used => ?_, fun taken unused => ?_⟩
  · exact (execSvyFenceReq_taken taken).trans (by rw [used]; rfl)
  · have run : exec (.svyFenceReq v) s = .next (fenceRequested s.dropRequest u lvl) :=
      (execSvyFenceReq_taken taken).trans (by rw [unused]; rfl)
    refine ⟨fun hl good => ⟨_, run, ?_⟩, fun hl good => ⟨_, run, ?_⟩, fun hl good => ⟨_, run, ?_⟩⟩ <;> rw [hl]
    · have good' : s.dropRequest.cellReason u = 0 := good
      have hplan := (fenceCell_plan good' 0xC).trans (fenceCellPlan_plan good' 0xC)
      refine ⟨fenceCell_request _ u 0xC, ?_, fun d hd => ?_, ?_, fun k hk => ?_⟩
      · refine (cellPlan_of_plan hplan u).trans ?_
        split_ifs <;> simp
      · refine (cellPlan_of_plan hplan d).trans ?_
        split_ifs <;> simp [hd.symm]
      · refine (congrArg BlockPlan.reason (blockPlan_of_plan hplan b)).trans ?_
        split_ifs <;> simp [b]
      · refine (blockPlan_of_plan hplan k).trans ?_
        split_ifs <;> simp [hk.symm, b]
    · have hplan := fenceBlock_plan (s := s.dropRequest) good 0xC
      refine ⟨fenceBlock_request _ b 0xC, (blockPlan_of_plan hplan b).trans ?_, fun k hk => (blockPlan_of_plan hplan k).trans ?_⟩
      · simp
      · simp [hk.symm]
    · have hplan := fenceRegion_plan (s := s.dropRequest) good 0xC
      refine ⟨fenceRegion_request _ r 0xC, (regionPlan_of_plan hplan r).trans ?_, fun k hk => (regionPlan_of_plan hplan k).trans ?_⟩
      · simp
      · simp [hk.symm]

/-! The bytes of a survey record. -/

theorem leBytes_length (n v : Nat) : (leBytes n v).length = n := by
  induction n generalizing v with
  | zero => rfl
  | succ n ih => simp [leBytes, ih]

/-- The header of a survey record is 64 bytes (R35). -/
theorem headerBytes_length (x : Snap) (t : State) : (headerBytes x t).length = 64 := by
  unfold headerBytes
  extract_lets good m g
  clear_value good m g
  simp only [List.length_append, leBytes_length]

/-- A survey record is 20,808 bytes (R33). -/
theorem snapBytes_length (x : Snap) : (snapBytes x).length = 20808 := by
  have region (t : State) (r : Nat) : (regionEntry t r).length = 16 := by simp only [regionEntry, List.length_append, leBytes_length]
  have block (t : State) (b : Nat) : (blockEntry t b).length = 4 := leBytes_length ..
  have cell (t : State) (c : Nat) : (cellEntry t c).length = 4 := leBytes_length ..
  have cells (b : Nat) : (blockCells b).length = 12 := by simp [blockCells, upto]
  simp only [snapBytes, List.length_append, List.length_flatMap, leBytes_length, headerBytes_length, region, block, cell, cells,
    List.map_const', List.sum_replicate, smul_eq_mul, List.length_range]
/-! Slots of the NOR. -/

/-- A slot programmed without its commit byte holds no valid record (R46, R671). -/
theorem slotValid_uncommitted (kind wc : Nat) (raw : Bytes) (x : NorSlot) (k : Nat) : slotValid (programSlot kind wc raw false x) k = false := by
  simp [slotValid, slotFault, programSlot]

/-- A slot programmed whole holds a valid record of its kind, where its bytes fit (R671). -/
theorem slotValid_programmed {kind wc : Nat} {raw : Bytes} {x : NorSlot} (fit : raw.length + 21 ≤ (norSlotAt kind 0).2)
    (hx : x.data.isSome = true) : slotValid (programSlot kind wc raw true x) kind = true := by
  have fits : ¬(norSlotAt kind 0).2 < 0x10 + raw.length + 4 + 1 := by omega
  simp only [slotValid, slotFault, programSlot, slotHeader, if_true, fits, if_false, hx, bne_self_eq_false, Bool.false_eq_true,
    beq_self_eq_true, Bool.and_self]

/-- The slot that a write takes is not that of the newest valid record (R671). -/
def writesA (kind : Nat) (a b : NorSlot) : Bool := newestIsB a b kind || !(slotValid a kind || slotValid b kind)

theorem writeSlots_eq (kind : Nat) (a b x : NorSlot) (raw : Bytes) (commit : Bool) :
    ∃ wc, writeSlots kind a b x raw commit =
      if writesA kind a b then (programSlot kind wc raw commit x, b, 0) else (a, programSlot kind wc raw commit x, 1) :=
  ⟨_, rfl⟩

/-- The other slot is overwritten where the first holds the newest valid record alone. -/
theorem writesA_eq_false {kind : Nat} {a b : NorSlot} : writesA kind a b = false ↔ slotValid a kind = true ∧ newestIsB a b kind = false := by
  unfold writesA newestIsB
  cases slotValid a kind <;> cases slotValid b kind <;> simp

theorem newestSlot_uncommittedA {kind : Nat} {a b : NorSlot} (h : writesA kind a b = true) (wc : Nat) (raw : Bytes) (x : NorSlot) :
    newestSlot (programSlot kind wc raw false x) b kind = newestSlot a b kind := by
  unfold newestSlot
  unfold writesA at h
  unfold newestIsB at h ⊢
  rw [slotValid_uncommitted]
  cases ha : slotValid a kind <;> cases hb : slotValid b kind <;> simp_all

theorem newestSlot_uncommittedB {kind : Nat} {a b : NorSlot} (h : writesA kind a b = false) (wc : Nat) (raw : Bytes) (x : NorSlot) :
    newestSlot a (programSlot kind wc raw false x) kind = newestSlot a b kind := by
  obtain ⟨ha, hb⟩ := writesA_eq_false.mp h
  have old : newestIsB a (programSlot kind wc raw false x) kind = false := by
    unfold newestIsB
    rw [slotValid_uncommitted, Bool.false_and]
  simp [newestSlot, ha, hb, old]

/-! The commit. -/

/-- The slots of the survey are written; a second failed write raises besides (R671, R673). -/
theorem raises_writeSurvey (s : State) (x : Snap) (fails : Nat) :
    Raises { s with keep := { s.keep with
      surveyA := (writeSurveySlots s x (decide (fails < 2))).1, surveyB := (writeSurveySlots s x (decide (fails < 2))).2.1 } }
      (writeSurvey s x fails) := by
  unfold writeSurvey
  exact Raises.ite (Raises.refl _) (raises_raiseChip ..)

/-- Where SURVEY_COMMIT writes, and what it leaves (R45, R46, R671, R673). -/
theorem surveyCommit_law (fails : Nat) (s : State) :
    (s.svy.building = none ∨ s.svy.committed = true → exec (.surveyCommit fails) s = .next s) ∧
    (∀ x, s.svy.building = some x → s.svy.committed = false →
      ∃ t : State, exec (.surveyCommit fails) s = .next t ∧ t.svy.committed = true ∧ t.svy.window = s.svy.window ∧ t.svy.building = some x ∧
        (slotValid s.keep.surveyA = true → newestIsB s.keep.surveyA s.keep.surveyB = false → t.keep.surveyA = s.keep.surveyA) ∧
        (newestIsB s.keep.surveyA s.keep.surveyB = true → t.keep.surveyB = s.keep.surveyB) ∧
        (fails < 2 → (slotValid t.keep.surveyA = true ∧ t.keep.surveyA.data = some x) ∨
          slotValid t.keep.surveyB = true ∧ t.keep.surveyB.data = some x) ∧
        (2 ≤ fails → newestSlot t.keep.surveyA t.keep.surveyB = newestSlot s.keep.surveyA s.keep.surveyB)) := by
  constructor
  · intro h
    show execSurveyCommit fails s = _
    unfold execSurveyCommit
    rcases h with h | h
    · rw [h]
    · split
      · rfl
      · rw [if_pos h]
  · intro x hb hc
    have run : exec (.surveyCommit fails) s = .next (writeSurvey { s with svy := { s.svy with committed := true } } x fails) := by
      show execSurveyCommit fails s = _
      unfold execSurveyCommit
      simp only [hb, hc, Bool.false_eq_true, if_false]
    refine ⟨_, run, ?_⟩
    have hraise := raises_writeSurvey { s with svy := { s.svy with committed := true } } x fails
    generalize writeSurvey _ x fails = t at hraise
    obtain ⟨wc, hw⟩ := writeSlots_eq 3 s.keep.surveyA s.keep.surveyB { data := some x } (snapBytes x) (decide (fails < 2))
    have hA : t.keep.surveyA = _ := (congrArg Persist.surveyA hraise.keep :)
    have hB : t.keep.surveyB = _ := (congrArg Persist.surveyB hraise.keep :)
    have slots : writeSurveySlots { s with svy := { s.svy with committed := true } } x (decide (fails < 2)) = _ := hw
    rw [hraise.svy]
    refine ⟨rfl, rfl, hb, ?_⟩
    have valid : slotValid (programSlot 3 wc (snapBytes x) true { data := some x }) = true :=
      slotValid_programmed (by rw [snapBytes_length]; decide) rfl
    rw [hA, hB, slots]
    cases side : writesA 3 s.keep.surveyA s.keep.surveyB with
    | true =>
      simp only [if_true]
      refine ⟨fun h1 h2 => ?_, fun _ => trivial, fun h => .inl ?_, fun h => ?_⟩
      · exact absurd (writesA_eq_false.mpr ⟨h1, h2⟩) (by simp [side])
      · rw [decide_eq_true h]
        exact ⟨valid, rfl⟩
      · rw [decide_eq_false (by omega)]
        exact newestSlot_uncommittedA side ..
    | false =>
      obtain ⟨-, isA⟩ := writesA_eq_false.mp side
      simp only [Bool.false_eq_true, if_false]
      refine ⟨fun _ _ => trivial, fun h => ?_, fun h => .inr ?_, fun h => ?_⟩
      · exact absurd h (by simp [isA])
      · rw [decide_eq_true h]
        exact ⟨valid, rfl⟩
      · rw [decide_eq_false (by omega)]
        exact newestSlot_uncommittedB side ..

end Sys2Proof.Machine
end

section
/-! ### Time, bond tests and scrubbers (R14, R372 to R376, R391 to R396) -/

namespace Sys2Proof.Machine

open Sys2Proof

/-! Waiting for a core cycle. -/

theorem le_cdiv_mul (a : Nat) {b : Nat} (hb : 0 < b) : a ≤ cdiv a b * b := by
  have h := Nat.lt_div_mul_add hb (a := a + b - 1)
  unfold cdiv
  omega

/-- Waiting for a core cycle moves the clock alone, and the cycle has come then (R14). -/
theorem untilCycle_eq (s : State) (n : Nat) :
    ∃ k : Clock, s.untilCycle n = { s with clk := k } ∧ s.clk.cycles ≤ k.cycles ∧ n ≤ k.cycles := by
  unfold State.untilCycle
  split_ifs with h
  · exact ⟨s.clk, rfl, le_rfl, h⟩
  · refine ⟨_, rfl, Nat.le_add_right _ _, ?_⟩
    dsimp only
    set p := 100 + s.share.datumPct with hp
    set wait := ((n - s.clk.cycles) * 40000 - s.clk.frac) * p
    have enough : wait ≤ cdiv wait ((16 + s.pwr.pace) * 100) * (16 + s.pwr.pace) * 100 := by
      rw [Nat.mul_assoc]
      exact le_cdiv_mul wait (by omega)
    have cycles : (n - s.clk.cycles) * (40000 * p) ≤ s.clk.frac * p + wait := by
      have part : (n - s.clk.cycles) * 40000 ≤ s.clk.frac + ((n - s.clk.cycles) * 40000 - s.clk.frac) := by omega
      calc (n - s.clk.cycles) * (40000 * p) = (n - s.clk.cycles) * 40000 * p := by rw [Nat.mul_assoc]
        _ ≤ (s.clk.frac + ((n - s.clk.cycles) * 40000 - s.clk.frac)) * p := Nat.mul_le_mul_right p part
        _ = s.clk.frac * p + wait := Nat.add_mul ..
    have gained := (Nat.le_div_iff_mul_le (by omega : 0 < 40000 * p)).mpr (cycles.trans (Nat.add_le_add_left enough _))
    omega

/-! Bond tests. -/

/-- Failed bonds take spares, or with too few left their half is retired (R373). -/
def settleBonds (s : State) (c : Nat) (west : Bool) (bonds : List Nat) : State :=
  if bonds.isEmpty then s
  else if bonds.length ≤ sparesLeft (s.cellPlan c) west then takeSpares s c west bonds
  else retireHalf s c west bonds.length 3

/-- The test of a half is ended. -/
def testOver (s : State) (c : Nat) (west : Bool) : State :=
  s.updPlumb c fun p => if west then { p with westTest := none } else { p with eastTest := none }

/-- A half that waited begins its own test (R374). -/
def beginWaiting (s : State) (c : Nat) (west : Bool) : State :=
  startTest (s.updPlumb c fun p => if west then { p with eastWait := false } else { p with westWait := false }) c (!west)

/-- The other half of a half under test waits for its own. -/
def otherWaits (u : Plumb) (west : Bool) : Bool := if west then u.eastWait else u.westWait

/-- BOND_TEST_END in its parts (R373 to R375). -/
theorem execBondTestEnd_good {s : State} {c due : Nat} {west : Bool} (found : List Nat) (good : s.goodCell c = true)
    (test : (if west then (s.cell c).plumb.westTest else (s.cell c).plumb.eastTest) = some due) :
    ∃ k : Clock, due ≤ k.cycles ∧ exec (.bondTestEnd c west found) s = .next (
      let t := settleBonds (testOver { s with clk := k } c west) c west (failedBonds (s.cellPlan c) west found)
      if otherWaits (s.cell c).plumb west then beginWaiting t c west else t) := by
  obtain ⟨k, hk, -, late⟩ := untilCycle_eq s due
  refine ⟨k, late, ?_⟩
  show execBondTestEnd c west found s = _
  simp only [execBondTestEnd, test, hk, good, Bool.not_true, Bool.false_eq_true, if_false]
  change (if !otherWaits (s.cell c).plumb west then _ else _) = _
  cases otherWaits (s.cell c).plumb west <;> rfl

theorem raises_spareRecords (c west left gen : Nat) (failed : List (Nat × Nat)) (s : State) :
    Raises s (failed.foldl (fun s e => raiseCell s 0x0607 0 c none [west, e.1, left - (e.2 + 1), gen] 0 false true) s) :=
  Raises.foldl (fun s _ => raises_raiseCell s ..) failed s

/-- Spares are taken in the floor plan alone (R373). -/
theorem takeSpares_plan (s : State) (c : Nat) (west : Bool) (failed : List Nat) :
    (takeSpares s c west failed).plan = (s.updCellPlan c fun p =>
      if west then { p with westSpares := p.westSpares ++ failed } else { p with eastSpares := p.eastSpares ++ failed }).plan := by
  unfold takeSpares
  exact (raises_spareRecords ..).plan.trans (republishes_surveyChange _).plan

/-- What a cell has lost once a half is retired (R373): the second half takes the cell, for this reason (R375). -/
def CellPlan.retired (p : CellPlan) (west : Bool) (reason : Nat) : CellPlan :=
  let q : CellPlan := if west then { p with westGone := true } else { p with eastGone := true }
  if (if west then p.eastGone else p.westGone) then { q with reason } else q

theorem cellPlan_retireHalf {s : State} {c : Nat} (good : s.cellReason c = 0) (west : Bool) (n reason d : Nat) :
    (retireHalf s c west n reason).cellPlan d = if c = d then (s.cellPlan c).retired west reason else s.cellPlan d := by
  obtain ⟨own, block⟩ := cellReason_eq_zero.mp good
  unfold retireHalf
  extract_lets gen s1 s2 p
  have h2 : s2.plan = s1.plan := (raises_raiseCell ..).plan
  have hs1 (d : Nat) : s1.cellPlan d =
      if c = d then (if west then { s.cellPlan c with westGone := true } else { s.cellPlan c with eastGone := true }) else s.cellPlan d :=
    State.cellPlan_updCellPlan s c d _
  have hp : p = if west then { s.cellPlan c with westGone := true } else { s.cellPlan c with eastGone := true } :=
    (cellPlan_of_plan h2 c).trans ((hs1 c).trans (if_pos rfl))
  have both : (p.eastGone && p.westGone) = if west then (s.cellPlan c).eastGone else (s.cellPlan c).westGone := by
    rw [hp]
    cases west <;> simp
  rw [(republishes_republish _ gen).cellPlan, both]
  unfold CellPlan.retired
  by_cases other : (if west then (s.cellPlan c).eastGone else (s.cellPlan c).westGone) = true
  · rw [if_pos other]
    set s3 := raiseCell s2 0x0609 1 c none [b2n west, gen] (holderOf s2 [c]) true true
    have h3 : s3.plan = s1.plan := (raises_raiseCell ..).plan.trans h2
    have good3 : s3.cellReason c = 0 := by
      rw [cellReason_of_plan h3, cellReason_eq_zero, hs1, if_pos rfl]
      exact ⟨by cases west <;> exact own, block⟩
    rw [if_pos other, cellPlan_fenceCellPlan good3, cellPlan_of_plan h3, cellPlan_of_plan h3, hs1, hs1, if_pos rfl]
    split_ifs <;> rfl
  · rw [if_neg other, if_neg other, cellPlan_of_plan h2, hs1]

theorem cellPlan_settleBonds_spared {s : State} {c : Nat} {west : Bool} {bonds : List Nat} (some : bonds ≠ [])
    (enough : bonds.length ≤ sparesLeft (s.cellPlan c) west) (d : Nat) :
    (settleBonds s c west bonds).cellPlan d = if c = d then
      (if west then { s.cellPlan c with westSpares := (s.cellPlan c).westSpares ++ bonds }
       else { s.cellPlan c with eastSpares := (s.cellPlan c).eastSpares ++ bonds }) else s.cellPlan d := by
  unfold settleBonds
  rw [if_neg (by simpa using some), if_pos enough, cellPlan_of_plan (takeSpares_plan ..), State.cellPlan_updCellPlan]

theorem cellPlan_settleBonds_retired {s : State} {c : Nat} {west : Bool} {bonds : List Nat} (good : s.cellReason c = 0)
    (few : sparesLeft (s.cellPlan c) west < bonds.length) (d : Nat) :
    (settleBonds s c west bonds).cellPlan d = if c = d then (s.cellPlan c).retired west 3 else s.cellPlan d := by
  have some : bonds ≠ [] := by
    rintro rfl
    simp at few
  unfold settleBonds
  rw [if_neg (by simpa using some), if_neg (by omega), cellPlan_retireHalf good]

/-- BOND_TEST_END (R372 to R375). -/
theorem bondTestEnd_law (c : Nat) (west : Bool) (bonds : List Nat) (s : State) :
    let u := (s.cell c).plumb
    let p := s.cellPlan c
    let failed := failedBonds p west bonds
    ((if west then u.westTest else u.eastTest) = none → exec (.bondTestEnd c west bonds) s = .next s) ∧
    (∀ due, s.goodCell c = true → (if west then u.westTest else u.eastTest) = some due →
      (otherWaits u west = false → failed = [] →
        ∃ t : State, exec (.bondTestEnd c west bonds) s = .next t ∧ t.cell c = { s.cell c with plumb :=
          if west then { u with westTest := none } else { u with eastTest := none } } ∧
          (∀ d, d ≠ c → t.cell d = s.cell d) ∧ t.plan = s.plan ∧ due ≤ t.clk.cycles) ∧
      (otherWaits u west = true → (if west then u.eastTest else u.westTest) = none → failed = [] →
        ∃ t : State, exec (.bondTestEnd c west bonds) s = .next t ∧ t.plan = s.plan ∧
          (if west then (t.cell c).plumb.eastTest else (t.cell c).plumb.westTest) = some (t.clk.cycles + 256) ∧
          (if west then (t.cell c).plumb.westTest else (t.cell c).plumb.eastTest) = none ∧
          (if west then (t.cell c).plumb.eastWait else (t.cell c).plumb.westWait) = false) ∧
      (failed ≠ [] → failed.length ≤ sparesLeft p west →
        ∃ t : State, exec (.bondTestEnd c west bonds) s = .next t ∧ t.cellPlan c =
          (if west then { p with westSpares := p.westSpares ++ failed } else { p with eastSpares := p.eastSpares ++ failed }) ∧
          ∀ d, d ≠ c → t.cellPlan d = s.cellPlan d) ∧
      (sparesLeft p west < failed.length →
        ∃ t : State, exec (.bondTestEnd c west bonds) s = .next t ∧ t.cellPlan c = p.retired west 3 ∧
          ∀ d, d ≠ c → t.cellPlan d = s.cellPlan d)) := by
  intro u p failed
  constructor
  · intro idle
    show execBondTestEnd c west bonds s = _
    have idle' : (if west then (s.cell c).plumb.westTest else (s.cell c).plumb.eastTest) = none := idle
    simp only [execBondTestEnd, idle']
  · intro due good test
    obtain ⟨k, late, run⟩ := execBondTestEnd_good bonds good test
    set ended := testOver { s with clk := k } c west with hended
    have settled (d : Nat) : (if otherWaits u west then beginWaiting (settleBonds ended c west failed) c west
        else settleBonds ended c west failed).cellPlan d = (settleBonds ended c west failed).cellPlan d := by
      split_ifs <;> rfl
    refine ⟨fun free clean => ?_, fun waits idle clean => ?_, fun some enough => ⟨_, run, ?_⟩, fun few => ⟨_, run, ?_⟩⟩
    · refine ⟨ended, run.trans ?_, ?_, fun d hd => ?_, rfl, late⟩
      · rw [show failedBonds (s.cellPlan c) west bonds = [] from clean, show otherWaits (s.cell c).plumb west = false from free]
        rfl
      · rw [hended, testOver, State.cell_updPlumb, if_pos rfl]
        rfl
      · rw [hended, testOver, State.cell_updPlumb, if_neg hd.symm]
        rfl
    · refine ⟨beginWaiting ended c west, run.trans ?_, rfl, ?_⟩
      · rw [show failedBonds (s.cellPlan c) west bonds = [] from clean, show otherWaits (s.cell c).plumb west = true from waits]
        rfl
      · have same : ended.cell c = { s.cell c with plumb := if west then { u with westTest := none } else { u with eastTest := none } } := by
          rw [hended, testOver, State.cell_updPlumb, if_pos rfl]
          rfl
        unfold beginWaiting startTest
        cases west <;> simp_all
    · refine ⟨(settled c).trans ?_, fun d hd => (settled d).trans ?_⟩
      · rw [cellPlan_settleBonds_spared (s := ended) some enough, if_pos rfl]
        rfl
      · rw [cellPlan_settleBonds_spared (s := ended) some enough, if_neg hd.symm]
        rfl
    · refine ⟨(settled c).trans ?_, fun d hd => (settled d).trans ?_⟩
      · rw [cellPlan_settleBonds_retired (s := ended) (goodCell_reason good) few, if_pos rfl]
        rfl
      · rw [cellPlan_settleBonds_retired (s := ended) (goodCell_reason good) few, if_neg hd.symm]
        rfl

end Sys2Proof.Machine
end

section
/-! ### Scrubbers (R391 to R395) -/

namespace Sys2Proof.Machine

open Sys2Proof

/-! Folds in which at most one entry acts. -/

theorem foldl_eq_self {α β : Type} {f : β → α → β} {b : β} {l : List α} (h : ∀ a ∈ l, f b a = b) : l.foldl f b = b := by
  induction l with
  | nil => rfl
  | cons a l ih =>
    rw [List.foldl_cons, h a List.mem_cons_self]
    exact ih fun x hx => h x (List.mem_cons_of_mem a hx)

theorem foldl_eq_one {α β : Type} {f : β → α → β} {b : β} {a : α} {l : List α} (mem : a ∈ l) (nodup : l.Nodup)
    (before : ∀ x ∈ l, x ≠ a → f b x = b) (after : ∀ x ∈ l, x ≠ a → f (f b a) x = f b a) : l.foldl f b = f b a := by
  induction l with
  | nil => cases mem
  | cons y l ih =>
    obtain ⟨fresh, nodup⟩ := List.nodup_cons.mp nodup
    rw [List.foldl_cons]
    by_cases hy : y = a
    · subst hy
      exact foldl_eq_self fun x hx => after x (List.mem_cons_of_mem y hx) fun h => fresh (h ▸ hx)
    · rw [before y List.mem_cons_self hy]
      exact ih ((List.mem_cons.mp mem).resolve_left (Ne.symm hy)) nodup (fun x hx => before x (List.mem_cons_of_mem y hx))
        fun x hx => after x (List.mem_cons_of_mem y hx)

/-- Removing the keys of a list from a map. -/
theorem sget_foldl_sdel {α : Type} (g : α → Nat) (l : List α) (m : Sparse Nat) (k : Nat) :
    sget 0 (l.foldl (fun m w => sdel m (g w)) m) k = if k ∈ l.map g then 0 else sget 0 m k := by
  induction l generalizing m with
  | nil => simp
  | cons a l ih =>
    rw [List.foldl_cons, ih, sget_sdel, List.map_cons]
    by_cases h : k ∈ l.map g
    · rw [if_pos h, if_pos (List.mem_cons_of_mem (g a) h)]
    · by_cases ha : g a = k
      · rw [if_neg h, if_pos ha, if_pos (ha ▸ List.mem_cons_self)]
      · rw [if_neg h, if_neg ha, if_neg (List.not_mem_cons_of_ne_of_not_mem (Ne.symm ha) h)]

/-! The words and check words of a line. -/

/-- The wrong bits of a word of a stash line. -/
def wrongBits (s : State) (c line w : Nat) : Nat := sget 0 (s.cell c).stash.bad (line * 8 + w)

theorem scrubWord_clean {s : State} {c line w : Nat} (h : wrongBits s c line w = 0) : scrubWord c line s w = s := by
  show (if wrongBits s c line w == 0 then s else _) = s
  exact if_pos (beq_iff_eq.mpr h)

/-- Words with wrong bits are not clean ones. -/
theorem ne_zero_of_popcount {m : Nat} (h : popcount 72 m ≠ 0) : m ≠ 0 := by
  rintro rfl
  exact h (by decide)

/-- One wrong bit is corrected and counted (R392). -/
theorem scrubWord_single {s : State} {c line w : Nat} (h : popcount 72 (wrongBits s c line w) = 1) :
    scrubWord c line s w = countCorrected (s.updStash c fun x =>
      { x with bad := sdel x.bad (line * 8 + w), lapCorrected := x.lapCorrected + 1 }) c (line * 8 + w) := by
  have dirty : wrongBits s c line w ≠ 0 := ne_zero_of_popcount (by omega)
  show (if wrongBits s c line w == 0 then _ else if popcount 72 (wrongBits s c line w) == 1 then _ else _) = _
  rw [if_neg (mt beq_iff_eq.mp dirty), if_pos (beq_iff_eq.mpr h)]

/-- More wrong bits are uncorrectable: UNCORR, and the granule is marked (R392, R394). -/
theorem scrubWord_double {s : State} {c line w : Nat} (h : 2 ≤ popcount 72 (wrongBits s c line w)) :
    scrubWord c line s w = raiseCell (markGranule (s.updRegion (regionOf c) fun r => { r with stsUncorr := true }) c (line / 256))
      0x0604 0 c none [line, w] := by
  have dirty : wrongBits s c line w ≠ 0 := ne_zero_of_popcount (by omega)
  have many : popcount 72 (wrongBits s c line w) ≠ 1 := by omega
  show (if wrongBits s c line w == 0 then _ else if popcount 72 (wrongBits s c line w) == 1 then _ else _) = _
  rw [if_neg (mt beq_iff_eq.mp dirty), if_neg (mt beq_iff_eq.mp many)]

/-- A correction counts; what else of the stash it may change are the words of the lap and the marks (R394). -/
theorem stash_countCorrected (s : State) (c key : Nat) :
    ∃ corrWords marked, ((countCorrected s c key).cell c).stash =
      { (s.cell c).stash with corrected := sat16 (s.cell c).stash.corrected 1, corrWords, marked } := by
  unfold countCorrected
  extract_lets s1 g
  have hs1 : (s1.cell c).stash = { (s.cell c).stash with
      corrected := sat16 (s.cell c).stash.corrected 1, corrWords := (s1.cell c).stash.corrWords } := by
    unfold s1
    rw [State.cell_updStash, if_pos rfl]
  split_ifs
  · refine ⟨(s1.cell c).stash.corrWords, (s1.cell c).stash.marked ||| 2 ^ g, ?_⟩
    rw [markGranule, State.cell_updStash, if_pos rfl, hs1]
  · exact ⟨(s1.cell c).stash.corrWords, (s.cell c).stash.marked, hs1⟩

/-- The pair of check-array words that a line brings is clean. -/
def pairClean (s : State) (c line : Nat) : Prop := line % 128 = 0 → sget 0 (s.cell c).stash.badChecks (line / 128) = 0

theorem scrubPair_clean {s : State} {c line : Nat} (h : pairClean s c line) : scrubPair s c line = s := by
  unfold scrubPair
  split_ifs with hl
  · rfl
  · have first : line % 128 = 0 := by simpa using hl
    simp [h first]

/-! Marked granules. -/

theorem retireGranules_unmarked {s : State} {c : Nat} (h : (s.cell c).stash.marked = 0) : retireGranules s c = s := by
  have none : (s.goodGranules c).filter (bit (s.cell c).stash.marked) = [] := by
    rw [List.filter_eq_nil_iff]
    intro g _
    simp [h, bit]
  simp [retireGranules, none]

theorem heldBy_updStash (s : State) (c d : Nat) (f : Stash → Stash) : (s.updStash c f).heldBy d = s.heldBy d := rfl

theorem retireGranules_held {s : State} {c : Nat} (h : s.heldBy c ≠ []) : retireGranules s c = s := by
  simp [retireGranules, h]

/-- A stash but for the marks of its granules. -/
def Stash.unmarked (x : Stash) : Stash := { x with marked := 0 }

/-- What every entry of a list keeps, the fold over it keeps. -/
theorem foldl_keeps {α β : Type} (p : State → β) {f : State → α → State} (h : ∀ s x, p (f s x) = p s) (l : List α) (s : State) :
    p (l.foldl f s) = p s := by
  induction l generalizing s with
  | nil => rfl
  | cons x l ih => rw [List.foldl_cons, ih, h]

/-- Of the stashes, retirement changes the marks alone (R394). -/
theorem stash_retireGranules (s : State) (c d : Nat) : ((retireGranules s c).cell d).stash.unmarked = (s.cell d).stash.unmarked := by
  unfold retireGranules
  extract_lets gs gen s1
  have hs1 : (s1.cell d).stash.unmarked = (s.cell d).stash.unmarked := by
    refine foldl_keeps (fun t => (t.cell d).stash.unmarked) (fun t g => ?_) gs s
    dsimp only
    rw [(raises_raiseCell ..).stash, State.cell_updStash]
    split_ifs with hd
    · subst hd
      rfl
    · rfl
  split_ifs
  · rfl
  · rfl
  · rw [(republishes_republish _ gen).stash, stash_fenceCellPlan, hs1]
  · rw [(republishes_republish _ gen).stash, hs1]

/-! One read of the scrubber. -/

/-- The words of a line as the scrubber treats them: those of a written line one by one, those of a line never written rewritten (R392). -/
def scrubWords (s : State) (c line : Nat) : State :=
  if lineWritten s c line then (List.range 8).foldl (scrubWord c line) s
  else s.updStash c fun x => { x with bad := (List.range 8).foldl (fun m w => sdel m (line * 8 + w)) x.bad }

/-- A scrubber's turn begins: the time of the read is noted. -/
def scrubBegun (s : State) (c : Nat) (k : Clock) : State := { s with clk := k }.updStash c fun x => { x with scrubAt := k.cycles }

/-- A scrubber's turn: its words, its check words, its next line, and the retirement of what is marked. -/
def scrubTurn (s : State) (c line : Nat) : State :=
  retireGranules ((scrubPair (scrubWords s c line) c line).updStash c fun x => { x with scrubPos := line + 1 }) c

theorem stash_scrubBegun (s : State) (c : Nat) (k : Clock) :
    ((scrubBegun s c k).cell c).stash = { (s.cell c).stash with scrubAt := k.cycles } := by
  rw [scrubBegun, State.cell_updStash, if_pos rfl]
  rfl

theorem cell_scrubBegun {s : State} {c d : Nat} (k : Clock) (h : d ≠ c) : (scrubBegun s c k).cell d = s.cell d := by
  rw [scrubBegun, State.cell_updStash, if_neg h.symm]
  rfl

theorem wrongBits_scrubBegun (s : State) (c line w : Nat) (k : Clock) : wrongBits (scrubBegun s c k) c line w = wrongBits s c line w := by
  unfold wrongBits
  rw [stash_scrubBegun]

theorem lineWritten_scrubBegun (s : State) (c line : Nat) (k : Clock) : lineWritten (scrubBegun s c k) c line = lineWritten s c line := by
  unfold lineWritten
  rw [stash_scrubBegun]

theorem pairClean_scrubBegun {s : State} {c line : Nat} (k : Clock) (h : pairClean s c line) : pairClean (scrubBegun s c k) c line := by
  unfold pairClean
  rw [stash_scrubBegun]
  exact h

/-- The place of a scrubber's next read hangs on the floor plan and on its position. -/
theorem scrubLine_scrubBegun (s : State) (c : Nat) (k : Clock) : scrubLine (scrubBegun s c k) c = scrubLine s c := by
  have pos : ((scrubBegun s c k).cell c).stash.scrubPos = (s.cell c).stash.scrubPos := by rw [stash_scrubBegun]
  have gran : (scrubBegun s c k).goodGranules c = s.goodGranules c := rfl
  unfold scrubLine
  rw [pos, gran]

/-- SCRUB_READ in its parts (R391 to R394). -/
theorem execScrubRead_good {s : State} {c line : Nat} {wrapped : Bool} (good : s.goodCell c = true)
    (next : scrubLine s c = some (line, wrapped)) :
    ∃ k : Clock, s.clk.cycles ≤ k.cycles ∧ (s.cell c).stash.scrubAt + 2 ^ (s.cell c).stash.scrubLog2 ≤ k.cycles ∧
      exec (.scrubRead c []) s = .next (scrubTurn (if wrapped then scrubWrap (scrubBegun s c k) c else scrubBegun s c k) c line) := by
  obtain ⟨k, hk, later, due⟩ := untilCycle_eq s ((s.cell c).stash.scrubAt + 2 ^ (s.cell c).stash.scrubLog2)
  refine ⟨k, later, due, ?_⟩
  have next' : scrubLine ({ s with clk := k }.updStash c fun x => { x with scrubAt := k.cycles }) c = some (line, wrapped) :=
    (scrubLine_scrubBegun s c k).trans next
  show execScrubRead c [] s = _
  simp only [execScrubRead, show injectAll s [] = s from rfl, good, Bool.not_true, Bool.false_eq_true, if_false, hk, next']
  rfl

/-! Lines whose words need no correction. -/

/-- `t` is `s` but for the map of wrong bits of a cell's stash. -/
structure RewritesBits (s t : State) (c : Nat) : Prop where
  clk : t.clk = s.clk
  region : ∀ r, t.region r = s.region r
  cell : ∀ d, d ≠ c → t.cell d = s.cell d
  stash : (t.cell c).stash = { (s.cell c).stash with bad := (t.cell c).stash.bad }

theorem scrubWords_clean {s : State} {c line : Nat} (written : lineWritten s c line = true) (clean : ∀ w, w < 8 → wrongBits s c line w = 0) :
    scrubWords s c line = s := by
  unfold scrubWords
  rw [if_pos written]
  exact foldl_eq_self fun w hw => scrubWord_clean (clean w (List.mem_range.mp hw))

/-- A line never written gets the checks of its zeros (R392). -/
theorem rewritesBits_unwritten {s : State} {c line : Nat} (unwritten : lineWritten s c line = false) :
    RewritesBits s (scrubWords s c line) c ∧ ∀ k, sget 0 ((scrubWords s c line).cell c).stash.bad k =
      if k ∈ (List.range 8).map fun w => line * 8 + w then 0 else sget 0 (s.cell c).stash.bad k := by
  have eq : scrubWords s c line =
      s.updStash c fun x => { x with bad := (List.range 8).foldl (fun m w => sdel m (line * 8 + w)) x.bad } := by
    unfold scrubWords
    rw [if_neg (by simp [unwritten])]
  rw [eq]
  refine ⟨⟨rfl, fun _ => rfl, fun d hd => ?_, ?_⟩, fun k => ?_⟩
  · rw [State.cell_updStash, if_neg hd.symm]
  · rw [State.cell_updStash, if_pos rfl]
  · rw [State.cell_updStash, if_pos rfl]
    exact sget_foldl_sdel ..

theorem rewritesBits_clean {s : State} {c line : Nat} (clean : ∀ w, w < 8 → wrongBits s c line w = 0) :
    RewritesBits s (scrubWords s c line) c ∧
      ∀ k, sget 0 ((scrubWords s c line).cell c).stash.bad k = sget 0 (s.cell c).stash.bad k := by
  cases written : lineWritten s c line with
  | true =>
    rw [scrubWords_clean written clean]
    exact ⟨⟨rfl, fun _ => rfl, fun _ _ => rfl, rfl⟩, fun _ => rfl⟩
  | false =>
    obtain ⟨rest, bits⟩ := rewritesBits_unwritten written
    refine ⟨rest, fun k => (bits k).trans ?_⟩
    split_ifs with hk
    · obtain ⟨w, hw, rfl⟩ := List.mem_map.mp hk
      exact (clean w (List.mem_range.mp hw)).symm
    · rfl

/-- With nothing marked, such a turn moves on by a line (R391). -/
theorem scrubTurn_rewrites {s : State} {c line : Nat} (bits : RewritesBits s (scrubWords s c line) c) (pair : pairClean s c line)
    (unmarked : (s.cell c).stash.marked = 0) :
    scrubTurn s c line = (scrubWords s c line).updStash c fun x => { x with scrubPos := line + 1 } := by
  unfold scrubTurn
  have pair' : pairClean (scrubWords s c line) c line := by
    unfold pairClean
    rw [bits.stash]
    exact pair
  rw [scrubPair_clean pair', retireGranules_unmarked]
  rw [State.cell_updStash, if_pos rfl, bits.stash]
  exact unmarked

theorem stash_scrubWrap (s : State) (c : Nat) : ((scrubWrap s c).cell c).stash =
    { (s.cell c).stash with
      scrubLog2 := max 8 (min (s.region (regionOf c)).scrubMax (if 2 ≤ (s.cell c).stash.lapCorrected then (s.cell c).stash.scrubLog2 - 1
        else if (s.cell c).stash.lapCorrected = 0 then (s.cell c).stash.scrubLog2 + 1 else (s.cell c).stash.scrubLog2))
      lapCorrected := 0, corrWords := [] } := by
  have adapts (l e : Nat) : (if 2 ≤ l then e - 1 else if l == 0 then e + 1 else e) = if 2 ≤ l then e - 1 else if l = 0 then e + 1 else e := by
    simp only [beq_iff_eq]
  unfold scrubWrap
  extract_lets most s1
  rw [State.cell_updStash, if_pos rfl]
  simp only [adapts]
  rfl

theorem region_scrubWrap (s : State) (c : Nat) :
    (scrubWrap s c).region (regionOf c) = { s.region (regionOf c) with laps := sat16 (s.region (regionOf c)).laps 1 } := by
  unfold scrubWrap
  extract_lets most s1
  rw [State.region_updStash, State.region_updRegion, if_pos rfl]

/-- SCRUB_READ of a clean line (R391, R392). -/
theorem scrubRead_clean {s : State} {c line : Nat} (good : s.goodCell c = true) (next : scrubLine s c = some (line, false))
    (pair : pairClean s c line) (clean : ∀ w, w < 8 → wrongBits s c line w = 0) (unmarked : (s.cell c).stash.marked = 0) :
    let x := (s.cell c).stash
    ∃ t : State, exec (.scrubRead c []) s = .next t ∧ (s.clk.cycles ≤ t.clk.cycles ∧ x.scrubAt + 2 ^ x.scrubLog2 ≤ t.clk.cycles) ∧
      (t.cell c).stash = { x with scrubAt := t.clk.cycles, scrubPos := line + 1, bad := (t.cell c).stash.bad } ∧
      (∀ k, sget 0 (t.cell c).stash.bad k = sget 0 x.bad k) ∧ (∀ d, d ≠ c → t.cell d = s.cell d) := by
  intro x
  obtain ⟨k, later, due, run⟩ := execScrubRead_good good next
  have begun := stash_scrubBegun s c k
  obtain ⟨rest, bits⟩ := rewritesBits_clean (s := scrubBegun s c k) (c := c) (line := line) fun w hw =>
    (wrongBits_scrubBegun s c line w k).trans (clean w hw)
  have turn := scrubTurn_rewrites rest (pairClean_scrubBegun k pair) (by rw [begun]; exact unmarked)
  refine ⟨_, run, ?_⟩
  simp only [Bool.false_eq_true, if_false, turn, State.updStash_clk, State.cell_updStash, if_true, rest.clk]
  refine ⟨⟨later, due⟩, ?_, fun j => (bits j).trans (by rw [begun]), fun d hd => ?_⟩
  · rw [rest.stash, begun]
    rfl
  · rw [if_neg hd.symm, rest.cell d hd, cell_scrubBegun k hd]

/-- SCRUB_READ of the first line of a lap (R393, R394): the interval adapts, the lap counts, and its counts start anew. -/
theorem scrubRead_wrapped {s : State} {c line : Nat} (good : s.goodCell c = true) (next : scrubLine s c = some (line, true))
    (pair : pairClean s c line) (clean : ∀ w, w < 8 → wrongBits s c line w = 0) (unmarked : (s.cell c).stash.marked = 0) :
    let x := (s.cell c).stash
    let k := if 2 ≤ x.lapCorrected then x.scrubLog2 - 1 else if x.lapCorrected = 0 then x.scrubLog2 + 1 else x.scrubLog2
    ∃ t : State, exec (.scrubRead c []) s = .next t ∧ (t.region (regionOf c)).laps = min 0xFFFF ((s.region (regionOf c)).laps + 1) ∧
      (t.cell c).stash.scrubLog2 = max 8 (min (s.region (regionOf c)).scrubMax k) ∧ (t.cell c).stash.lapCorrected = 0 ∧
      (t.cell c).stash.corrWords = [] ∧ (t.cell c).stash.scrubPos = line + 1 ∧ (t.cell c).stash.data = x.data := by
  intro x e
  obtain ⟨k, -, -, run⟩ := execScrubRead_good good next
  set s1 := scrubWrap (scrubBegun s c k) c with hs1
  have wrap : (s1.cell c).stash = _ := stash_scrubWrap (scrubBegun s c k) c
  rw [stash_scrubBegun s c k] at wrap
  obtain ⟨rest, -⟩ := rewritesBits_clean (s := s1) (c := c) (line := line) (by
    unfold wrongBits
    rw [wrap]
    exact clean)
  have turn := scrubTurn_rewrites rest (by unfold pairClean; rw [wrap]; exact pair) (by rw [wrap]; exact unmarked)
  have stash : ((scrubTurn s1 c line).cell c).stash = { ((scrubWords s1 c line).cell c).stash with scrubPos := line + 1 } := by
    rw [turn, State.cell_updStash, if_pos rfl]
  rw [rest.stash, wrap] at stash
  have laps : ((scrubTurn s1 c line).region (regionOf c)).laps = min 0xFFFF ((s.region (regionOf c)).laps + 1) := by
    rw [turn, State.region_updStash, rest.region, hs1, region_scrubWrap]
    rfl
  rw [if_pos rfl] at run
  exact ⟨_, run, laps, (congrArg Stash.scrubLog2 stash :), (congrArg Stash.lapCorrected stash :), (congrArg Stash.corrWords stash :),
    (congrArg Stash.scrubPos stash :), (congrArg Stash.data stash :)⟩

/-- SCRUB_READ of a line never written (R392). -/
theorem scrubRead_unwritten {s : State} {c line : Nat} (good : s.goodCell c = true) (next : scrubLine s c = some (line, false))
    (pair : pairClean s c line) (unwritten : lineWritten s c line = false) (unmarked : (s.cell c).stash.marked = 0) :
    let x := (s.cell c).stash
    ∃ t : State, exec (.scrubRead c []) s = .next t ∧ (∀ w, w < 8 → sget 0 (t.cell c).stash.bad (line * 8 + w) = 0) ∧
      (t.cell c).stash = { x with scrubAt := t.clk.cycles, scrubPos := line + 1, bad := (t.cell c).stash.bad } := by
  intro x
  obtain ⟨k, -, -, run⟩ := execScrubRead_good good next
  have begun := stash_scrubBegun s c k
  obtain ⟨rest, bits⟩ := rewritesBits_unwritten (s := scrubBegun s c k) (c := c) (line := line)
    ((lineWritten_scrubBegun s c line k).trans unwritten)
  have turn := scrubTurn_rewrites rest (pairClean_scrubBegun k pair) (by rw [begun]; exact unmarked)
  refine ⟨_, run, ?_⟩
  simp only [Bool.false_eq_true, if_false, turn, State.updStash_clk, State.cell_updStash, if_true, rest.clk]
  refine ⟨fun w hw => (bits _).trans (if_pos (List.mem_map_of_mem (List.mem_range.mpr hw))), ?_⟩
  rw [rest.stash, begun]
  rfl

/-! Lines with one wrong word. -/

/-- Of a written line one word alone is treated, where treating it leaves the others clean. -/
theorem scrubWords_one {s : State} {c line w : Nat} (written : lineWritten s c line = true) (hw : w < 8)
    (clean : ∀ v, v < 8 → v ≠ w → wrongBits s c line v = 0)
    (after : ∀ v, v < 8 → v ≠ w → wrongBits (scrubWord c line s w) c line v = 0) : scrubWords s c line = scrubWord c line s w := by
  unfold scrubWords
  rw [if_pos written]
  exact foldl_eq_one (List.mem_range.mpr hw) List.nodup_range
    (fun v hv ne => scrubWord_clean (clean v (List.mem_range.mp hv) ne)) fun v hv ne => scrubWord_clean (after v (List.mem_range.mp hv) ne)

/-- SCRUB_READ of a line with one wrong bit in one word (R392, R394). -/
theorem scrubRead_corrected {s : State} {c line w : Nat} (good : s.goodCell c = true) (next : scrubLine s c = some (line, false))
    (pair : pairClean s c line) (written : lineWritten s c line = true) (hw : w < 8)
    (clean : ∀ v, v < 8 → v ≠ w → wrongBits s c line v = 0) (one : popcount 72 (wrongBits s c line w) = 1) :
    let x := (s.cell c).stash
    ∃ t : State, exec (.scrubRead c []) s = .next t ∧ sget 0 (t.cell c).stash.bad (line * 8 + w) = 0 ∧
      (t.cell c).stash.corrected = min 0xFFFF (x.corrected + 1) ∧ (t.cell c).stash.lapCorrected = x.lapCorrected + 1 ∧
      (t.cell c).stash.data = x.data ∧ (t.cell c).stash.scrubPos = line + 1 := by
  intro x
  obtain ⟨k, -, -, run⟩ := execScrubRead_good good next
  have begun := stash_scrubBegun s c k
  have bits (v : Nat) := wrongBits_scrubBegun s c line v k
  have written' := (lineWritten_scrubBegun s c line k).trans written
  set u := scrubBegun s c k
  have one' : popcount 72 (wrongBits u c line w) = 1 := by rw [bits]; exact one
  have word := scrubWord_single one'
  obtain ⟨corrWords, marked, stash⟩ := stash_countCorrected (u.updStash c fun x =>
    { x with bad := sdel x.bad (line * 8 + w), lapCorrected := x.lapCorrected + 1 }) c (line * 8 + w)
  rw [← word, State.cell_updStash, if_pos rfl, begun] at stash
  have words := scrubWords_one written' hw (fun v hv ne => (bits v).trans (clean v hv ne)) fun v hv ne => by
    unfold wrongBits
    rw [stash]
    dsimp only
    rw [sget_sdel, if_neg (by omega)]
    exact clean v hv ne
  have turn : scrubTurn u c line = retireGranules ((scrubWord c line u w).updStash c fun x => { x with scrubPos := line + 1 }) c := by
    unfold scrubTurn
    rw [words, scrubPair_clean]
    unfold pairClean
    rw [stash]
    exact pair
  have kept := stash_retireGranules ((scrubWord c line u w).updStash c fun x => { x with scrubPos := line + 1 }) c c
  rw [← turn, State.cell_updStash, if_pos rfl, stash] at kept
  refine ⟨_, run, ?_, ?_, ?_, ?_, ?_⟩
  · refine (congrArg (fun x : Stash => sget 0 x.bad (line * 8 + w)) kept).trans ?_
    exact (sget_sdel ..).trans (if_pos rfl)
  · exact (congrArg Stash.corrected kept :)
  · exact (congrArg Stash.lapCorrected kept :)
  · exact (congrArg Stash.data kept :)
  · exact (congrArg Stash.scrubPos kept :)

/-- SCRUB_READ of a line with more wrong bits in one word, of a cell that a job holds (R392, R394). -/
theorem scrubRead_uncorrectable {s : State} {c line w : Nat} (good : s.goodCell c = true) (next : scrubLine s c = some (line, false))
    (pair : pairClean s c line) (written : lineWritten s c line = true) (hw : w < 8)
    (clean : ∀ v, v < 8 → v ≠ w → wrongBits s c line v = 0) (many : 2 ≤ popcount 72 (wrongBits s c line w)) (held : s.heldBy c ≠ []) :
    let x := (s.cell c).stash
    ∃ t : State, exec (.scrubRead c []) s = .next t ∧ (t.region (regionOf c)).stsUncorr = true ∧ (t.cell c).stash.bad = x.bad ∧
      (t.cell c).stash.marked = x.marked ||| 2 ^ (line / 256) ∧ (t.cell c).stash.data = x.data ∧ (t.cell c).stash.scrubPos = line + 1 := by
  intro x
  obtain ⟨k, -, -, run⟩ := execScrubRead_good good next
  have begun := stash_scrubBegun s c k
  have bits (v : Nat) := wrongBits_scrubBegun s c line v k
  have written' := (lineWritten_scrubBegun s c line k).trans written
  set u := scrubBegun s c k
  have many' : 2 ≤ popcount 72 (wrongBits u c line w) := by rw [bits]; exact many
  have word := scrubWord_double many'
  set m := markGranule (u.updRegion (regionOf c) fun r => { r with stsUncorr := true }) c (line / 256) with hm
  have raises : Raises m (scrubWord c line u w) := by
    rw [word]
    exact raises_raiseCell ..
  have stash : ((scrubWord c line u w).cell c).stash = { x with scrubAt := k.cycles, marked := x.marked ||| 2 ^ (line / 256) } := by
    rw [raises.stash, hm, markGranule, State.cell_updStash, if_pos rfl, State.cell_updRegion, begun]
  have words := scrubWords_one written' hw (fun v hv ne => (bits v).trans (clean v hv ne)) fun v hv ne => by
    unfold wrongBits
    rw [stash]
    exact clean v hv ne
  have turn : scrubTurn u c line = (scrubWord c line u w).updStash c fun x => { x with scrubPos := line + 1 } := by
    unfold scrubTurn
    rw [words, scrubPair_clean, retireGranules_held]
    · rw [heldBy_updStash, raises.heldBy, hm, markGranule, heldBy_updStash]
      exact held
    · unfold pairClean
      rw [stash]
      exact pair
  refine ⟨_, run, ?_⟩
  simp only [Bool.false_eq_true, if_false, turn, State.region_updStash, State.cell_updStash, if_true, stash]
  refine ⟨?_, trivial, trivial, trivial, trivial⟩
  have uncorr : ((scrubWord c line u w).region (regionOf c)).stsUncorr = (m.region (regionOf c)).stsUncorr :=
    (congrArg RegionSt.stsUncorr (raises.region (regionOf c)) :)
  rw [uncorr, hm, markGranule, State.region_updStash, State.region_updRegion, if_pos rfl]

end Sys2Proof.Machine
end

section
/-! ### The two obligations of the family -/

namespace Sys2Proof.Machine

open Sys2Proof

theorem scrubRead_bad {s : State} {c : Nat} (bad : s.goodCell c = false) : exec (.scrubRead c []) s = .next s := by
  show execScrubRead c [] s = _
  simp only [execScrubRead, show injectAll s [] = s from rfl, bad, Bool.not_false, if_true]

/-- STS_FLIP_ARM arms before LOCK, at a good cell whose registers are reached (R396). -/
theorem stsFlipArm_law (c : Nat) (s : State) : exec (.stsFlipArm c) s = .next (
    if s.rst.locked = false ∧ s.goodCell c = true ∧ reach s (cellBase c + 0x290) ≠ .dead
    then s.updStash c fun x => { x with flipArmed := true } else s) := by
  show execStsFlipArm c s = _
  unfold execStsFlipArm
  congr 1
  by_cases locked : s.rst.locked = true <;> by_cases good : s.goodCell c = true <;>
    by_cases dead : reach s (cellBase c + 0x290) = .dead <;> simp [locked, good, dead]

/-- Settles O48: the scrubber's cases by the line it reads, the end of a bond test by what it found, and the survey's rows. That three and
more wrong bits are uncorrectable is log entry 23, the moment of a slot's programming and what a failed write leaves log entry 38, and
what the counts of corrections take in log entry 48: the model's choices. -/
theorem stashesScrubAndTheSurveyFollows : Obligations.StashesScrubAndTheSurveyFollows := by
  unfold Obligations.StashesScrubAndTheSurveyFollows
  refine ⟨fun c s bad => scrubRead_bad bad, fun c line wrapped s => ?_, fun c west bonds s => ?_, stsFlipArm_law, svyFenceReq_law, surveyCommit_law⟩
  · intro x good next pair
    refine ⟨?_, ?_, ?_, ?_⟩
    · rintro rfl clean unmarked
      exact scrubRead_clean good next pair clean unmarked
    · rintro rfl clean unmarked
      exact scrubRead_wrapped good next pair clean unmarked
    · rintro rfl unwritten unmarked
      exact scrubRead_unwritten good next pair unwritten unmarked
    · rintro w rfl hw written clean
      exact ⟨fun one => scrubRead_corrected good next pair written hw clean one,
        fun many held => scrubRead_uncorrectable good next pair written hw clean many held⟩
  · exact bondTestEnd_law c west bonds s

/-! A test record found bad while another error is being handled. -/

/-- What an outcome's state has sent out of the part. -/
def sentBy : Host.Outcome State Fault Refusal → List Out
  | .next t => t.out
  | _ => []

/-- A part at the first step of bring-up whose test record was never committed, while the chip's controller still handles an earlier
STEP_FAILED, and the management controller has addressed the part and enabled in-band interrupts. -/
def uncommittedTest : State :=
  { State.reset with
    keep := { test := { NorSlot.test with commit := 0xFF } }
    err := { handling := [⟨3, chipUnit 0 0, 0x3401, 1024⟩] }
    sb := { dynAddr := some 8, ibiEnable := true } }

/-- RECORD_INVALID is a second error there, which becomes an X record (R626, R627); its side-band copy is the first in the FIFO, and
raises an in-band interrupt (R640, R699). -/
theorem clocks_uncommittedTest_sends_ibi : sentBy (exec (.clocks false) uncommittedTest) = [.ibi 2] := by decide +kernel

/-- Refutes O54: with a bad test record CLOCKS is said to send nothing out of the part, for every state; but where the record's error
meets one still being handled, it sends an in-band interrupt. -/
theorem not_bringUpStepsDoTheirWork : ¬ Obligations.BringUpStepsDoTheirWork := by
  unfold Obligations.BringUpStepsDoTheirWork
  intro h
  obtain ⟨-, hclocks, -⟩ := h
  obtain ⟨-, -, hbad⟩ := hclocks uncommittedTest false (by decide)
  obtain ⟨t, ht, -, -, hout⟩ := hbad rfl (by decide)
  have hsent : t.out = [.ibi 2] := by
    simpa only [ht, sentBy] using clocks_uncommittedTest_sends_ibi
  rw [hout] at hsent
  exact absurd hsent (by decide)

end Sys2Proof.Machine
end

section
/-! ### The sheet instructions and the end of a cell's sheet (R66, R81, R181) -/

namespace Sys2Proof.Machine

open Sys2Proof

/-- A trace record changes the regions, the counters and the drop counts alone. -/
theorem traceRec_rest (s : State) (r kind unit : Nat) (p : List Nat) :
    { traceRec s r kind unit p with regions := s.regions, mon := s.mon, err := s.err } = s := by
  unfold traceRec
  dsimp only
  split_ifs <;> rfl

theorem cell_traceRec (s : State) (r kind unit : Nat) (p : List Nat) (c : Nat) : (traceRec s r kind unit p).cell c = s.cell c :=
  (congrArg (State.cell · c) (traceRec_rest s r kind unit p) :)

theorem sheetEnd_law {c : Nat} {s : State} {x : Ctx} (ready : readyCtx 0x00 c [] s = some x) :
    exec (.sheetEnd c) s = .next ((issued s x []).updSeq c fun q => { q with ended := true, yields := x.i.x }) := by
  show execSheetEnd c s = _
  unfold execSheetEnd
  exact issue_ready_nil _ ready

theorem sheetNop_law {c : Nat} {s : State} {x : Ctx} (ready : readyCtx 0x02 c [] s = some x) :
    exec (.sheetNop c) s = .next (issued s x []) := by
  show execSheetNop c s = _
  unfold execSheetNop
  exact issue_ready_nil _ ready

theorem sheetForecast_law {c : Nat} {s : State} {x : Ctx} (ready : readyCtx 0x01 c [] s = some x) :
    exec (.sheetForecast c) s = .next (if x.j.image.sheetCount < x.j.sheet + 4 then issued s x []
      else (issued s x []).updJob x.j.id fun k => { k with forecasts := sput k.forecasts (x.j.sheet + 4) x.i.opb }) := by
  show execSheetForecast c s = _
  unfold execSheetForecast
  exact issue_ready_nil _ ready

/-- SHEET_END_DONE of a cell with nothing under way: the cell counts as done from now, and the part takes note of it. -/
theorem sheetEndDone_law {c : Nat} {s : State} {j : Job} (job : s.job? (s.cell c).seq.job = some j)
    (ended : (s.cell c).seq.ended = true) (going : (s.cell c).seq.done = false) (idle : (s.cell c).seq.flight = []) :
    ∃ u : State, exec (.sheetEndDone c) s = .next (agree u.noteDone) ∧
      (u.cell c).seq = { (s.cell c).seq with done := true, doneAt := s.clk.cycles } ∧ (∀ d, d ≠ c → u.cell d = s.cell d) ∧
      { u with cells := s.cells, regions := s.regions, mon := s.mon, err := s.err } = s := by
  set t := s.updSeq c fun q => { q with done := true, doneAt := s.clk.cycles } with ht
  refine ⟨traceRec t (regionOf c) 1 c [j.sheet, b2n (s.cell c).seq.yields], ?_, ?_, fun d hd => ?_, ?_⟩
  · show execSheetEndDone c s = _
    simp [execSheetEndDone, job, ended, going, idle, ht]
  · simp [cell_traceRec, ht]
  · simp [cell_traceRec, ht, Ne.symm hd]
  · exact congrArg (fun x : State => { x with cells := s.cells }) (traceRec_rest t ..)

/-- Settles O8: the three forms carry out their own effect on the issued state, and the completion of SHEET.END is the cell's note. -/
theorem sheetInstructionsComplete : Obligations.SheetInstructionsComplete := by
  unfold Obligations.SheetInstructionsComplete
  exact fun c s x j => ⟨sheetEnd_law, sheetNop_law, sheetForecast_law, sheetEndDone_law⟩

end Sys2Proof.Machine
end

section
/-! ### What leaves the open sheet alone

The clock, the registers of the open sheet (R64 to R79) and the mark of a lost neighbour (R537) are the tick's to change. Here: that
nothing else a tick carries out changes them. -/

namespace Sys2Proof.Machine

open Sys2Proof

/-- The sheet's registers but for three notes: when the last cell was done, a forecast missed, done told to the group. -/
def Sht.core (x : Sht) : Sht := { x with lastDone := none, forecastMissing := false, doneSent := none }

/-- `t` is `s` after events that take no time and leave the open sheet as it was. -/
structure KeepsSheet (s t : State) : Prop where
  clk : t.clk = s.clk
  sht : t.sht.core = s.sht.core
  lost : t.grp.neighbourLost = s.grp.neighbourLost

namespace KeepsSheet

theorem refl (s : State) : KeepsSheet s s := ⟨rfl, rfl, rfl⟩

theorem trans {s t u : State} (h : KeepsSheet s t) (k : KeepsSheet t u) : KeepsSheet s u :=
  ⟨k.clk.trans h.clk, k.sht.trans h.sht, k.lost.trans h.lost⟩

/-- What is written beside the clock, the sheet and the group's agreement. -/
theorem note (s : State) (freeCtr : Nat) (out : List Out) (rst : Rst) (keep : Persist) (sb : SideBand) (plan : Plan) (svy : Svy) (err : Err)
    (mon : Mon) (hif : Hif) (jobs : List Job) (clearing : List Clear) (tables : List TableSt) (cells : Sparse CellSt)
    (blocks : Sparse BlockSt) (regions : Sparse RegionSt) (columns : Sparse ColumnSt) (stk : Sparse StackSt) (syn : Syn)
    (reds : List RedGroup) (ports : Sparse Port) (rings : List RingOut) (ringsIn : List RingIn) (pwr : Pwr) (thm : Thm) :
    KeepsSheet s { s with
      freeCtr, out, rst, keep, sb, plan, svy, err, mon, hif, jobs, clearing, tables, cells, blocks, regions, columns, stk, syn, reds, ports
      grp := { s.grp with rings, ringsIn }, pwr, thm } := ⟨rfl, rfl, rfl⟩

/-- The last step first, as a term that ends in it is read. -/
theorem after {s t u : State} (k : KeepsSheet t u) (h : KeepsSheet s t) : KeepsSheet s u := h.trans k

theorem foldl {β : Type} {f : State → β → State} {l : List β} {s : State} (h : ∀ s x, KeepsSheet s (f s x)) :
    KeepsSheet s (l.foldl f s) := by
  induction l generalizing s with
  | nil => exact refl s
  | cons x l ih => exact (h s x).trans ih

theorem ite {s t u : State} {p : Prop} {dec : Decidable p} (h : KeepsSheet s t) (k : KeepsSheet s u) :
    KeepsSheet s (if p then t else u) := by
  split
  · exact h
  · exact k

end KeepsSheet

theorem Raises.keepsSheet {s t : State} (h : Raises s t) : KeepsSheet s t where
  clk := h.clk
  sht := (congrArg Sht.core h.sht :)
  lost := (congrArg Grp.neighbourLost h.grp :)

/-! Trace records, cairns. -/

theorem keepsSheet_traceRec (s : State) (r kind unit : Nat) (p : List Nat) : KeepsSheet s (traceRec s r kind unit p) :=
  have h := traceRec_rest s r kind unit p
  ⟨(congrArg State.clk h :), (congrArg (·.sht.core) h :), (congrArg (·.grp.neighbourLost) h :)⟩

theorem keepsSheet_cairnCorrected (s : State) (n copy : Nat) : KeepsSheet s (cairnCorrected s n copy) := by
  unfold cairnCorrected
  dsimp only
  split_ifs
  · exact .after (raises_raiseChip ..).keepsSheet (.note ..)
  · exact .after (raises_raise ..).keepsSheet (.note ..)

theorem keepsSheet_scanMaster (s : State) (n : Nat) : KeepsSheet s (scanMaster s n) :=
  .ite (.refl s) (.ite (keepsSheet_cairnCorrected s n 32) (raises_raiseChip ..).keepsSheet)

theorem keepsSheet_fixCopy (s : State) (n r : Nat) : KeepsSheet s (fixCopy s n r) := by
  have h := keepsSheet_scanMaster s n
  exact .ite (.refl s) (.ite (keepsSheet_cairnCorrected s n r) (.ite h (.after (keepsSheet_cairnCorrected ..) (h.trans (.note ..)))))

theorem keepsSheet_wakeCell (s : State) (c : Nat) (w : Wait) : KeepsSheet s (wakeCell s c w) :=
  .after (keepsSheet_traceRec ..) (.note ..)

theorem keepsSheet_fireWire (s : State) (r n : Nat) : KeepsSheet s (fireWire s r n) := by
  unfold fireWire
  extract_lets onWire s1
  have h1 : KeepsSheet s s1 := .foldl (fun t e => by
    split
    · exact keepsSheet_fixCopy ..
    · exact .refl t)
  refine h1.trans (.foldl fun t e => ?_)
  split
  · exact .ite (keepsSheet_wakeCell ..) (.note ..)
  · exact .refl t

theorem keepsSheet_changeCairn (s : State) (n copy v : Nat) : KeepsSheet s (changeCairn s n copy v) :=
  .ite (.note ..) (.after (keepsSheet_fireWire ..) (.note ..))

theorem keepsSheet_scanCairn (s : State) (n copy : Nat) : KeepsSheet s (scanCairn s n copy) := by
  have h := keepsSheet_fixCopy s n copy
  exact .ite (keepsSheet_scanMaster s n) (.ite h (h.trans (keepsSheet_fireWire ..)))

theorem keepsSheet_arrive (s : State) (n copy amount : Nat) : KeepsSheet s (arrive s n copy amount) :=
  .ite (keepsSheet_changeCairn ..) (.refl s)

theorem keepsSheet_wrapCairn (s : State) (n src : Nat) : KeepsSheet s (wrapCairn s n src) :=
  .after (.foldl (fun t k => keepsSheet_changeCairn t n k _)) (.after (raises_raiseChip ..).keepsSheet (.note ..))

theorem keepsSheet_addMaster (s : State) (n amount src : Nat) : KeepsSheet s (addMaster s n amount src) := by
  unfold addMaster
  extract_lets s1
  have h : KeepsSheet s s1 := (keepsSheet_scanMaster s n).trans (keepsSheet_arrive ..)
  clear_value s1
  exact .ite (keepsSheet_wrapCairn ..) (h.trans (.note ..))

theorem keepsSheet_addForJob (s : State) (j : Job) (n amount src : Nat) : KeepsSheet s (addForJob s j n amount src).2 := by
  unfold addForJob
  split_ifs
  · exact .refl s
  · exact .note ..
  · exact keepsSheet_addMaster s n amount src

theorem keepsSheet_drainCairns (s : State) (base n : Nat) : KeepsSheet s (drainCairns s base n) :=
  .after (.foldl (fun t e => (keepsSheet_scanCairn t e.1 e.2.1).trans (keepsSheet_arrive ..))) (.note ..)

/-! Descriptors and their completions. -/

theorem keepsSheet_hostFail (s : State) (kind ring pos addr : Nat) : KeepsSheet s (hostFail s kind ring pos addr) :=
  .after (raises_raiseChip ..).keepsSheet (.note ..)

theorem keepsSheet_moderate (s : State) (v : Nat) : KeepsSheet s (moderate s v) :=
  .ite (raises_sendVector s v).keepsSheet (.note ..)

theorem keepsSheet_updDesc (s : State) (d : Desc) (f : Desc → Desc) : KeepsSheet s (updDesc s d f) := .note ..

theorem keepsSheet_complete (s : State) (d : Desc) (status detail : Nat) : KeepsSheet s (complete s d status detail) := by
  unfold complete
  dsimp only
  split_ifs
  · exact .note ..
  · exact .after (keepsSheet_hostFail ..) (.note ..)
  · exact .after (raises_sendVector ..).keepsSheet (.note ..)
  · exact .after (keepsSheet_moderate ..) (.note ..)

theorem keepsSheet_completeOk (s : State) (d : Desc) (status detail : Nat) : KeepsSheet s (completeOk s d status detail) := by
  unfold completeOk
  split_ifs
  · split
    · next j _ =>
      have h := keepsSheet_addForJob s j (dSigCairn d.raw) (dSigAdd d.raw) (srcDesc d.ring (d.count % ringSize (s.ring d.ring)))
      exact h.trans (.ite (keepsSheet_complete ..) (keepsSheet_updDesc ..))
    · exact keepsSheet_complete ..
  · exact keepsSheet_complete ..

theorem keepsSheet_completeNamed (s : State) (d : Desc) (status : Nat) : KeepsSheet s (completeNamed s d status) :=
  .ite (keepsSheet_updDesc ..) (keepsSheet_complete ..)

theorem keepsSheet_finishCopy (s : State) (d : Desc) : KeepsSheet s (finishCopy s d) :=
  .ite (.refl s) (.ite (keepsSheet_complete ..) (.ite (.ite (keepsSheet_completeNamed ..) (keepsSheet_complete ..))
    (.ite (.refl s) (keepsSheet_completeOk ..))))

theorem keepsSheet_endDesc (j : Job) (s : State) (d : Desc) : KeepsSheet s (endDesc j s d) := by
  unfold endDesc
  split_ifs
  · exact .refl s
  · split
    · exact (keepsSheet_updDesc ..).trans (keepsSheet_finishCopy ..)
    · exact keepsSheet_updDesc ..
    · exact .refl s
    · exact keepsSheet_complete ..

theorem keepsSheet_endUnbegun (s : State) : KeepsSheet s (endUnbegun s) := by
  refine .ite (.refl s) (.foldl fun t d => ?_)
  split
  · exact keepsSheet_complete ..
  · exact .ite (.refl t) (keepsSheet_complete ..)
  · exact .refl t

theorem keepsSheet_flushJobs (s : State) : KeepsSheet s (flushJobs s) := by
  refine .foldl fun t d => ?_
  split
  · exact .ite (keepsSheet_complete ..) (.refl t)
  · exact keepsSheet_completeNamed ..
  · exact .refl t

theorem keepsSheet_switchTable (s : State) (t : TableSt) : KeepsSheet s (switchTable s t) := by
  unfold switchTable
  split
  · exact .refl s
  · extract_lets new s1 fin
    have hfin (st : Nat) (u : State) (e : Nat × Nat) : KeepsSheet u (fin st u e) := by
      unfold fin
      split
      · exact keepsSheet_completeOk ..
      · exact .refl u
    exact .after (hfin ..) (.after (.foldl (hfin 1)) (.note ..))

/-! Fences, republications and retired granules. -/

theorem keepsSheet_surveyChange (s : State) : KeepsSheet s (surveyChange s) := by
  unfold surveyChange
  split
  · exact .refl s
  · exact .ite (.note ..) (.note ..)

theorem keepsSheet_republish (s : State) (gen : Nat) : KeepsSheet s (republish s gen) :=
  (keepsSheet_surveyChange s).trans (.ite (.after (raises_raiseChip ..).keepsSheet (.note ..)) (.refl _))

theorem keepsSheet_fenceBlockPlan (s : State) (b reason : Nat) : KeepsSheet s (fenceBlockPlan s b reason) := by
  have h := (raises_endHolders s (blockCells b)).keepsSheet
  exact .ite (.refl s) (.after (raises_noteDone _).keepsSheet (h.trans (.note ..)))

theorem keepsSheet_fenceCellPlan (s : State) (c reason : Nat) : KeepsSheet s (fenceCellPlan s c reason) := by
  have h := (raises_endHolders s [c]).keepsSheet
  have h1 : KeepsSheet s ((endHolders s [c]).updCellPlan c fun p => { p with reason }).noteDone :=
    .after (raises_noteDone _).keepsSheet (h.trans (.note ..))
  exact .ite (.refl s) (.ite (h1.trans (keepsSheet_fenceBlockPlan ..)) h1)

theorem keepsSheet_fenceRegionPlan (s : State) (r reason : Nat) : KeepsSheet s (fenceRegionPlan s r reason) := by
  have h := (raises_endHolders s ((upto (r * 12) 12).flatMap blockCells)).keepsSheet
  exact .ite (.refl s) (.after (raises_noteDone _).keepsSheet (h.trans (.note ..)))

theorem keepsSheet_applyRequest (s : State) : KeepsSheet s (applyRequest s) := by
  unfold applyRequest
  split
  · exact .refl s
  · refine .ite (.refl s) ?_
    dsimp only
    split
    · exact .after (.ite (.refl _) ((keepsSheet_fenceCellPlan ..).trans (keepsSheet_republish ..))) (.note ..)
    · exact .after (.ite (.refl _) ((keepsSheet_fenceBlockPlan ..).trans (keepsSheet_republish ..))) (.note ..)
    · exact .after (.ite (.refl _) ((keepsSheet_fenceRegionPlan ..).trans (keepsSheet_republish ..))) (.note ..)

theorem keepsSheet_retireGranules (s : State) (c : Nat) : KeepsSheet s (retireGranules s c) := by
  unfold retireGranules
  extract_lets gs gen s1
  have h1 : KeepsSheet s s1 := .foldl (fun t g => .after (raises_raiseCell ..).keepsSheet (.note ..))
  exact .ite (.refl s) (.ite (.refl s) (.after (keepsSheet_republish ..) (h1.trans (.ite (keepsSheet_fenceCellPlan ..) (.refl _)))))

/-! Jobs leave, are switched out, and go on. -/

theorem keepsSheet_endClear (s : State) (k : Clear) : KeepsSheet s (endClear s k) :=
  .ite (.refl s) (.after (.foldl (fun _ _ => .note ..)) (.note ..))

theorem keepsSheet_endSave (s : State) (job : Nat) : KeepsSheet s (endSave s job) :=
  .after (.foldl keepsSheet_endClear) (.note ..)

theorem keepsSheet_takeCells (s : State) (j : Job) : KeepsSheet s (takeCells s j) :=
  .foldl (fun t _ => .ite (.note ..) (.refl t))

theorem keepsSheet_releaseJob (s : State) (j : Job) (holds : Bool) : KeepsSheet s (releaseJob s j holds) := by
  unfold releaseJob
  extract_lets s1 s2 cancel s3 s4
  have h1 : KeepsSheet s s1 := .foldl (keepsSheet_endDesc j)
  have h2 : KeepsSheet s s2 := h1.trans (.note ..)
  have h3 : KeepsSheet s s3 := h2.trans (.foldl (fun _ _ => .note ..))
  have h4 : KeepsSheet s s4 := h3.trans (.ite (keepsSheet_takeCells ..) (.refl _))
  exact .after (.foldl keepsSheet_retireGranules) (.after (keepsSheet_endSave ..) (h4.trans (.note ..)))

theorem keepsSheet_dropJob (s : State) (j : Job) : KeepsSheet s (dropJob s j) :=
  (keepsSheet_releaseJob ..).trans (keepsSheet_applyRequest _)

theorem keepsSheet_finishJob (s : State) (j : Job) (status seq : Nat) : KeepsSheet s (finishJob s j status seq) := by
  unfold finishJob
  extract_lets ran s1 _ s2 s3
  have h1 : KeepsSheet s s1 := keepsSheet_releaseJob ..
  have h2 : KeepsSheet s s2 := h1.trans (.note ..)
  have h3 : KeepsSheet s s3 := h2.trans (.ite (.note ..) (.refl _))
  split
  · exact h3.trans (keepsSheet_updDesc ..)
  · exact h3

theorem keepsSheet_finishEnded (s : State) (id : Nat) : KeepsSheet s (finishEnded s id) := by
  unfold finishEnded
  split
  · exact .refl s
  · split
    · exact keepsSheet_finishJob ..
    · exact .refl s

theorem keepsSheet_takeHead (s : State) (j : Job) : KeepsSheet s (takeHead s j) := by
  have h := (keepsSheet_drainCairns s j.params.cairnBase j.params.cairnCount).trans
    (.foldl (l := upto j.params.cairnBase j.params.cairnCount) keepsSheet_scanMaster)
  exact h.trans (.note ..)

theorem keepsSheet_preempt (s : State) (j : Job) : KeepsSheet s (preempt s j) := by
  unfold preempt
  extract_lets liveAt kept j' need s1 s2 _ s3 s4
  have h1 : KeepsSheet s s1 := .after (keepsSheet_takeHead ..) (.note ..)
  have h3 : KeepsSheet s s3 := h1.trans (.note ..)
  have h4 : KeepsSheet s s4 := h3.trans (keepsSheet_takeCells ..)
  exact .ite ((raises_raiseChip ..).keepsSheet.trans (keepsSheet_finishEnded ..))
    (.ite (h1.trans (keepsSheet_finishEnded ..)) (h4.trans (.note ..)))

theorem keepsSheet_nextSheet (s : State) (j : Job) : KeepsSheet s (nextSheet s j) :=
  .after (.foldl (fun _ _ => .note ..)) (.note ..)

theorem keepsSheet_beginPrepare (s : State) (j : Job) : KeepsSheet s (beginPrepare s j) := by
  have h : KeepsSheet s (giveCells s j) := .foldl (fun _ _ => .note ..)
  exact h.trans (.note ..)

theorem keepsSheet_tickEnded (s : State) (id : Nat) : KeepsSheet s (tickEnded s id) := by
  unfold tickEnded
  split
  · exact .ite (.refl s) (keepsSheet_finishEnded ..)
  · exact .refl s

theorem keepsSheet_tickRunning (noYield : Nat) (s : State) (id : Nat) : KeepsSheet s (tickRunning noYield s id) := by
  unfold tickRunning
  split
  · exact .refl s
  · next j _ =>
    have h : KeepsSheet s (checkForecast s j) := .ite ⟨rfl, rfl, rfl⟩ (.refl s)
    exact .ite (.refl s) (.ite (keepsSheet_finishEnded ..) (.ite (keepsSheet_finishJob ..)
      (h.trans (.ite (keepsSheet_preempt ..) (keepsSheet_nextSheet ..)))))

theorem keepsSheet_tickPreempted (s : State) (id : Nat) : KeepsSheet s (tickPreempted s id) := by
  unfold tickPreempted
  split
  · exact .refl s
  · exact .ite (.refl s) (.note ..)

theorem keepsSheet_tickClaiming (s : State) (id : Nat) : KeepsSheet s (tickClaiming s id) := by
  unfold tickClaiming
  split
  · exact .refl s
  · refine .ite (.refl s) (.ite ?_ (.after (keepsSheet_beginPrepare ..) (.note ..)))
    dsimp only
    split
    · exact (keepsSheet_dropJob ..).trans (keepsSheet_complete ..)
    · exact keepsSheet_dropJob ..

/-! Flits sent. -/

theorem keepsSheet_announce (s : State) : KeepsSheet s (announce s) := .foldl (fun _ _ => .note ..)

theorem keepsSheet_announceNew (s : State) : KeepsSheet s (announceNew s) := .foldl (fun _ _ => .note ..)

theorem keepsSheet_sendControl (s : State) (p ckind event : Nat) (fields : Bytes) : KeepsSheet s (sendControl s p ckind event fields) :=
  (.note ..)

theorem keepsSheet_ringFinish (s : State) (r : RingIn) : KeepsSheet s (ringFinish s r) := by
  unfold ringFinish
  extract_lets _ s1 s2
  have h1 : KeepsSheet s s1 := .note ..
  have h2 : KeepsSheet s s2 := h1.trans (by
    unfold s2
    split
    · exact .ite (keepsSheet_addForJob ..) (.refl _)
    · exact .refl _)
  refine .ite (.refl s) (.ite h1 (h2.trans ?_))
  unfold sendDone
  split
  · exact keepsSheet_sendControl ..
  · exact .refl _

theorem keepsSheet_tickReady (s : State) (id : Nat) : KeepsSheet s (tickReady s id) := by
  unfold tickReady
  split
  · exact .refl s
  · next j _ =>
    refine .ite (.refl s) (.ite ((KeepsSheet.foldl keepsSheet_ringFinish).trans (keepsSheet_nextSheet ..)) (.ite (.refl s) ?_))
    dsimp only
    split
    · exact .after (keepsSheet_nextSheet ..) (.note ..)
    · exact .after (keepsSheet_nextSheet ..) (.note ..)

theorem keepsSheet_tickJobs (s : State) (noYield : Nat) : KeepsSheet s (tickJobs s noYield) :=
  .after (.foldl keepsSheet_tickReady) (.after (.foldl keepsSheet_tickClaiming) (.after (.foldl keepsSheet_tickPreempted)
    (.after (.foldl (keepsSheet_tickRunning noYield)) (.foldl keepsSheet_tickEnded))))

/-! Pace, heat, regions, resets and the group at a tick. -/

theorem keepsSheet_errSummary (s : State) : KeepsSheet s (errSummary s) :=
  .ite (.refl s) (.after (raises_raiseChip ..).keepsSheet (.note ..))

theorem keepsSheet_switchSurvey (s : State) : KeepsSheet s (switchSurvey s) := by
  unfold switchSurvey
  split
  · exact .refl s
  · exact .ite (.refl s) (.ite (.note ..) (.note ..))

theorem keepsSheet_paceHistory (s : State) (new term : Nat) (emerg : Bool) : KeepsSheet s (paceHistory s new term emerg) := .note ..

theorem keepsSheet_tickPace (s : State) (groupPace : Option Nat) : KeepsSheet s (tickPace s groupPace) := by
  unfold tickPace
  extract_lets agreed _ s1 _ s2
  have h2 : KeepsSheet s s2 := by
    unfold s2
    split
    · extract_lets t u
      have ht : KeepsSheet s t := .note ..
      have hu : KeepsSheet s u := ht.trans (keepsSheet_paceHistory ..)
      clear_value u t
      exact .ite ht (hu.trans (.note ..))
    · exact .note ..
  clear_value s2
  exact .ite (.refl s) (h2.trans (.note ..))

theorem keepsSheet_storeEstimate (dt : Nat) (s : State) (c : Nat) : KeepsSheet s (storeEstimate dt s c) := by
  have mark (u : State) (n : Nat) : KeepsSheet u (markSensor u n) := .ite (.note ..) (.note ..)
  unfold storeEstimate
  extract_lets watts t g run was s1 gen head fresh s2 s3
  have h1 : KeepsSheet s s1 := .note ..
  have h2 : KeepsSheet s s2 := .after (.foldl (fun u n => (raises_raiseChip ..).keepsSheet))
    (.after (keepsSheet_surveyChange _) (.after (mark _ _) (.after (mark _ _) h1)))
  exact .ite h1 (.after (raises_raiseChip ..).keepsSheet (h2.trans (.note ..)))

theorem keepsSheet_tickHeat (s : State) (dt : Nat) : KeepsSheet s (tickHeat s dt) := by
  have h : KeepsSheet s ((List.range 16).foldl (storeEstimate dt) s) := .foldl (keepsSheet_storeEstimate dt)
  exact h.trans (.note ..)

theorem keepsSheet_gateRegion (s : State) (r : Nat) : KeepsSheet s (gateRegion s r) :=
  .after (.foldl fun t _ => .ite (.refl t) (.note ..)) (.note ..)

theorem keepsSheet_tickRegion (busy : List Nat) (s : State) (r : Nat) : KeepsSheet s (tickRegion busy s r) := by
  unfold tickRegion
  extract_lets p c s1
  have h1 : KeepsSheet s s1 := .note ..
  clear_value s1
  exact .ite (.ite (.note ..) (.refl s)) (.ite (h1.trans (keepsSheet_gateRegion ..)) h1)

theorem keepsSheet_resetCell (c : Nat) (s : State) : KeepsSheet s (resetCell c s) := by
  unfold resetCell
  extract_lets s1 s2
  have h1 : KeepsSheet s s1 := (KeepsSheet.note ..).trans (.note ..)
  clear_value s1
  have h2 : KeepsSheet s s2 := h1.trans (.note ..)
  clear_value s2
  exact h2.trans (.note ..)

theorem keepsSheet_resetBlock (b : Nat) (s : State) : KeepsSheet s (resetBlock b s) := by
  unfold resetBlock
  extract_lets s1
  have h : KeepsSheet s s1 := .foldl fun t c => keepsSheet_resetCell c t
  clear_value s1
  exact h.trans (.note ..)

theorem keepsSheet_resetRegion (r : Nat) (s : State) : KeepsSheet s (resetRegion r s) := by
  unfold resetRegion
  extract_lets s1
  have h : KeepsSheet s s1 := .foldl fun t b => keepsSheet_resetBlock b t
  clear_value s1
  exact h.trans (.note ..)

theorem keepsSheet_softReset (s : State) (cls num : Nat) (accepted : Bool) {act : State → State} (h : KeepsSheet s (act s)) :
    KeepsSheet s (softReset s cls num accepted act) :=
  .ite (.refl s) (.ite (.note ..) (h.trans (.note ..)))

theorem keepsSheet_compatReset (s : State) (e : CompatWait) : KeepsSheet s (compatReset s e) := by
  refine .ite (.refl s) (.after (raises_raiseChip ..).keepsSheet (keepsSheet_softReset _ _ _ _ ?_))
  obtain ⟨cls, num, code, fatal⟩ := e
  match cls with
  | 5 => exact keepsSheet_resetRegion ..
  | 6 => exact keepsSheet_resetBlock ..
  | 0 | 1 | 2 | 3 | 4 | _ + 7 => exact keepsSheet_resetCell ..

theorem keepsSheet_compatResets (s : State) : KeepsSheet s (compatResets s) :=
  .after (.foldl keepsSheet_compatReset) (.note ..)

theorem keepsSheet_peerAborts (s : State) (mask : Nat) : KeepsSheet s (peerAborts s mask) :=
  .foldl (fun _ _ => (raises_raiseChip ..).keepsSheet)

theorem keepsSheet_tickGroup (s : State) : KeepsSheet s (tickGroup s) :=
  .after (.ite ((keepsSheet_peerAborts ..).trans (keepsSheet_announce _)) (.refl _)) ⟨rfl, rfl, rfl⟩

end Sys2Proof.Machine
end

section
/-! ### The tick (R61 to R70, R75, R95, R96) -/

namespace Sys2Proof.Machine

open Sys2Proof

/-! The agreement with the group (R527 to R530, R540). -/

theorem keepsSheet_twinCompare (s : State) (id : Nat) : KeepsSheet s (twinCompare s id) := by
  unfold twinCompare
  split
  · exact .refl s
  · split
    · exact .ite (.refl s) (.after (raises_raiseChip ..).keepsSheet ⟨rfl, rfl, rfl⟩)
    · exact .refl s

theorem keepsSheet_sendTwin (s : State) (j : Job) : KeepsSheet s (sendTwin s j) := by
  unfold sendTwin
  extract_lets s1
  have h1 : KeepsSheet s s1 := by
    unfold s1
    split
    · exact keepsSheet_sendControl ..
    · exact .refl s
  clear_value s1
  exact .after (keepsSheet_twinCompare ..) (h1.trans (.note ..))

theorem keepsSheet_becomeDone (s : State) : KeepsSheet s (becomeDone s) :=
  .after (.foldl keepsSheet_sendTwin) ⟨rfl, rfl, rfl⟩

theorem keepsSheet_raiseLevel (s : State) : KeepsSheet s (raiseLevel s) := .ite ⟨rfl, rfl, rfl⟩ (.refl s)

theorem keepsSheet_agree (s : State) : KeepsSheet s (agree s) := by
  unfold agree
  extract_lets t
  have ht : KeepsSheet s t := .ite (keepsSheet_becomeDone s) (.refl s)
  clear_value t
  exact .ite (.refl s) (ht.trans (.after (keepsSheet_announceNew _) (.ite (.refl t) (.foldl fun u _ => keepsSheet_raiseLevel u))))

/-- A device in no group has nothing to agree on. -/
theorem agree_alone {s : State} (alone : s.sht.groupActive = false) : agree s = s := by
  simp [agree, alone]

/-! What the tick itself does to the sheet. -/

theorem endOverrun_law (s : State) : ∃ overrun overCount overCycles,
    { endOverrun s with mon := s.mon } = { s with sht := { s.sht with overrun, overCount, overCycles } } := by
  unfold endOverrun
  dsimp only
  split_ifs
  · exact ⟨_, _, _, rfl⟩
  · exact ⟨_, _, _, rfl⟩

/-- The counts of the closing sheet change the counters and the overrun's registers alone. -/
theorem closeCounts_law (s : State) : ∃ overrun overCount overCycles,
    { closeCounts s with mon := s.mon } = { s with sht := { s.sht with overrun, overCount, overCycles } } := by
  unfold closeCounts
  extract_lets now s1 ran s2
  obtain ⟨overrun, overCount, overCycles, h1⟩ : ∃ overrun overCount overCycles,
      { s1 with mon := s.mon } = { s with sht := { s.sht with overrun, overCount, overCycles } } := by
    unfold s1
    split
    · obtain ⟨overrun, overCount, overCycles, h⟩ := endOverrun_law (s.countChip 0x304 (now - _))
      exact ⟨overrun, overCount, overCycles, (congrArg (fun t : State => { t with mon := s.mon }) h :)⟩
    · exact endOverrun_law s
  have h2 : { s2 with mon := s.mon } = { s1 with mon := s.mon } := by
    refine foldl_keeps (fun t : State => { t with mon := s.mon }) (fun t j => ?_) ran s1
    refine foldl_keeps (fun t : State => { t with mon := s.mon }) (fun u c => ?_) (jobCells j) t
    dsimp only
    split_ifs <;> rfl
  exact ⟨overrun, overCount, overCycles, h2.trans h1⟩

/-- After its sheet has opened, nothing of a tick changes the sheet. -/
theorem keepsSheet_fireTick (s : State) : KeepsSheet (openSheet (snapCounters (closeCounts s))) (fireTick s) := by
  unfold fireTick
  extract_lets inGroup noYield groupPace busy dt s1 s2 s3 s4 s5 s6 s7
  have h1 : KeepsSheet _ s1 := keepsSheet_errSummary _
  have h2 := h1.trans (.foldl keepsSheet_switchTable : KeepsSheet s1 s2)
  have h3 := h2.trans ((keepsSheet_tickJobs _ _).trans (keepsSheet_endUnbegun _) : KeepsSheet s2 s3)
  have h4 := h3.trans
    ((keepsSheet_applyRequest _).trans (.foldl fun t _ => .ite (.refl t) (keepsSheet_retireGranules ..)) : KeepsSheet s3 s4)
  have h5 := h4.trans ((keepsSheet_switchSurvey _).trans (keepsSheet_tickPace ..) : KeepsSheet s4 s5)
  have h6 := h5.trans ((keepsSheet_tickHeat ..).trans (.foldl (keepsSheet_tickRegion busy)) : KeepsSheet s5 s6)
  have h7 := h6.trans ((keepsSheet_compatResets _).trans (keepsSheet_tickGroup _) : KeepsSheet s6 s7)
  exact h7.trans ((raises_noteDone _).keepsSheet.trans (keepsSheet_flushJobs _))

/-- A tick takes no time; it opens the next sheet and counts the overrun of the last one, and no loss of a neighbour comes of it. -/
theorem fireTick_law (s : State) : (fireTick s).clk = s.clk ∧ (fireTick s).grp.neighbourLost = s.grp.neighbourLost ∧
    ∃ overCount overCycles, (fireTick s).sht.core = { (openSheet s).sht.core with overCount, overCycles } := by
  obtain ⟨clk, sht, lost⟩ := keepsSheet_fireTick s
  obtain ⟨overrun, overCount, overCycles, h⟩ := closeCounts_law s
  have hsht : (closeCounts s).sht = { s.sht with overrun, overCount, overCycles } := (congrArg State.sht h :)
  have hclk : (closeCounts s).clk = s.clk := (congrArg State.clk h :)
  have hgrp : (closeCounts s).grp = s.grp := (congrArg State.grp h :)
  refine ⟨clk.trans hclk, lost.trans (congrArg Grp.neighbourLost hgrp :), overCount, overCycles, sht.trans ?_⟩
  simp only [openSheet, snapCounters, hsht, hclk, hgrp, Sht.core]

/-! Waiting for the tick's core cycle. -/

theorem cdiv_mul_lt (a : Nat) {b : Nat} (hb : 0 < b) : cdiv a b * b < a + b := by
  have h := Nat.div_mul_le_self (a + b - 1) b
  unfold cdiv
  omega

/-- A core cycle takes longer than a picosecond, so the wait ends in the very cycle (R14, R576). -/
theorem cycles_untilCycle {s : State} {n : Nat} (ahead : s.clk.cycles ≤ n) (frac : s.clk.frac < 40000) (pace : s.pwr.pace < 64) :
    (s.untilCycle n).clk.cycles = n := by
  unfold State.untilCycle
  split_ifs with h
  · exact Nat.le_antisymm ahead h
  · dsimp only [State.advancePs]
    set p := 100 + s.share.datumPct with hp
    set q := (16 + s.pwr.pace) * 100 with hq
    obtain ⟨m, hm⟩ : ∃ m, n = s.clk.cycles + (m + 1) := ⟨n - s.clk.cycles - 1, by omega⟩
    have gap : n - s.clk.cycles = m + 1 := by omega
    rw [gap, Nat.mul_assoc, ← hq]
    set wait := ((m + 1) * 40000 - s.clk.frac) * p with hwait
    have whole : s.clk.frac * p + wait = (m + 1) * (40000 * p) := by
      rw [hwait, ← Nat.add_mul, Nat.add_sub_cancel' (by omega), Nat.mul_assoc]
    have low := le_cdiv_mul wait (by omega : 0 < q)
    have high := cdiv_mul_lt wait (by omega : 0 < q)
    have steps : (s.clk.frac * p + cdiv wait q * q) / (40000 * p) = m + 1 :=
      Nat.div_eq_of_lt_le (by omega) (by rw [Nat.succ_mul]; omega)
    rw [steps]
    omega

/-! The tick of a device in no group. -/

theorem dueCycle_done {s : State} {D : Nat} (done : s.allDone = true) (last : s.sht.lastDone = some D) :
    dueCycle s = some (max (s.sht.openCycle + s.sht.period) (D + 64)) := by
  simp [dueCycle, done, last]

theorem execTick_notDone {ph : List Phys} {s : State} (going : (injectAll s ph).allDone = false) :
    exec (.tick ph) s = .next (injectAll s ph) := by
  show execTick ph s = _
  simp [execTick, dueCycle, going]

/-- With every cell done a device in no group waits for max(P, D + 64) and ticks (R69). -/
theorem execTick_alone {ph : List Phys} {s : State} {D : Nat} (opened : (injectAll s ph).sht.opened = true)
    (alone : (injectAll s ph).sht.groupActive = false) (done : (injectAll s ph).allDone = true)
    (last : (injectAll s ph).sht.lastDone = some D) :
    exec (.tick ph) s = .next (fireTick ((injectAll s ph).untilCycle
      (max ((injectAll s ph).sht.openCycle + (injectAll s ph).sht.period) (D + 64)))) := by
  show execTick ph s = _
  unfold execTick
  generalize injectAll s ph = u at *
  obtain ⟨k, hk, -, -⟩ := untilCycle_eq u (max (u.sht.openCycle + u.sht.period) (D + 64))
  have may : mayTick { u with clk := k } = true := by
    simp only [mayTick, opened, alone, show ({ u with clk := k } : State).allDone = true from done]
    rfl
  simp only [dueCycle_done done last, opened, hk]
  rw [agree_alone (s := { u with clk := k }) alone]
  simp [may]

theorem tick_law (ph : List Phys) (s : State) (D : Nat) : let u := injectAll s ph
    let v := u.untilCycle (max (u.sht.openCycle + u.sht.period) (D + 64))
    u.sht.opened = true → u.sht.groupActive = false → u.allDone = true → u.sht.lastDone = some D →
    ∃ t : State, exec (.tick ph) s = .next t ∧ t.sht.tick = u.grp.adopt.getD (u.sht.tick + 1) ∧
      t.sht.openCycle = v.clk.cycles ∧ t.sht.openPs = v.clk.ps ∧ t.clk = v.clk ∧
      max (u.sht.openCycle + u.sht.period) (D + 64) ≤ v.clk.cycles ∧
      (u.clk.cycles ≤ max (u.sht.openCycle + u.sht.period) (D + 64) → u.clk.frac < 40000 → u.pwr.pace < 64 →
        v.clk.cycles = max (u.sht.openCycle + u.sht.period) (D + 64)) ∧
      t.sht.period = u.sht.nextPeriod.getD u.sht.period ∧ t.sht.nextPeriod = none ∧ t.sht.overrun = false ∧
      t.sht.groupActive = u.grp.adopt.isSome := by
  intro u v opened alone done last
  obtain ⟨k, hk, -, reached⟩ := untilCycle_eq u (max (u.sht.openCycle + u.sht.period) (D + 64))
  have hv : v = { u with clk := k } := hk
  obtain ⟨clk, -, overCount, overCycles, sht⟩ := fireTick_law v
  have hopen : (openSheet v).sht.core = { (openSheet u).sht.core with openCycle := v.clk.cycles, openPs := v.clk.ps } := by
    rw [hv]
    rfl
  rw [hopen] at sht
  have run : exec (.tick ph) s = .next (fireTick v) := execTick_alone opened alone done last
  generalize fireTick v = t at *
  refine ⟨t, run, (congrArg Sht.tick sht :), (congrArg Sht.openCycle sht :),
    (congrArg Sht.openPs sht :), clk, ?_, ?_, (congrArg Sht.period sht :), (congrArg Sht.nextPeriod sht :),
    (congrArg Sht.overrun sht :), ?_⟩
  · rw [hv]
    exact reached
  · intro ahead frac pace
    exact cycles_untilCycle ahead frac pace
  · refine (congrArg Sht.groupActive sht :).trans ?_
    show (u.sht.groupActive || u.grp.adopt.isSome) = _
    rw [alone, Bool.false_or]

/-! The two guarded writes (R61, R64, R95). -/

theorem shtPeriodWrite_law (v : Nat) (s : State) (reached : datumReach s 5 = true) : let p := v % 2 ^ 23
    exec (.shtPeriodWrite v) s = .next { s with sht :=
      if s.jobActive = false ∧ 4096 ≤ p ∧ p ≤ 4194304 ∧ 256 ∣ p then { s.sht with nextPeriod := some p }
      else { s.sht with writeRej := true } } := by
  intro p
  show execShtPeriodWrite v s = _
  have test : (s.jobActive || decide (p < 4096) || decide (4194304 < p) || p % 256 != 0) = true ↔
      ¬(s.jobActive = false ∧ 4096 ≤ p ∧ p ≤ 4194304 ∧ 256 ∣ p) := by
    simp only [Bool.or_eq_true, decide_eq_true_eq, bne_iff_ne, Nat.dvd_iff_mod_eq_zero]
    cases s.jobActive
    · simp
      omega
    · simp
  unfold execShtPeriodWrite
  by_cases ok : s.jobActive = false ∧ 4096 ≤ p ∧ p ≤ 4194304 ∧ 256 ∣ p
  · rw [if_pos ok]
    simp only [reached, Bool.not_true, Bool.false_eq_true, if_false]
    exact if_neg (mt test.mp (not_not.mpr ok))
  · rw [if_neg ok]
    simp only [reached, Bool.not_true, Bool.false_eq_true, if_false]
    exact if_pos (test.mpr ok)

theorem shtOverrunLimitWrite_law (v : Nat) (s : State) (reached : datumReach s 5 = true) :
    exec (.shtOverrunLimitWrite v) s = .next { s with sht :=
      if s.jobActive = false ∧ 1 ≤ v % 128 ∧ v % 128 ≤ 64 then { s.sht with limit := v % 128 }
      else { s.sht with writeRej := true } } := by
  show execShtOverrunLimitWrite v s = _
  have test : (s.jobActive || v % 128 == 0 || decide (64 < v % 128)) = true ↔
      ¬(s.jobActive = false ∧ 1 ≤ v % 128 ∧ v % 128 ≤ 64) := by
    simp only [Bool.or_eq_true, decide_eq_true_eq, beq_iff_eq]
    cases s.jobActive
    · simp
      omega
    · simp
  unfold execShtOverrunLimitWrite
  by_cases ok : s.jobActive = false ∧ 1 ≤ v % 128 ∧ v % 128 ≤ 64
  · rw [if_pos ok]
    simp only [reached, Bool.not_true, Bool.false_eq_true, if_false]
    exact if_neg (mt test.mp (not_not.mpr ok))
  · rw [if_neg ok]
    simp only [reached, Bool.not_true, Bool.false_eq_true, if_false]
    exact if_pos (test.mpr ok)

/-- Settles O42: a tick is the wait of R69 followed by the opening of the next sheet, which nothing after it changes. -/
theorem sheetsTickAtTheirTime : Obligations.SheetsTickAtTheirTime := by
  unfold Obligations.SheetsTickAtTheirTime
  exact ⟨tick_law, fun _ _ => execTick_notDone, shtPeriodWrite_law, shtOverrunLimitWrite_law⟩

end Sys2Proof.Machine
end

section
/-! ### Jobs whose end is known stay so (R194, R631, R758) -/

namespace Sys2Proof.Machine

open Sys2Proof

/-- The end of a job of this number is known. -/
def endKnown (s : State) (id : Nat) : Bool := (s.job? id).any (·.ending.isSome)

/-- `t` is `s` after events that forget the end of no job. -/
structure KeepsEndings (s t : State) : Prop where
  kept : ∀ id, endKnown s id = true → endKnown t id = true

namespace KeepsEndings

theorem refl (s : State) : KeepsEndings s s := ⟨fun _ h => h⟩

theorem trans {s t u : State} (h : KeepsEndings s t) (k : KeepsEndings t u) : KeepsEndings s u :=
  ⟨fun id e => k.kept id (h.kept id e)⟩

theorem after {s t u : State} (k : KeepsEndings t u) (h : KeepsEndings s t) : KeepsEndings s u := h.trans k

theorem foldl {β : Type} {f : State → β → State} {l : List β} {s : State} (h : ∀ s x, KeepsEndings s (f s x)) :
    KeepsEndings s (l.foldl f s) := by
  induction l generalizing s with
  | nil => exact refl s
  | cons x l ih => exact (h s x).trans ih

theorem ite {s t u : State} {p : Prop} {dec : Decidable p} (h : KeepsEndings s t) (k : KeepsEndings s u) :
    KeepsEndings s (if p then t else u) := by
  split
  · exact h
  · exact k

/-- Events that change no job. -/
theorem of_jobs {s t : State} (h : t.jobs = s.jobs) : KeepsEndings s t where
  kept id e := by
    unfold endKnown State.job? at *
    rwa [h]

end KeepsEndings

/-- The first job of a number among changed jobs, where the change keeps the numbers. -/
theorem find?_map_id {l : List Job} {f : Job → Job} (keep : ∀ j, (f j).id = j.id) (id : Nat) :
    (l.map f).find? (fun x => x.id == id) = (l.find? fun x => x.id == id).map f := by
  rw [List.find?_map]
  congr 2
  funext j
  simp [keep]

theorem keepsEndings_map {s t : State} {f : Job → Job} (jobs : t.jobs = s.jobs.map f) (keep : ∀ j, (f j).id = j.id)
    (known : ∀ j, j.ending.isSome = true → (f j).ending.isSome = true) : KeepsEndings s t where
  kept id e := by
    unfold endKnown State.job? at *
    rw [jobs, find?_map_id keep]
    cases h : s.jobs.find? fun x => x.id == id with
    | none => simp [h] at e
    | some j =>
      rw [h] at e
      exact known j e

/-! What leaves the jobs as they are. -/

@[simp] theorem jobs_noteDone (s : State) : s.noteDone.jobs = s.jobs := by
  unfold State.noteDone
  split_ifs <;> rfl

@[simp] theorem jobs_sendVector (s : State) (v : Nat) : (sendVector s v).jobs = s.jobs := by
  unfold sendVector
  dsimp only
  split_ifs <;> rfl

@[simp] theorem jobs_raiseIbi (s : State) (kind : Nat) : (raiseIbi s kind).jobs = s.jobs := by
  unfold raiseIbi
  dsimp only
  split_ifs <;> rfl

@[simp] theorem jobs_alarmOne (code unit job : Nat) (s : State) (b : Nat) : (alarmOne code unit job s b).jobs = s.jobs := by
  unfold alarmOne
  dsimp only
  split_ifs <;> simp

@[simp] theorem jobs_dropped (s : State) (k n : Nat) : (dropped s k n).jobs = s.jobs := rfl

@[simp] theorem jobs_pushSideBand (s : State) (r : ErrRec) : (pushSideBand s r).jobs = s.jobs := by
  unfold pushSideBand
  dsimp only
  split_ifs <;> simp

@[simp] theorem jobs_setQueue (s : State) (lvl unit : Nat) (q : List ErrRec) : (setQueue s lvl unit q).jobs = s.jobs := by
  unfold setQueue
  split <;> rfl

@[simp] theorem jobs_lostAt (s : State) (lvl unit : Nat) : (lostAt s lvl unit).jobs = s.jobs := by
  unfold lostAt
  dsimp only
  split <;> rfl

@[simp] theorem jobs_setAbort (s : State) (mask : Nat) : (setAbort s mask).jobs = s.jobs := by
  unfold setAbort
  split_ifs <;> rfl

@[simp] theorem jobs_haltCell (s : State) (c : Nat) : (haltCell s c).jobs = s.jobs := rfl

@[simp] theorem jobs_freezeTrace (s : State) (lvl unit : Nat) : (freezeTrace s lvl unit).jobs = s.jobs := by
  unfold freezeTrace
  split_ifs <;> rfl

/-! Errors. -/

theorem jobs_enqueue {s t : State} {lvl unit : Nat} {r : ErrRec} (h : enqueue s lvl unit r = some t) : t.jobs = s.jobs := by
  unfold enqueue at h
  split at h
  · obtain rfl := Option.some.inj h
    dsimp only
    split_ifs <;> simp
  · cases h

/-- A staged record gives its number to the ends it made known. -/
theorem keepsEndings_stage {s t : State} {r : ErrRec} (h : stage s r = some t) : KeepsEndings s t := by
  unfold stage at h
  extract_lets full seq history r' jobs named descs _ _ _ s1 s2 _ s3 _ at h
  obtain ⟨-, h⟩ := Option.ite_none_left_eq_some.mp h
  have h1 : KeepsEndings s s1 := by
    refine keepsEndings_map (t := s1) rfl (fun j => ?_) fun j hj => ?_
    · split_ifs <;> rfl
    · split_ifs
      · exact (Option.isSome_map ..).trans hj
      · exact hj
  have h2 : s2.jobs = s1.jobs := by
    unfold s2
    split_ifs <;> simp
  have h3 : s3.jobs = s1.jobs := by
    unfold s3
    split_ifs
    · exact h2
    · exact h2
  have ht : t.jobs = s1.jobs := by
    split_ifs at h <;> obtain rfl := Option.some.inj h <;> exact h3
  exact h1.trans (.of_jobs ht)

theorem keepsEndings_place (s : State) (r : ErrRec) : KeepsEndings s (place s r) := by
  unfold place
  extract_lets lvl try1 direct _ wait
  have waits : KeepsEndings s wait := .of_jobs rfl
  have tried {o : Option State} {k : Unit → State} (h : ∀ t, o = some t → KeepsEndings s t) (hk : KeepsEndings s (k ())) :
      KeepsEndings s (try1 o k) := by
    cases o with
    | none => exact hk
    | some t => exact h t rfl
  clear_value try1
  refine tried (fun t h => keepsEndings_stage (Option.ite_none_right_eq_some.mp h).2) ?_
  refine tried (fun t h => .of_jobs (jobs_enqueue (Option.ite_none_right_eq_some.mp h).2)) (.ite waits ?_)
  refine tried (fun t h => .of_jobs (jobs_enqueue (Option.ite_none_right_eq_some.mp h).2)) (.ite waits ?_)
  refine tried (fun t h => .of_jobs (jobs_enqueue h)) (.ite waits ?_)
  exact tried (fun t h => .of_jobs (jobs_enqueue h)) waits

/-- What is written of the jobs as one of them ends. -/
theorem jobs_endJob (s : State) (j status : Nat) : (endJob s j status).jobs =
    if (s.job? j).any (·.ending.isNone) then (s.updJob j fun y => { y with ending := some ⟨status, 0⟩ }).jobs else s.jobs := by
  unfold endJob
  cases s.job? j with
  | none => rfl
  | some x =>
    cases hx : x.ending with
    | some e => simp [hx]
    | none =>
      have halted (t : State) : ((jobCells x).foldl haltCell t).jobs = t.jobs := foldl_keeps State.jobs jobs_haltCell _ t
      simp only [hx, Option.isSome_none, Bool.false_eq_true, if_false, Option.any_some, Option.isNone_none, if_true, jobs_noteDone]
      split_ifs <;> simp [halted]

theorem keepsEndings_endJob (s : State) (j status : Nat) : KeepsEndings s (endJob s j status) := by
  by_cases h : (s.job? j).any (·.ending.isNone) = true
  · refine keepsEndings_map ((jobs_endJob s j status).trans (if_pos h)) (fun x => ?_) fun x hx => ?_
    · split_ifs <;> rfl
    · split_ifs
      · rfl
      · exact hx
  · exact .of_jobs ((jobs_endJob s j status).trans (if_neg h))

/-- The end of a job that is there is known once it is asked for. -/
theorem endKnown_endJob {s : State} {j : Nat} (status : Nat) (there : (s.job? j).isSome = true) :
    endKnown (endJob s j status) j = true := by
  obtain ⟨x, hx⟩ := Option.isSome_iff_exists.mp there
  have hid : x.id = j := by simpa using List.find?_some hx
  cases he : x.ending with
  | some e => exact (keepsEndings_endJob s j status).kept j (by simp [endKnown, hx, he])
  | none =>
    unfold endKnown State.job?
    rw [jobs_endJob, if_pos (by simp [hx, he])]
    simp only [State.updJob]
    rw [find?_map_id fun y => by split_ifs <;> rfl]
    simp [show s.jobs.find? (fun y => y.id == j) = some x from hx, hid]

theorem keepsEndings_endHolders (s : State) (cs : List Nat) : KeepsEndings s (endHolders s cs) :=
  .foldl fun t _ => keepsEndings_endJob t _ _

theorem keepsEndings_chipFatal (s : State) : KeepsEndings s (chipFatal s) :=
  .after (.foldl fun t _ => keepsEndings_endJob t _ _) (.of_jobs rfl)

/-- An error handled: the job that it ends, if it ends one, and after that no end is forgotten. One of severity J that names a job ends
that job (R194, R627). -/
theorem raiseAdmitted_endings (s : State) (e : Ev) : ∃ (v : State) (job : Nat) (ends : Bool), v.jobs = s.jobs ∧
    (e.job ≠ 0 → e.sev = 2 → job = e.job ∧ ends = true) ∧
    KeepsEndings (if ends = true then endJob v job 0x42 else v) (raiseAdmitted s e) := by
  unfold raiseAdmitted
  extract_lets now open? sev nested det cs job ends alarm bitsL a coalesced live mine going _ s1 s2 s3 also s4 _ s5 s6 r _ s7
  refine ⟨s1, job, ends, rfl, fun named grave => ?_, ?_⟩
  · have hjob : job = e.job := if_neg (by simpa using named)
    have hsev : sev = 2 ∨ sev = 3 := by
      unfold sev
      rw [grave]
      split_ifs <;> simp
    refine ⟨hjob, ?_⟩
    unfold ends
    rcases hsev with h | h <;> simp [h, hjob, named]
  · have h2 : KeepsEndings _ s2 := keepsEndings_endHolders ..
    have h3 : KeepsEndings _ s3 := h2.trans (.ite (keepsEndings_chipFatal _) (.refl _))
    have h4 : KeepsEndings _ s4 := h3.trans (.ite (.of_jobs (jobs_freezeTrace ..)) (.refl _))
    have h5 : KeepsEndings _ s5 := h4.trans (by
      unfold s5
      split
      · exact .ite (.of_jobs rfl) (.refl _)
      · exact .refl _)
    have h6 : KeepsEndings _ s6 := h5.trans (.foldl fun t b => .of_jobs (jobs_alarmOne ..))
    have h7 : KeepsEndings _ s7 := h6.trans (.ite (.of_jobs rfl) (.refl _))
    exact h7.trans (.ite (.of_jobs rfl) (keepsEndings_place ..))

theorem keepsEndings_raiseAdmitted (s : State) (e : Ev) : KeepsEndings s (raiseAdmitted s e) := by
  obtain ⟨v, job, ends, jobs, -, h⟩ := raiseAdmitted_endings s e
  exact .after h (.after (.ite (keepsEndings_endJob ..) (.refl v)) (.of_jobs jobs))

theorem jobs_discardLog (s : State) (k : Nat) (e : Ev) : (discardLog s k e).jobs = s.jobs := by
  unfold discardLog
  dsimp only
  split_ifs <;> rfl

theorem keepsEndings_raise (s : State) (e : Ev) : KeepsEndings s (raise s e) := by
  unfold raise
  refine .ite (.refl s) (.ite ?_ (keepsEndings_raiseAdmitted s e))
  exact .ite (.of_jobs (jobs_discardLog ..)) (.ite (.of_jobs (jobs_discardLog ..))
    (.after (keepsEndings_raiseAdmitted ..) (.of_jobs rfl)))

theorem keepsEndings_raiseChip (s : State) (code sev cls n job : Nat) (det : List Nat) (hist chain : Bool) :
    KeepsEndings s (raiseChip s code sev cls n job det hist chain) := keepsEndings_raise s _

/-- A J error of a chip-level unit but a stack ends the job that it names. -/
theorem endKnown_raiseChip {s : State} {cls n job : Nat} (loud : chipUnit cls n / 256 ≠ 1) (named : job ≠ 0)
    (there : (s.job? job).isSome = true) (code : Nat) (det : List Nat) (hist chain : Bool) :
    endKnown (raiseChip s code 2 cls n job det hist chain) job = true := by
  have admitted : raiseChip s code 2 cls n job det hist chain =
      raiseAdmitted s { code, sev := 2, level := 3, unit := chipUnit cls n, job, det, hist, chain } := by
    simp [raiseChip, raise, silent, loud]
  obtain ⟨v, id, ends, jobs, ended, h⟩ := raiseAdmitted_endings s
    { code, sev := 2, level := 3, unit := chipUnit cls n, job, det, hist, chain }
  obtain ⟨rfl, rfl⟩ := ended named rfl
  rw [admitted]
  exact h.kept _ (endKnown_endJob _ (by unfold State.job? at *; rwa [jobs]))

/-! A job as it is but for its end. -/

/-- A job with its end put aside. -/
def Job.unended (j : Job) : Job := { j with ending := none }

theorem Raises.job? {s t : State} (h : Raises s t) (id : Nat) : (t.job? id).map Job.unended = (s.job? id).map Job.unended := by
  unfold State.job?
  rw [← find?_map_id (f := Job.unended) fun _ => rfl, ← find?_map_id (f := Job.unended) fun _ => rfl]
  exact congrArg (List.find? fun x => x.id == id) h.jobs

theorem Raises.job?_isSome {s t : State} (h : Raises s t) (id : Nat) : (t.job? id).isSome = (s.job? id).isSome := by
  simpa using congrArg Option.isSome (h.job? id)

/-! The agreement. -/

theorem keepsEndings_twinCompare (s : State) (id : Nat) : KeepsEndings s (twinCompare s id) := by
  unfold twinCompare
  split
  · exact .refl s
  · split
    · exact .ite (.refl s) (.after (keepsEndings_raiseChip ..) (.of_jobs rfl))
    · exact .refl s

theorem keepsEndings_updJob (s : State) (id : Nat) {f : Job → Job} (keep : ∀ j, (f j).id = j.id)
    (known : ∀ j, (f j).ending = j.ending) :
    KeepsEndings s (s.updJob id f) := by
  refine keepsEndings_map (t := s.updJob id f) rfl (fun j => ?_) fun j hj => ?_
  · split_ifs
    · exact keep j
    · rfl
  · split_ifs
    · rwa [known]
    · exact hj

theorem keepsEndings_sendTwin (s : State) (j : Job) : KeepsEndings s (sendTwin s j) := by
  unfold sendTwin
  extract_lets s1
  have h1 : KeepsEndings s s1 := by
    unfold s1
    split
    · exact .of_jobs rfl
    · exact .refl s
  exact h1.trans (.after (keepsEndings_twinCompare ..) (keepsEndings_updJob _ _ (fun _ => rfl) fun _ => rfl))

theorem keepsEndings_agree (s : State) : KeepsEndings s (agree s) := by
  have announced (t : State) : KeepsEndings t (announceNew t) := .foldl fun _ _ => .of_jobs rfl
  have raised (t : State) : KeepsEndings t (raiseLevel t) := .ite (.of_jobs rfl) (.refl t)
  unfold agree
  extract_lets t
  have ht : KeepsEndings s t := .ite (.after (.foldl keepsEndings_sendTwin) (.of_jobs rfl)) (.refl s)
  exact .ite (.refl s) (ht.trans (.after (announced _) (.ite (.refl t) (.foldl fun u _ => raised u))))

end Sys2Proof.Machine
end

section
/-! ### Overruns, the tick wait's limit, and the next sheet of a job (R75 to R79, R163, R165) -/

namespace Sys2Proof.Machine

open Sys2Proof

theorem sheetBudgetExpiry_law (s : State) (opened : s.sht.opened = true) : let v := s.untilCycle (s.sht.openCycle + s.sht.period)
    exec .sheetBudgetExpiry s = .next { v with sht := { v.sht with overrun := v.sht.overrun || !v.allDone } } := by
  intro v
  show execSheetBudgetExpiry s = _
  unfold execSheetBudgetExpiry
  cases done : v.allDone <;> simp [opened, v, done]

/-! SHEET_STALL. -/

theorem endKnown_stallJob {s : State} {j : Job} (named : j.id ≠ 0) (there : (s.job? j.id).isSome = true) :
    endKnown (stallJob s j) j.id = true := endKnown_raiseChip (by decide) named there ..

theorem keepsEndings_stallJob (s : State) (j : Job) : KeepsEndings s (stallJob s j) := keepsEndings_raiseChip ..

theorem raises_stallJob (s : State) (j : Job) : Raises s (stallJob s j) := raises_raiseChip ..

/-- Each of the jobs that the stall is raised against ends. -/
theorem endKnown_stalled {js : List Job} {s : State} {j : Job} (mem : j ∈ js) (named : j.id ≠ 0) (there : (s.job? j.id).isSome = true) :
    endKnown (js.foldl stallJob s) j.id = true := by
  induction js generalizing s with
  | nil => cases mem
  | cons x js ih =>
    rw [List.foldl_cons]
    rcases List.mem_cons.mp mem with rfl | mem
    · exact (KeepsEndings.foldl keepsEndings_stallJob).kept _ (endKnown_stallJob named there)
    · exact ih mem (((raises_stallJob s x).job?_isSome j.id).trans there)

theorem keepsSheet_settle (s : State) (c : Nat) : KeepsSheet s (settle s c) :=
  .ite ((KeepsSheet.note ..).trans (raises_noteDone _).keepsSheet) (.refl s)

theorem keepsSheet_dropRings (s : State) (c : Nat) : KeepsSheet s (dropRings s c) :=
  .after (keepsSheet_settle ..) ⟨rfl, rfl, rfl⟩

theorem keepsEndings_settle (s : State) (c : Nat) : KeepsEndings s (settle s c) :=
  .ite (.of_jobs (jobs_noteDone _)) (.refl s)

theorem keepsEndings_dropRings (s : State) (c : Nat) : KeepsEndings s (dropRings s c) :=
  .after (keepsEndings_settle ..) (.of_jobs rfl)

theorem execSheetStall_done {s : State} (opened : s.sht.opened = true)
    (done : (s.untilCycle (s.sht.openCycle + s.sht.period * (1 + s.sht.limit))).allDone = true) :
    exec .sheetStall s = .next (s.untilCycle (s.sht.openCycle + s.sht.period * (1 + s.sht.limit))) := by
  show execSheetStall s = _
  simp [execSheetStall, opened, done]

/-- The state in which the stall is raised: the overrun stands, and STALL where a job has a cell that is not done. -/
def stallState (s : State) (js : List Job) : State :=
  let v := s.untilCycle (s.sht.openCycle + s.sht.period * (1 + s.sht.limit))
  { v with sht := { v.sht with overrun := true, stall := v.sht.stall || !js.isEmpty } }

/-- The jobs with a cell that is not done. -/
def stalledJobs (s : State) : List Job := s.jobs.filter fun j => !(undoneCells s j).isEmpty

theorem execSheetStall_going {s : State} (opened : s.sht.opened = true)
    (going : (s.untilCycle (s.sht.openCycle + s.sht.period * (1 + s.sht.limit))).allDone = false) :
    exec .sheetStall s = .next (agree (((stalledJobs s).flatMap (undoneCells (stallState s (stalledJobs s)))).foldl dropRings
      ((stalledJobs s).foldl stallJob (stallState s (stalledJobs s))))) := by
  show execSheetStall s = _
  unfold execSheetStall stallState
  obtain ⟨k, hk, -, -⟩ := untilCycle_eq s (s.sht.openCycle + s.sht.period * (1 + s.sht.limit))
  rw [hk] at going ⊢
  simp only [opened, going, Bool.not_true, Bool.false_eq_true, if_false]
  rfl

theorem mem_stalledJobs {s : State} {j : Job} (mem : j ∈ s.jobs)
    (going : ∃ c ∈ jobCells j, (s.cell c).seq.job = j.id ∧ (s.cell c).seq.done = false) : j ∈ stalledJobs s := by
  obtain ⟨c, hc, hjob, hdone⟩ := going
  have : c ∈ undoneCells s j := List.mem_filter.mpr ⟨hc, by simp [hjob, hdone]⟩
  exact List.mem_filter.mpr ⟨mem, by simpa using List.ne_nil_of_mem this⟩

/-- A job of the list is found under its number. -/
theorem job?_isSome_of_mem {s : State} {j : Job} (mem : j ∈ s.jobs) : (s.job? j.id).isSome = true :=
  List.find?_isSome.mpr ⟨j, mem, beq_self_eq_true _⟩

/-- The stall ends every job that has a cell not done; outside a group STALL shows whether there was one. -/
theorem sheetStall_law {s : State} (opened : s.sht.opened = true)
    (going : (s.untilCycle (s.sht.openCycle + s.sht.period * (1 + s.sht.limit))).allDone = false) :
    ∃ t : State, exec .sheetStall s = .next t ∧
      t = agree (((stalledJobs s).flatMap (undoneCells (stallState s (stalledJobs s)))).foldl dropRings
        ((stalledJobs s).foldl stallJob (stallState s (stalledJobs s)))) ∧
      (s.sht.groupActive = false → t.sht.stall = (s.sht.stall || !(stalledJobs s).isEmpty)) ∧
      ∀ j, j ∈ s.jobs → j.id ≠ 0 → (∃ c ∈ jobCells j, (s.cell c).seq.job = j.id ∧ (s.cell c).seq.done = false) →
        endKnown t j.id = true := by
  refine ⟨_, execSheetStall_going opened going, rfl, fun alone => ?_, fun j mem named cells => ?_⟩
  · obtain ⟨k, hk, -, -⟩ := untilCycle_eq s (s.sht.openCycle + s.sht.period * (1 + s.sht.limit))
    have hw : (stallState s (stalledJobs s)).sht.core =
        { s.sht with overrun := true, stall := s.sht.stall || !(stalledJobs s).isEmpty }.core := by
      unfold stallState
      rw [hk]
    have h := ((KeepsSheet.foldl fun t j => (raises_stallJob t j).keepsSheet).trans (.foldl keepsSheet_dropRings) :
      KeepsSheet (stallState s (stalledJobs s)) (((stalledJobs s).flatMap (undoneCells (stallState s (stalledJobs s)))).foldl dropRings
        ((stalledJobs s).foldl stallJob (stallState s (stalledJobs s)))))
    have sht := h.sht.trans hw
    rw [agree_alone ((congrArg Sht.groupActive sht :).trans alone)]
    exact (congrArg Sht.stall sht :)
  · obtain ⟨k, hk, -, -⟩ := untilCycle_eq s (s.sht.openCycle + s.sht.period * (1 + s.sht.limit))
    have there : ((stallState s (stalledJobs s)).job? j.id).isSome = true := by
      unfold stallState
      rw [hk]
      exact job?_isSome_of_mem mem
    have known := endKnown_stalled (mem_stalledJobs mem cells) named there
    exact ((KeepsEndings.foldl keepsEndings_dropRings).trans (keepsEndings_agree _)).kept _ known

/-! TICK_WAIT_LIMIT. -/

theorem openSheet_core (s : State) : (openSheet s).sht.core = { s.sht.core with
    tick := s.grp.adopt.getD (s.sht.core.tick + 1), groupActive := s.sht.core.groupActive || s.grp.adopt.isSome
    openCycle := s.clk.cycles, openPs := s.clk.ps, overrun := false
    period := s.sht.core.nextPeriod.getD s.sht.core.period, nextPeriod := none } := rfl

theorem announce_grp (s : State) : (announce s).grp = s.grp := by
  unfold announce
  refine foldl_keeps State.grp ?_ _ s
  exact fun _ _ => rfl

/-- The device that leaves its group ticks alone (R79). -/
theorem leaveGroup_law (s : State) : (leaveGroup s).clk = s.clk ∧ (leaveGroup s).grp.adopt = none ∧
    (leaveGroup s).grp.neighbourLost = false ∧ (leaveGroup s).sht.core = { s.sht.core with enable := false, groupActive := false } := by
  have h := fun t => keepsSheet_announce t
  refine ⟨(h _).clk, ?_, (h _).lost, (h _).sht⟩
  unfold leaveGroup
  rw [announce_grp]

theorem execTickWaitLimit_reached {s : State} {d : Nat} (told : s.sht.doneSent = some d) (grouped : s.sht.groupActive = true)
    (may : mayTick (agree (s.untilCycle (d + (s.sht.limit + 4) * s.sht.period))) = true) :
    exec .tickWaitLimit s = .next (agree (s.untilCycle (d + (s.sht.limit + 4) * s.sht.period))) := by
  show execTickWaitLimit s = _
  simp [execTickWaitLimit, told, grouped, may]

/-- The errors of the limit: one at chip level, or one against each group job. -/
def limitRaised (s : State) : State :=
  let js := s.jobs.filter fun j => grouped j && j.phase ≠ .claiming
  if js.isEmpty then raiseChip s 0x3102 0 0x0A 0 0 [missingMembers s]
  else js.foldl (fun t j => raiseChip t 0x3102 2 0x0A 0 j.id [missingMembers s] false true) s

theorem keepsSheet_limitRaised (s : State) : KeepsSheet s (limitRaised s) :=
  .ite (raises_raiseChip ..).keepsSheet (.foldl fun _ _ => (raises_raiseChip ..).keepsSheet)

/-- At the limit the device raises its errors, leaves the group and fires its tick. -/
theorem execTickWaitLimit_leaves {s : State} {d : Nat} (told : s.sht.doneSent = some d) (grouped : s.sht.groupActive = true)
    (may : mayTick (agree (s.untilCycle (d + (s.sht.limit + 4) * s.sht.period))) = false) :
    exec .tickWaitLimit s = .next (fireTick (leaveGroup (limitRaised (agree (s.untilCycle (d + (s.sht.limit + 4) * s.sht.period)))))) := by
  show execTickWaitLimit s = _
  simp only [execTickWaitLimit, told, grouped, may, Bool.not_true, Bool.false_eq_true, if_false]
  rfl

theorem tickWaitLimit_law (s : State) (d : Nat) (told : s.sht.doneSent = some d) (grouped : s.sht.groupActive = true) :
    let u := agree (s.untilCycle (d + (s.sht.limit + 4) * s.sht.period))
    (mayTick u = true → exec .tickWaitLimit s = .next u) ∧
    (mayTick u = false → ∃ t : State, exec .tickWaitLimit s = .next t ∧ t.sht.enable = false ∧ t.sht.groupActive = false ∧
      t.grp.neighbourLost = false ∧ t.sht.tick = s.sht.tick + 1 ∧ t.sht.openCycle = u.clk.cycles ∧ t.clk = u.clk ∧
      u.clk = (s.untilCycle (d + (s.sht.limit + 4) * s.sht.period)).clk) := by
  intro u
  refine ⟨execTickWaitLimit_reached told grouped, fun may => ?_⟩
  have run := execTickWaitLimit_leaves told grouped may
  have hw : KeepsSheet u (limitRaised u) := keepsSheet_limitRaised u
  change exec .tickWaitLimit s = .next (fireTick (leaveGroup (limitRaised u))) at run
  generalize limitRaised u = w at hw run
  obtain ⟨lclk, ladopt, llost, lsht⟩ := leaveGroup_law w
  obtain ⟨fclk, flost, overCount, overCycles, fsht⟩ := fireTick_law (leaveGroup w)
  have hu := keepsSheet_agree (s.untilCycle (d + (s.sht.limit + 4) * s.sht.period))
  have tick : w.sht.tick = s.sht.tick := by
    obtain ⟨k, hk, -, -⟩ := untilCycle_eq s (d + (s.sht.limit + 4) * s.sht.period)
    have h := hw.sht.trans hu.sht
    rw [hk] at h
    exact (congrArg Sht.tick h :)
  have hopen : (openSheet (leaveGroup w)).sht.core = { w.sht.core with
      enable := false, groupActive := false, tick := w.sht.tick + 1, openCycle := w.clk.cycles, openPs := w.clk.ps, overrun := false
      period := w.sht.nextPeriod.getD w.sht.period, nextPeriod := none } := by
    rw [openSheet_core, lsht, ladopt, lclk]
    rfl
  rw [hopen] at fsht
  generalize fireTick (leaveGroup w) = t at *
  refine ⟨t, run, (congrArg Sht.enable fsht :), (congrArg Sht.groupActive fsht :), flost.trans llost, ?_, ?_,
    fclk.trans (lclk.trans hw.clk), hu.clk⟩
  · exact (congrArg Sht.tick fsht :).trans (congrArg (· + 1) tick)
  · exact (congrArg Sht.openCycle fsht :).trans (congrArg Clock.cycles hw.clk)

/-! The next sheet of a running job (R163, R165). -/

/-- A fold whose entries change one cell each leaves the other cells. `P` is what the entries rely on. -/
theorem cell_foldl_other {α : Type} {P : State → Prop} {f : State → α → State} {key : α → Nat} {g : α → CellSt → CellSt}
    (keep : ∀ t x, P t → P (f t x))
    (step : ∀ t x c, P t → (f t x).cell c = if key x = c then g x (t.cell c) else t.cell c)
    {l : List α} {s : State} (hs : P s) {c : Nat} (hc : c ∉ l.map key) : (l.foldl f s).cell c = s.cell c := by
  induction l generalizing s with
  | nil => rfl
  | cons y l ih =>
    rw [List.map_cons, List.mem_cons, not_or] at hc
    rw [List.foldl_cons, ih (keep s y hs) hc.2, step s y c hs, if_neg (Ne.symm hc.1)]

/-- Where no two entries change the same cell, each makes its change to the cell as it stood. -/
theorem cell_foldl {α : Type} {P : State → Prop} {f : State → α → State} {key : α → Nat} {g : α → CellSt → CellSt}
    (keep : ∀ t x, P t → P (f t x))
    (step : ∀ t x c, P t → (f t x).cell c = if key x = c then g x (t.cell c) else t.cell c)
    {l : List α} (nodup : (l.map key).Nodup) {s : State} (hs : P s) {x : α} (hx : x ∈ l) :
    (l.foldl f s).cell (key x) = g x (s.cell (key x)) := by
  induction l generalizing s with
  | nil => exact absurd hx List.not_mem_nil
  | cons y l ih =>
    rw [List.map_cons, List.nodup_cons] at nodup
    obtain ⟨fresh, nodup⟩ := nodup
    rw [List.foldl_cons]
    rcases List.mem_cons.mp hx with rfl | hx
    · rw [cell_foldl_other keep step (keep s x hs) fresh, step s x _ hs, if_pos rfl]
    · have other : key y ≠ key x := fun e => fresh (e ▸ List.mem_map_of_mem hx)
      rw [ih nodup (keep s y hs) hx, step s y _ hs, if_neg other]

/-- What a cell's sequencer holds as its sheet opens: the fetched segment, from its first instruction. -/
def opened (q : Seq) : Seq :=
  let q := { q with index := 0, done := false, slept := 0, yields := false, ended := false, halted := false, issued := false }
  match q.next with
  | some (ws, l) => { q with stream := ws, live := l, fetched := true, next := none }
  | none => { q with stream := [], fetched := false }

theorem opened_law (q : Seq) : (opened q).index = 0 ∧ (opened q).done = false ∧ (opened q).ended = false ∧
    (opened q).fetched = q.next.isSome ∧ (opened q).stream = (q.next.map (·.1)).getD [] := by
  unfold opened
  cases h : q.next <;> simp

theorem cell_openCell (s : State) (d c : Nat) :
    (openCell s d).cell c = if d = c then { s.cell c with seq := opened (s.cell c).seq } else s.cell c := by
  refine (State.cell_updSeq s d c opened).trans ?_
  split_ifs with h
  · rw [h]
  · rfl

/-- A job that runs and is not switched out opens its next sheet at the tick. -/
theorem tickRunning_nextSheet {s : State} {j : Job} {noYield : Nat} (job : s.job? j.id = some j) (phase : j.phase = .running)
    (going : j.ending = none) (more : j.sheet < j.image.sheetCount) (stays : yieldTick s noYield j = false ∨ claimed s j = false) :
    tickRunning noYield s j.id = nextSheet (checkForecast s j) j := by
  have same : (yieldTick (checkForecast s j) noYield j && claimed (checkForecast s j) j) = (yieldTick s noYield j && claimed s j) := by
    unfold checkForecast
    dsimp only
    split_ifs <;> rfl
  have here : (yieldTick s noYield j && claimed s j) = false := by rcases stays with h | h <;> simp [h]
  unfold tickRunning
  simp [job, phase, going, Nat.not_le.mpr more, same, here]

theorem nextSheet_law (noYield : Nat) (s : State) (j : Job) (job : s.job? j.id = some j) (phase : j.phase = .running)
    (going : j.ending = none) (more : j.sheet < j.image.sheetCount) (stays : yieldTick s noYield j = false ∨ claimed s j = false)
    (nodup : (jobCells j).Nodup) : let t := tickRunning noYield s j.id
    (t.job? j.id).any (fun k => k.sheet == j.sheet + 1 && decide (k.phase = .running)) = true ∧
    (∀ c ∈ jobCells j, (t.cell c).seq.index = 0 ∧ (t.cell c).seq.done = false ∧ (t.cell c).seq.ended = false ∧
      (t.cell c).seq.fetched = (s.cell c).seq.next.isSome ∧ (t.cell c).seq.stream = ((s.cell c).seq.next.map (·.1)).getD []) ∧
    ∀ c, c ∉ jobCells j → t.cell c = s.cell c := by
  intro t
  have ht : t = nextSheet (checkForecast s j) j := tickRunning_nextSheet job phase going more stays
  have hjobs : (checkForecast s j).jobs = s.jobs := by unfold checkForecast; dsimp only; split_ifs <;> rfl
  have hcell (c : Nat) : (checkForecast s j).cell c = s.cell c := by unfold checkForecast; dsimp only; split_ifs <;> rfl
  rw [ht]
  unfold nextSheet
  extract_lets theirs
  set u := (checkForecast s j).updJob j.id fun x =>
    { x with sheet := x.sheet + 1, phase := .running, twinSum := 0, twinMine := [], twinTheirs := theirs x } with hu
  have step (t : State) (d c : Nat) (_ : True) := cell_openCell t d c
  refine ⟨?_, fun c hc => ?_, fun c hc => ?_⟩
  · have jobs : ((jobCells j).foldl openCell u).jobs = u.jobs := foldl_keeps State.jobs (f := openCell) (fun _ _ => rfl) _ u
    unfold State.job? at job ⊢
    rw [jobs, hu, State.updJob, find?_map_id fun x => by split_ifs <;> rfl, hjobs, job]
    simp
  · have : ((jobCells j).foldl openCell u).cell c = { s.cell c with seq := opened (s.cell c).seq } := by
      rw [← hcell c]
      exact cell_foldl (P := fun _ => True) (key := id) (g := fun _ x => { x with seq := opened x.seq }) (fun _ _ _ => trivial) step
        (by rwa [List.map_id]) trivial hc
    rw [this]
    exact opened_law _
  · rw [cell_foldl_other (P := fun _ => True) (key := id) (g := fun _ x => { x with seq := opened x.seq }) (fun _ _ _ => trivial) step
      trivial (by rwa [List.map_id]), hu, State.cell_updJob, hcell]

/-- Settles O43: the wait for an event of the sheet moves the clock alone, the records of a stall end each job they name and nothing after
them forgets it, and a tick leaves the sheet as its opening made it. That a stalled cell waits no longer for its RD.RING (the state after
`dropRings`) is log entry 54: the model's choice. -/
theorem overrunsStallAndLeaveTheGroup : Obligations.OverrunsStallAndLeaveTheGroup := by
  unfold Obligations.OverrunsStallAndLeaveTheGroup
  refine ⟨sheetBudgetExpiry_law, fun s opened => ?_, tickWaitLimit_law, fun s j noYield => nextSheet_law noYield s j⟩
  refine ⟨execSheetStall_done opened, fun going => ?_⟩
  obtain ⟨t, run, ht, stall, ended⟩ := sheetStall_law opened going
  exact ⟨t, run, ht, stall, fun j _ => ended j⟩

end Sys2Proof.Machine
end

section
/-! ### What training, loss and flits leave in the ports (R517, R520, R534, R537, R550) -/

namespace Sys2Proof.Machine

open Sys2Proof

theorem Raises.ports {s t : State} (h : Raises s t) : t.ports = s.ports := (congrArg State.ports h.rest :)

theorem Raises.port {s t : State} (h : Raises s t) (k : Nat) : t.port k = s.port k := by
  unfold State.port
  rw [h.ports]

theorem port_surveyChange (s : State) (k : Nat) : (surveyChange s).port k = s.port k := by
  unfold surveyChange
  split
  · rfl
  · split_ifs <;> rfl

theorem raises_lanesDown (s : State) (p : Nat) (lanes : List Nat) (gen : Nat) : Raises s (lanesDown s p lanes gen) :=
  Raises.foldl (fun _ _ => raises_raiseChip ..) lanes s

/-! Flits sent. -/

theorem port_emitFlit (s : State) (p ftype event seq body k : Nat) : (emitFlit s p ftype event seq body).port k =
    if p = k then { s.port p with lastSync := syncField s 0 0 } else s.port k := by
  unfold emitFlit
  rw [State.port_emit, State.port_updPort]

/-- A numbered flit moves its port's send count, and is kept for replay. -/
theorem port_sendFlit (s : State) (p ftype event body k : Nat) : ∃ lastSync replay, (sendFlit s p ftype event body).port k =
    if p = k then { s.port p with lastSync, replay, txSeq := ((s.port p).txSeq + 1) % 4096 } else s.port k := by
  refine ⟨syncField s 0 0, ((s.port p).replay ++ [((s.port p).txSeq, [ftype, event, body])]).drop ((s.port p).replay.length - 255), ?_⟩
  refine (State.port_count ..).trans ((State.port_updPort ..).trans ?_)
  rw [port_emitFlit, port_emitFlit, if_pos rfl]
  split_ifs <;> rfl

theorem port_sendAck (s : State) (p k : Nat) : ∃ lastSync replay, (sendAck s p).port k =
    if p = k then { s.port p with lastSync, replay, rxSinceAck := 0, txSeq := ((s.port p).txSeq + 1) % 4096 } else s.port k := by
  obtain ⟨lastSync, replay, h⟩ := port_sendFlit
    ({ s with freeCtr := s.freeCtr + 1 }.updPort p fun x => { x with rxSinceAck := 0 }) p 1 0
    (leNat (leBytes 4 1 ++ (leBytes 2 (((s.port p).rxSeq + 4095) % 4096) ++ leBytes 2 (Config.freeWord s.freeCtr).toNat))) k
  refine ⟨lastSync, replay, h.trans ?_⟩
  rw [State.port_updPort, State.port_updPort, if_pos rfl]
  split_ifs <;> rfl

/-- A port but for the note of a lost neighbour and the state fields last sent. -/
def Port.unsent (x : Port) : Port := { x with lost := false, lastSync := 0 }

theorem unsent_announce (s : State) (k : Nat) : ((announce s).port k).unsent = (s.port k).unsent := by
  refine foldl_keeps (fun t => (t.port k).unsent) (f := fun s p => emitFlit s p 0 0 (s.port p).txSeq 0) (fun t p => ?_) _ s
  rw [port_emitFlit]
  split_ifs with h
  · subst h
    rfl
  · rfl

theorem unsent_markLost (role : Nat) (l : List Nat) (s : State) (k : Nat) :
    ((l.foldl (fun t p => if (t.port p).role == role then t.updPort p fun x => { x with lost := true } else t) s).port k).unsent =
      (s.port k).unsent := by
  refine foldl_keeps (fun t => (t.port k).unsent)
    (f := fun t p => if (t.port p).role == role then t.updPort p fun x => { x with lost := true } else t) (fun t p => ?_) l s
  split_ifs
  · rw [State.port_updPort]
    split_ifs with h
    · subst h
      rfl
    · rfl
  · rfl

theorem unsent_neighbourLost (s : State) (role k : Nat) : ((neighbourLost s role).port k).unsent = (s.port k).unsent := by
  unfold neighbourLost
  split_ifs
  · rfl
  · extract_lets member s1 mask _ s2
    have h1 : (s1.port k).unsent = (s.port k).unsent := unsent_markLost ..
    clear_value s1
    have h2 : (s2.port k).unsent = (s.port k).unsent := h1
    clear_value s2
    rw [unsent_announce, Raises.port (raises_raiseChip ..), h2]

/-! Ports go down and train. -/

/-- A port out of service: what it was sending is dropped. -/
def Port.downed (x : Port) : Port :=
  { x with up := false, lanes := 0, outQ := [], replay := [], credits := 0, partial_ := none, blockBuf := [], fwd := [] }

theorem unsent_portDown {s : State} {p : Nat} (served : (s.port p).up = true) (cause k : Nat) :
    ((portDown s p cause).port k).unsent = if p = k then (s.port p).downed.unsent else (s.port k).unsent := by
  unfold portDown
  rw [if_neg (by simp [portUp, served])]
  rw [unsent_neighbourLost, Raises.port (raises_raiseChip ..), port_surveyChange]
  refine (congrArg Port.unsent (State.port_updPort s p k Port.downed)).trans ?_
  split_ifs <;> rfl

theorem portDown_up (s : State) (p cause : Nat) : ((portDown s p cause).port p).up = false := by
  cases served : (s.port p).up with
  | true => exact (congrArg Port.up ((unsent_portDown served cause p).trans (if_pos rfl)) :)
  | false =>
    unfold portDown
    rw [if_pos (by simp [portUp, served])]
    exact served

theorem retrainPort_law (s : State) (p : Nat) : ((retrainPort s p).port p).up = false ∧ ((retrainPort s p).port p).training = true := by
  have h : (retrainPort s p).port p =
      { (portDown { s with freeCtr := s.freeCtr + 1 } p (Config.freeWord s.freeCtr).toNat).port p with training := true } :=
    (State.port_updPort ..).trans (if_pos rfl)
  rw [h]
  exact ⟨portDown_up .., rfl⟩

theorem linkPortDown_law (p cause : Nat) (s : State) (served : (s.port p).up = true) :
    ∃ t : State, exec (.linkPortDown p cause) s = .next t ∧ (t.port p).up = false ∧ (t.port p).lanes = 0 ∧ (t.port p).outQ = [] ∧
      (t.port p).replay = [] ∧ ∀ k, k ≠ p → (t.port k).up = (s.port k).up ∧ (t.port k).lanes = (s.port k).lanes := by
  have own := (unsent_portDown served cause p).trans (if_pos rfl)
  have other (k : Nat) (hk : k ≠ p) := (unsent_portDown served cause k).trans (if_neg (Ne.symm hk))
  refine ⟨portDown s p cause, rfl, ?_⟩
  generalize portDown s p cause = t at own other
  exact ⟨(congrArg Port.up own :), (congrArg Port.lanes own :), (congrArg Port.outQ own :), (congrArg Port.replay own :),
    fun k hk => ⟨(congrArg Port.up (other k hk) :), (congrArg Port.lanes (other k hk) :)⟩⟩

theorem wholeHalf_iff {lanes : Nat} : wholeHalf lanes = true ↔ bits lanes 3 0 = 15 ∨ bits lanes 7 4 = 15 := by
  simp [wholeHalf]

theorem wholeHalf_mod {lanes : Nat} (h : bits lanes 3 0 = 15 ∨ bits lanes 7 4 = 15) : wholeHalf (lanes % 256) = true := by
  rw [wholeHalf_iff]
  simp only [bits] at h ⊢
  omega

/-- What a training leaves in its port (R517): one that comes up counts from 0. -/
def Port.trained (x : Port) (lanes : Nat) (fast : Bool) : Port :=
  if x.up then { x with training := false, lanes, fast }
  else { x with training := false, lanes, fast, up := true, txSeq := 0, rxSeq := 0, nakked := false, rxSinceAck := 0, replays := 0 }

theorem Port.trained_law (x : Port) (lanes : Nat) (fast : Bool) : (x.trained lanes fast).up = true ∧ (x.trained lanes fast).lanes = lanes ∧
    (x.trained lanes fast).fast = fast ∧ (x.trained lanes fast).training = false := by
  unfold Port.trained
  split_ifs with served
  · exact ⟨served, rfl, rfl, rfl⟩
  · exact ⟨rfl, rfl, rfl, rfl⟩

theorem execLinkTrainingDone_whole {p lanes : Nat} {fast : Bool} {s : State} (hp : p < 8) (training : (s.port p).training = true)
    (whole : wholeHalf (lanes % 256) = true) : ∃ t : State,
    exec (.linkTrainingDone p lanes fast) s = .next (sendAck t p) ∧
      ∀ k, t.port k = if p = k then (s.port p).trained (lanes % 256) fast else s.port k := by
  set x := (s.updPort p fun x => { x with training := false }).updPort p fun x =>
    if (s.port p).up then { x with lanes := lanes % 256, fast }
    else { x with lanes := lanes % 256, fast, up := true, txSeq := 0, rxSeq := 0, nakked := false, rxSinceAck := 0, replays := 0 } with hx
  refine ⟨lanesDown (surveyChange x) p ((List.range 8).filter fun l => bit (s.port p).lanes l && !bit (lanes % 256) l) (nextGeneration x),
    ?_, fun k => ?_⟩
  · show execLinkTrainingDone p lanes fast s = _
    unfold execLinkTrainingDone
    simp only [portUp, training, whole, Nat.not_le.mpr hp, decide_false, Bool.not_true, Bool.or_false, Bool.false_eq_true, if_false]
    rfl
  · rw [(raises_lanesDown ..).port, port_surveyChange, hx]
    simp only [State.port_updPort, if_pos, Port.trained]
    split_ifs <;> rfl

theorem linkTrainingDone_law (p lanes : Nat) (fast : Bool) (s : State) (hp : p < 8) (training : (s.port p).training = true)
    (half : bits lanes 3 0 = 15 ∨ bits lanes 7 4 = 15) :
    ∃ t : State, exec (.linkTrainingDone p lanes fast) s = .next t ∧ (t.port p).up = true ∧ (t.port p).lanes = lanes % 256 ∧
      (t.port p).fast = fast ∧ (t.port p).training = false ∧
      ((s.port p).up = false → (t.port p).rxSeq = 0 ∧ (t.port p).txSeq = 1) ∧ ∀ k, k ≠ p → t.port k = s.port k := by
  obtain ⟨x, run, port⟩ := execLinkTrainingDone_whole (fast := fast) hp training (wholeHalf_mod half)
  obtain ⟨lastSync, replay, own⟩ := port_sendAck x p p
  rw [port, if_pos rfl, if_pos rfl] at own
  refine ⟨sendAck x p, run, ?_⟩
  rw [own]
  obtain ⟨up, lane, speed, trained⟩ := (s.port p).trained_law (lanes % 256) fast
  refine ⟨up, lane, speed, trained, fun down => ?_, fun k hk => ?_⟩
  · simp [Port.trained, down]
  · obtain ⟨lastSync, replay, other⟩ := port_sendAck x p k
    rw [other, if_neg (Ne.symm hk), port, if_neg (Ne.symm hk)]

theorem linkRetrain_law (p lane : Nat) (s : State) (served : (s.port p).up = true) (hl : lane < 8) :
    let left := (s.port p).lanes &&& (if lane < 4 then 0xF0 else 0x0F)
    (bits left 3 0 = 15 ∨ bits left 7 4 = 15) →
    ∃ t : State, exec (.linkRetrain p lane) s = .next t ∧ (t.port p).up = true ∧ (t.port p).lanes = left ∧
      (t.port p).training = true ∧ ∀ k, k ≠ p → t.port k = s.port k := by
  intro left half
  have whole : wholeHalf left = true := wholeHalf_iff.mpr half
  have hleft : ((s.port p).lanes &&& (if (lane / 4 == 0) = true then 0xF0 else 0x0F)) = left := by
    have : (lane / 4 == 0) = decide (lane < 4) := by
      rw [Bool.eq_iff_iff, beq_iff_eq, decide_eq_true_iff]
      omega
    rw [this]
    simp [left]
  set u := (raiseChip s 0x500A 0 2 p 0 [p, lane / 4]).updPort p fun x => { x with lanes := left, training := true } with hu
  have raised (k : Nat) := (raises_raiseChip s 0x500A 0 2 p 0 [p, lane / 4] false false).port k
  have port (k : Nat) : (lanesDown (surveyChange u) p ((List.range 4).map (· + 4 * (lane / 4))) (nextGeneration u)).port k =
      if p = k then { s.port p with lanes := left, training := true } else s.port k := by
    rw [(raises_lanesDown ..).port, port_surveyChange, hu, State.port_updPort, raised, raised]
  refine ⟨lanesDown (surveyChange u) p ((List.range 4).map (· + 4 * (lane / 4))) (nextGeneration u), ?_, ?_⟩
  · show execLinkRetrain p lane s = _
    unfold execLinkRetrain
    simp only [portUp, served, hleft, whole, Nat.not_le.mpr hl]
    simp [hu]
  · rw [port p, if_pos rfl]
    exact ⟨served, rfl, rfl, fun k hk => (port k).trans (if_neg (Ne.symm hk))⟩

theorem portRetrain_law (p : Nat) (s : State) (hp : p < 8) (reached : reach s (0x200000 + p * 0x10000) ≠ .dead) :
    ∃ t : State, exec (.portRetrain p) s = .next t ∧ (t.port p).up = false ∧ (t.port p).training = true := by
  refine ⟨retrainPort s p, ?_, retrainPort_law s p⟩
  show execPortRetrain p s = _
  simp [execPortRetrain, Nat.not_le.mpr hp, reached]

/-! Formation (R98, R536, R759). -/

theorem role_announce (s : State) (k : Nat) : ((announce s).port k).role = (s.port k).role :=
  (congrArg Port.role (unsent_announce s k) :)

theorem rolePort_leaveGroup (s : State) : rolePort (leaveGroup s) = rolePort s := by
  have role (k : Nat) : ((leaveGroup s).port k).role = (s.port k).role := by
    unfold leaveGroup
    exact role_announce ..
  simp only [rolePort, role]

theorem keepsSheet_dropForms (s : State) : KeepsSheet s (dropForms s) := .foldl fun _ _ => .note ..

theorem forming_leaveGroup (s : State) : (leaveGroup s).grp.forming = none := by
  unfold leaveGroup
  rw [announce_grp]

theorem grp_dropForms (s : State) : (dropForms s).grp = s.grp :=
  foldl_keeps State.grp (f := fun s p => s.updPort p fun x => { x with form := none }) (fun _ _ => rfl) _ s

/-- A failed formation leaves the device alone, with FORM_FAIL set (R759). -/
theorem formFail_law (s : State) (p check : Nat) :
    (formFail s p check).sht.core = { s.sht.core with enable := false, groupActive := false } ∧
    (formFail s p check).grp.formFail = true ∧ (formFail s p check).grp.forming = none ∧ (formFail s p check).clk = s.clk := by
  unfold formFail
  extract_lets member d _ f
  have hd : KeepsSheet (leaveGroup s) d := keepsSheet_dropForms ..
  have hf : d.grp.forming = none := (congrArg Grp.forming (grp_dropForms _)).trans (forming_leaveGroup s)
  obtain ⟨clk, -, -, sht⟩ := leaveGroup_law s
  have dclk := hd.clk.trans clk
  have dsht := hd.sht.trans sht
  clear_value d
  have h := raises_raiseChip f 0x5005 1 2 (if p == 0xFF then 0 else p) 0 [p, if p == 0xFF then 0xFF else member, check] false false
  refine ⟨h.keepsSheet.sht.trans dsht, ?_, ?_, h.keepsSheet.clk.trans dclk⟩
  · exact (congrArg Grp.formFail h.grp :)
  · exact (congrArg Grp.forming h.grp :).trans hf

theorem execGroupFormation_busy {v : Nat} {s : State} (reached : datumReach s 5 = true) (busy : s.jobActive = true) :
    exec (.groupFormation v) s = .next { s with sht := { s.sht with writeRej := true } } := by
  show execGroupFormation v s = _
  simp [execGroupFormation, reached, busy]

theorem execGroupFormation_alone {v : Nat} {s : State} (reached : datumReach s 5 = true) (idle : s.jobActive = false)
    (alone : bit v 31 = false) :
    exec (.groupFormation v) s = .next (dropForms (leaveGroup { s with sht := { s.sht with member := v % 32 } })) := by
  show execGroupFormation v s = _
  simp [execGroupFormation, reached, idle, alone]

/-- The device that begins its formation at round 0 (R536). -/
def begunFormation (s : State) (member : Nat) : State :=
  let m : State := leaveGroup { s with sht := { s.sht with member } }
  { m with sht := { m.sht with enable := true }
           grp := { m.grp with forming := some s.clk.ps, round := 0, largest := s.sht.tick, formed := false } }

theorem execGroupFormation_enabled {v : Nat} {s : State} (reached : datumReach s 5 = true) (idle : s.jobActive = false)
    (enabled : bit v 31 = true) : exec (.groupFormation v) s = .next
      (if rolePort s = [] then formFail (begunFormation s (v % 32)) 0xFF 1
      else formStep (sendForms (earlyForms (begunFormation s (v % 32))) 0)) := by
  have roles : rolePort (begunFormation s (v % 32)) = rolePort s := rolePort_leaveGroup { s with sht := { s.sht with member := v % 32 } }
  obtain ⟨clk, -, -, sht⟩ := leaveGroup_law { s with sht := { s.sht with member := v % 32 } }
  have tick : (leaveGroup { s with sht := { s.sht with member := v % 32 } }).sht.tick = s.sht.tick := (congrArg Sht.tick sht :)
  show execGroupFormation v s = _
  unfold execGroupFormation
  rw [reached, idle, enabled]
  extract_lets m _ l _ _ f
  have hf : f = begunFormation s (v % 32) := by
    simp only [f, begunFormation]
    rw [show l.clk = s.clk from clk, show l.sht.tick = s.sht.tick from tick]
  rw [hf, roles]
  clear hf
  clear_value f
  simp only [Bool.not_true, Bool.false_eq_true, if_false, List.isEmpty_iff]
  split_ifs <;> rfl

theorem groupFormation_law (v : Nat) (s : State) (reached : datumReach s 5 = true) :
    let m := { s with sht := { s.sht with member := v % 32 } }
    (s.jobActive = true → exec (.groupFormation v) s = .next { s with sht := { s.sht with writeRej := true } }) ∧
    (s.jobActive = false → bit v 31 = false → exec (.groupFormation v) s = .next (dropForms (leaveGroup m))) ∧
    (s.jobActive = false → bit v 31 = true → rolePort s = [] → ∃ t : State, exec (.groupFormation v) s = .next t ∧
      t.sht.enable = false ∧ t.grp.formFail = true ∧ t.grp.forming = none ∧ t.sht.member = v % 32) ∧
    (s.jobActive = false → bit v 31 = true → rolePort s ≠ [] →
      let f : State := { leaveGroup m with
        sht := { (leaveGroup m).sht with enable := true }
        grp := { (leaveGroup m).grp with forming := some s.clk.ps, round := 0, largest := s.sht.tick, formed := false } }
      exec (.groupFormation v) s = .next (formStep (sendForms (earlyForms f) 0))) := by
  intro m
  refine ⟨execGroupFormation_busy reached, execGroupFormation_alone reached, fun idle enabled none => ?_, fun idle enabled some => ?_⟩
  · have run := execGroupFormation_enabled reached idle enabled
    rw [if_pos none] at run
    obtain ⟨sht, fail, forming, -⟩ := formFail_law (begunFormation s (v % 32)) 0xFF 1
    obtain ⟨-, -, -, left⟩ := leaveGroup_law m
    have member : (begunFormation s (v % 32)).sht.core.member = v % 32 := (congrArg Sht.member left :)
    refine ⟨_, run, ?_, fail, forming, ?_⟩
    · exact (congrArg Sht.enable sht :)
    · exact (congrArg Sht.member sht :).trans member
  · have run := execGroupFormation_enabled reached idle enabled
    rw [if_neg some] at run
    exact run

theorem form_law (p sync : Nat) (b : Bytes) (s : State) (served : (s.port p).up = true) :
    let u := takeEvent (acceptFlit (takeState s p sync) p) p sync
    let fields := [num b 4 1, num b 5 1, num b 6 1, num b 7 1, num b 8 4, num b 12 4, num b 16 8, num b 24 1, num b 25 8]
    exec (.form p ⟨sync, b⟩) s = .next (agree (formStep (u.updPort p fun x => { x with
      form := some fields, formAt := u.clk.ps, partnerSerial := if num b 7 1 = 0 then num b 25 8 else x.partnerSerial }))) := by
  show execForm p ⟨sync, b⟩ s = _
  unfold execForm receive
  simp only [portUp, served, Bool.not_true, Bool.false_eq_true, if_false, List.getD_cons_zero, List.getD_cons_succ, beq_iff_eq]

theorem formStep_law (s : State) :
    (s.grp.forming = none → formStep s = s) ∧
    (∀ p k, s.grp.forming.isSome = true → (rolePort s).findSome? (fun p => (formCheck s p).map fun k => (p, k)) = some (p, k) →
      formStep s = formFail s p k) := by
  refine ⟨fun alone => ?_, fun p k forming check => ?_⟩
  · simp [formStep, alone]
  · unfold formStep
    simp [Option.isNone_eq_false_iff.mpr forming, check]

theorem groupFormTimeout_law (t0 : Nat) (s : State) (forming : s.grp.forming = some t0) :
    ∃ t : State, exec .groupFormTimeout s = .next t ∧ t.sht.enable = false ∧ t.grp.formFail = true ∧ t.grp.forming = none ∧
      t.clk.ps = max s.clk.ps (t0 + 10000000000) := by
  have run : ∃ p, exec .groupFormTimeout s = .next (formFail (s.untilPs (t0 + 10 ^ 10)) p 1) := by
    simp only [exec, execGroupFormTimeout, forming]
    exact ⟨_, rfl⟩
  obtain ⟨p, run⟩ := run
  obtain ⟨sht, fail, none, clk⟩ := formFail_law (s.untilPs (t0 + 10 ^ 10)) p 1
  refine ⟨_, run, (congrArg Sht.enable sht :), fail, none, ?_⟩
  rw [clk]
  simp only [State.untilPs, State.advancePs]
  omega

/-- Settles O41, one law for each row of training and of formation. That a FORM record of the 10 ms before a member's own formation
counts for it (`earlyForms`) is the model's choice (log entry 53). -/
theorem portsTrainAndGroupsForm : Obligations.PortsTrainAndGroupsForm :=
  ⟨linkTrainingDone_law, linkPortDown_law, linkRetrain_law, portRetrain_law, groupFormation_law, form_law, formStep_law,
    groupFormTimeout_law⟩

end Sys2Proof.Machine
end

section
/-! ### A job's cells are cleared (R87, R244, R387) -/

namespace Sys2Proof.Machine

open Sys2Proof

/-- A fold whose entries change the parts of the state they name, each in a way that a second change leaves alone: what a part reads
afterwards. `P` is what the entries rely on. -/
theorem read_foldl {α β : Type} {P : State → Prop} {rd : State → Nat → β} {f : State → α → State} {key : α → Nat}
    {g : Nat → β → β}
    (keep : ∀ t x, P t → P (f t x))
    (step : ∀ t x k, P t → rd (f t x) k = if key x = k then g k (rd t k) else rd t k)
    (idem : ∀ k y, g k (g k y) = g k y) (l : List α) {s : State} (hs : P s) (k : Nat) :
    rd (l.foldl f s) k = if k ∈ l.map key then g k (rd s k) else rd s k := by
  induction l generalizing s with
  | nil => rfl
  | cons x l ih =>
    rw [List.foldl_cons, ih (keep s x hs), step s x k hs, List.map_cons]
    by_cases own : key x = k
    · subst own
      simp [idem]
    · simp [own, Ne.symm own]

theorem skeep_skeep {α : Type} (p : Nat → Bool) (m : Sparse α) : skeep p (skeep p m) = skeep p m := by
  induction m with
  | nil => rfl
  | cons e m ih =>
    obtain ⟨k, v⟩ := e
    simp only [skeep]
    split_ifs with h
    · simp only [skeep, h, if_true, ih]
    · exact ih

/-- A clearing leaves nothing in the good banks of a cell's accumulators (R244). -/
def clearedMm (s : State) (c : Nat) (m : Matrix) : Matrix :=
  { m with acc := skeep (fun k => bit (s.cellPlan c).banksGone (k / 4096)) m.acc
           accBad := skeep (fun k => bit (s.cellPlan c).banksGone (k / 4096)) m.accBad }

theorem cellPlan_congr {s t : State} (h : t.plan = s.plan) (c : Nat) : t.cellPlan c = s.cellPlan c := by
  unfold State.cellPlan
  rw [h]

theorem cell_foldl_clearCore (l : List Nat) (s : State) (c : Nat) : (l.foldl clearCore s).cell c =
    if c ∈ l then { s.cell c with mm := clearedMm s c (s.cell c).mm } else s.cell c := by
  have h := read_foldl (P := fun t => t.plan = s.plan) (rd := State.cell) (f := clearCore) (key := id)
    (g := fun k x => { x with mm := clearedMm s k x.mm }) (fun _ _ ht => ht) (fun t x k ht => ?_) (fun k x => ?_) l rfl c
  · rwa [List.map_id] at h
  · simp only [id, clearCore, State.cell_updBlock, State.cell_updMm, cellPlan_congr ht, clearedMm]
    split_ifs with e
    · subst e
      rfl
    · rfl
  · simp only [clearedMm, skeep_skeep]

theorem block_foldl_clearCore (l : List Nat) (s : State) (b : Nat) : (l.foldl clearCore s).block b =
    if b ∈ l.map blockIndex then { s.block b with preds := 0, extents := [] } else s.block b :=
  read_foldl (P := fun _ => True) (rd := State.block) (f := clearCore) (key := blockIndex)
    (g := fun _ x => { x with preds := 0, extents := [] }) (fun _ _ _ => trivial)
    (fun t c k _ => by
      refine (State.block_updBlock ..).trans ?_
      split_ifs with e
      · subst e
        rfl
      · rfl)
    (fun _ _ => rfl) l trivial b

/-- A stash without contents. -/
def emptied (x : Stash) : Stash := { x with written := [], checks := [], badChecks := [], data := [] }

theorem cell_foldl_clearWritten (l : List Nat) (s : State) (c : Nat) : (l.foldl clearWritten s).cell c =
    if c ∈ l then { s.cell c with stash := emptied (s.cell c).stash } else s.cell c := by
  have h := read_foldl (P := fun _ => True) (rd := State.cell) (f := clearWritten) (key := id)
    (g := fun _ x => { x with stash := emptied x.stash }) (fun _ _ _ => trivial)
    (fun t x k _ => (State.cell_updStash ..).trans (by
      simp only [id]
      split_ifs with e
      · subst e
        rfl
      · rfl)) (fun _ _ => rfl) l (s := s) trivial c
  rwa [List.map_id] at h

theorem foldl_clearWritten_rest (l : List Nat) (s : State) : { l.foldl clearWritten s with cells := s.cells } = s :=
  foldl_keeps (fun t => { t with cells := s.cells }) (f := clearWritten) (fun _ _ => rfl) l s

theorem cairnVal_clearCairns (s : State) (base m : Nat) {n : Nat} (hn : n < 4096) (copy : Nat) :
    cairnVal (clearCairns s base m) n copy = if base ≤ n ∧ n < base + m then 0 else cairnVal s n copy := by
  have key : cairnKey n copy % 4096 = n := by
    unfold cairnKey
    omega
  unfold cairnVal clearCairns
  simp only [sget_skeep, key]
  by_cases inside : base ≤ n ∧ n < base + m
  · simp [inside]
  · simp only [inside, if_false]
    rw [if_pos]
    simp only [Bool.not_eq_true', Bool.and_eq_false_iff, decide_eq_false_iff_not]
    exact Classical.not_and_iff_not_or_not.mp inside

/-- A clearing whose stashes may still wait: the cells' accumulators, predicates, extents and cairns are gone. -/
def coreCleared (s : State) (k : Clear) : State :=
  { clearCairns (k.cells.foldl clearCore s) k.cairnBase k.cairnCount with
    clearing := s.clearing.map fun x => if x = k then { k with cleared := true } else x }

theorem cell_coreCleared (s : State) (k : Clear) (c : Nat) : (coreCleared s k).cell c =
    if c ∈ k.cells then { s.cell c with mm := clearedMm s c (s.cell c).mm } else s.cell c :=
  cell_foldl_clearCore ..

theorem block_coreCleared (s : State) (k : Clear) (b : Nat) : (coreCleared s k).block b =
    if b ∈ k.cells.map blockIndex then { s.block b with preds := 0, extents := [] } else s.block b :=
  block_foldl_clearCore ..

theorem foldl_clearCore_rest (l : List Nat) (s : State) : { l.foldl clearCore s with cells := s.cells, blocks := s.blocks } = s :=
  foldl_keeps (fun t => { t with cells := s.cells, blocks := s.blocks }) (f := clearCore) (fun _ _ => rfl) l s

theorem coreCleared_rest (s : State) (k : Clear) :
    { coreCleared s k with cells := s.cells, blocks := s.blocks, syn := s.syn, clearing := s.clearing } = s := by
  have h := foldl_clearCore_rest k.cells s
  exact (congrArg (fun t : State => { t with syn := s.syn, clearing := s.clearing }) h :)

theorem cairnVal_coreCleared (s : State) (k : Clear) {n : Nat} (hn : n < 4096) (copy : Nat) :
    cairnVal (coreCleared s k) n copy = if k.cairnBase ≤ n ∧ n < k.cairnBase + k.cairnCount then 0 else cairnVal s n copy := by
  have same : (k.cells.foldl clearCore s).syn = s.syn := foldl_keeps State.syn (f := clearCore) (fun _ _ => rfl) ..
  have h := cairnVal_clearCairns (k.cells.foldl clearCore s) k.cairnBase k.cairnCount hn copy
  refine Eq.trans h ?_
  unfold cairnVal
  rw [same]

theorem stashWaits_coreCleared (s : State) (k : Clear) :
    stashWaits (coreCleared s k) { k with cleared := true } = stashWaits s k := by
  simp only [stashWaits, coreCleared, List.any_map]
  congr 2
  funext x
  simp only [Function.comp]
  split_ifs with h
  · subst h
    rfl
  · rfl

/-- The clearing takes effect; its stashes are cleared, and it is over, unless a save still needs them (R387). -/
theorem clearNow_eq (s : State) (k : Clear) : clearNow s k =
    if stashWaits s k then coreCleared s k
    else k.cells.foldl clearWritten { coreCleared s k with
      clearing := (coreCleared s k).clearing.filter fun x => decide (x ≠ { k with cleared := true }) } := by
  have h : clearNow s k = endClear (coreCleared s k) { k with cleared := true } := by
    have same : (clearCairns (k.cells.foldl clearCore s) k.cairnBase k.cairnCount).clearing = s.clearing :=
      foldl_keeps State.clearing (f := clearCore) (fun _ _ => rfl) k.cells s
    simp only [clearNow, coreCleared, same]
  rw [h, endClear, stashWaits_coreCleared]
  simp

theorem execContextClearDone_now {job : Nat} {s : State} {k : Clear}
    (found : s.clearing.find? (fun k => k.job == job && !k.cleared) = some k) (now : clearPutOff s k = false)
    (intime : k.noLimit = true ∨ s.clk.cycles ≤ k.since + 8192) : exec (.contextClearDone job) s = .next (clearNow s k) := by
  have late : (!k.noLimit && decide (k.since + 8192 < s.clk.cycles)) = false := by
    rcases intime with h | h
    · simp [h]
    · simp [Nat.not_lt.mpr h]
  show execContextClearDone job s = _
  unfold execContextClearDone
  rw [found]
  simp [now, late]

/-- What a clearing leaves in a cell: nothing in the good banks, and no stash contents unless a save needs them. -/
theorem cell_clearNow (s : State) (k : Clear) (c : Nat) : (clearNow s k).cell c =
    if c ∈ k.cells then { s.cell c with mm := clearedMm s c (s.cell c).mm
                                        stash := if stashWaits s k then (s.cell c).stash else emptied (s.cell c).stash }
    else s.cell c := by
  rw [clearNow_eq]
  by_cases waits : stashWaits s k = true
  · simp only [waits, if_true, cell_coreCleared]
  · simp only [waits, Bool.false_eq_true, if_false, cell_foldl_clearWritten]
    refine Eq.trans (b := if c ∈ k.cells then { (coreCleared s k).cell c with stash := emptied ((coreCleared s k).cell c).stash }
      else (coreCleared s k).cell c) rfl ?_
    rw [cell_coreCleared]
    split_ifs <;> rfl

theorem clearNow_core (s : State) (k : Clear) : { clearNow s k with cells := s.cells, clearing := s.clearing } =
    { coreCleared s k with cells := s.cells, clearing := s.clearing } := by
  rw [clearNow_eq]
  split_ifs
  · rfl
  · have h := foldl_clearWritten_rest k.cells { coreCleared s k with
      clearing := (coreCleared s k).clearing.filter fun x => decide (x ≠ { k with cleared := true }) }
    exact (congrArg (fun t : State => { t with cells := s.cells, clearing := s.clearing }) h :)

theorem clearing_clearNow (s : State) (k : Clear) : (clearNow s k).clearing =
    ((s.clearing.map fun x => if x = k then { k with cleared := true } else x).filter fun x =>
      stashWaits s k || decide (x ≠ { k with cleared := true })) := by
  rw [clearNow_eq]
  by_cases waits : stashWaits s k = true
  · simp [waits, coreCleared]
  · simp only [waits, Bool.false_eq_true, if_false, Bool.false_or]
    exact foldl_keeps State.clearing (f := clearWritten) (fun _ _ => rfl) ..

theorem contextClearDone_law (job : Nat) (s : State) (k : Clear)
    (found : s.clearing.find? (fun k => k.job == job && !k.cleared) = some k) (now : clearPutOff s k = false)
    (intime : k.noLimit = true ∨ s.clk.cycles ≤ k.since + 8192) : let k' := { k with cleared := true }
    ∃ t : State, exec (.contextClearDone job) s = .next t ∧
      t.clearing = ((s.clearing.map fun x => if x = k then k' else x).filter fun x => stashWaits s k || decide (x ≠ k')) ∧
      (∀ c ∈ k.cells, (t.block (blockIndex c)).preds = 0 ∧ (t.block (blockIndex c)).extents = [] ∧
        (∀ e, bit (s.cellPlan c).banksGone (e / 4096) = false → sget (0 : Word) (t.cell c).mm.acc e = 0) ∧
        (∀ e, bit (s.cellPlan c).banksGone (e / 4096) = true →
          sget (0 : Word) (t.cell c).mm.acc e = sget (0 : Word) (s.cell c).mm.acc e) ∧
        if stashWaits s k then (t.cell c).stash = (s.cell c).stash else (t.cell c).stash.written = []) ∧
      (∀ n copy, k.cairnBase ≤ n → n < k.cairnBase + k.cairnCount → n < 4096 → copy ≤ 32 → cairnVal t n copy = 0) ∧
      (∀ n copy, n < 4096 → n < k.cairnBase ∨ k.cairnBase + k.cairnCount ≤ n → cairnVal t n copy = cairnVal s n copy) ∧
      (∀ c, c ∉ k.cells → t.cell c = s.cell c) ∧
      { t with cells := s.cells, blocks := s.blocks, syn := s.syn, clearing := s.clearing } = s := by
  intro k'
  have core := clearNow_core s k
  have block (b : Nat) : (clearNow s k).block b = (coreCleared s k).block b := (congrArg (State.block · b) core :)
  have cairn (n copy : Nat) : cairnVal (clearNow s k) n copy = cairnVal (coreCleared s k) n copy := (congrArg (cairnVal · n copy) core :)
  have rest : { clearNow s k with cells := s.cells, blocks := s.blocks, syn := s.syn, clearing := s.clearing } = s :=
    (congrArg (fun t : State => { t with blocks := s.blocks, syn := s.syn }) core :).trans (coreCleared_rest s k)
  refine ⟨clearNow s k, execContextClearDone_now found now intime, clearing_clearNow s k, fun c hc => ?_,
    fun n copy lo hi hn _ => ?_, fun n copy hn out => ?_, fun c hc => ?_, rest⟩
  · have cell := cell_clearNow s k c
    rw [if_pos hc] at cell
    have mine := block (blockIndex c)
    rw [block_coreCleared, if_pos (List.mem_map_of_mem hc)] at mine
    rw [mine, cell]
    refine ⟨rfl, rfl, fun e good => ?_, fun e gone => ?_, ?_⟩
    · simp [clearedMm, sget_skeep, good]
    · simp [clearedMm, sget_skeep, gone]
    · split_ifs <;> rfl
  · rw [cairn, cairnVal_coreCleared s k hn, if_pos ⟨lo, hi⟩]
  · rw [cairn, cairnVal_coreCleared s k hn, if_neg (by omega)]
  · rw [cell_clearNow, if_neg hc]

theorem clearTimeout_law (job : Nat) (s : State) (k : Clear)
    (found : s.clearing.find? (fun k => k.job == job && !k.cleared && !k.noLimit) = some k) :
    exec (.clearTimeout job) s = .next (raiseChip (s.untilCycle (k.since + 8193)) 0x3104 3 0x0A 0 job []) := by
  show execClearTimeout job s = _
  unfold execClearTimeout
  rw [found]

/-! ### A job starts (R123, R127, R165, R210, R365) -/

theorem jobPrepareDone_law (job : Nat) (ph : List Phys) (s v : State) (j : Job) : let u := injectAll s ph
    u.job? job = some j → j.phase = .preparing → j.ending = none → copyInitial u j = (.ok (), v) →
    exec (.jobPrepareDone job ph) s = .next ((fetchFirst (seedCells v j) j).updJob job fun x => { x with phase := .ready }) := by
  intro u known preparing unended copied
  show execJobPrepareDone job ph s = _
  unfold execJobPrepareDone
  simp only [show (injectAll s ph).job? job = some j from known, preparing, unended, show copyInitial (injectAll s ph) j = _ from copied]
  simp

/-- A segment fetched for the open sheet, or kept for the next. -/
def takeSegment (now : Bool) (e : StreamEnt) (ws : List Nat) (q : Seq) : Seq :=
  if now then { q with stream := ws, live := e.live, fetched := true } else { q with next := some (ws, e.live) }

theorem execStreamSegmentFetch_fetched {c : Nat} {ph : List Phys} {s w : State} {j : Job} {v : VCell} {e : StreamEnt} {b : Nat}
    {ws : List Nat} {now : Bool}
    (hnow : (!((injectAll s ph).cell c).seq.fetched && decide (j.phase = .running)) = now)
    (known : (injectAll s ph).job? ((injectAll s ph).cell c).seq.job = some j) (unended : j.ending = none)
    (free : ((injectAll s ph).cell c).seq.next = none) (virt : j.image.cells[((injectAll s ph).cell c).seq.vindex]? = some v)
    (seg : segmentOf j.image v (if now then j.sheet else j.sheet + 1) = some (e, b))
    (fetched : fetchSegment (injectAll s ph) j c e = (some ws, w)) :
    ∃ n, exec (.streamSegmentFetch c ph) s = .next (if now then (w.updSeq c (takeSegment true e ws)).countCell 0x00E c n
      else w.updSeq c (takeSegment false e ws)) := by
  refine ⟨(w.updSeq c (takeSegment true e ws)).sinceTick, ?_⟩
  show execStreamSegmentFetch c ph s = _
  unfold execStreamSegmentFetch
  simp only [known, unended, free, virt, hnow, Option.bind_some, seg, fetched]
  cases now <;> rfl

theorem streamSegmentFetch_law (c : Nat) (ph : List Phys) (s w : State) (j : Job) (v : VCell) (e : StreamEnt) (b : Nat) (ws : List Nat) :
    let u := injectAll s ph
    let q := (u.cell c).seq
    let now := q.fetched = false ∧ j.phase = .running
    u.job? q.job = some j → j.ending = none → q.next = none → j.image.cells[q.vindex]? = some v →
    segmentOf j.image v (if now then j.sheet else j.sheet + 1) = some (e, b) → fetchSegment u j c e = (some ws, w) →
    ∃ t : State, exec (.streamSegmentFetch c ph) s = .next t ∧
      t.cell c = { w.cell c with seq := if now then { (w.cell c).seq with stream := ws, live := e.live, fetched := true }
        else { (w.cell c).seq with next := some (ws, e.live) } } ∧
      (∀ d, d ≠ c → t.cell d = w.cell d) ∧ { t with cells := w.cells, mon := w.mon } = w := by
  intro u q now known unended free virt seg fetched
  have hnow : (!q.fetched && decide (j.phase = .running)) = decide now := by simp [now]
  obtain ⟨n, run⟩ := execStreamSegmentFetch_fetched hnow known unended free virt (by simpa using seg) fetched
  refine ⟨_, run, ?_, fun d hd => ?_, ?_⟩
  · by_cases h : now
    · simp only [h, decide_true, if_true, State.countCell, State.cell_count, State.cell_updSeq]
      rfl
    · simp only [h, decide_false, Bool.false_eq_true, if_false, State.cell_updSeq]
      rfl
  · by_cases h : now
    · simp only [h, decide_true, if_true, State.countCell, State.cell_count, State.cell_updSeq, if_neg (Ne.symm hd)]
    · simp only [h, decide_false, Bool.false_eq_true, if_false, State.cell_updSeq, if_neg (Ne.symm hd)]
  · split_ifs <;> rfl

theorem goodGranules_congr {s t : State} (h : t.plan = s.plan) (c : Nat) : t.goodGranules c = s.goodGranules c := by
  simp only [State.goodGranules, cellPlan_congr h]

theorem goodBanks_congr {s t : State} (h : t.plan = s.plan) (c : Nat) : t.goodBanks c = s.goodBanks c := by
  simp only [State.goodBanks, cellPlan_congr h]

theorem map_pcell_zipIdx (j : Job) : (j.image.cells.zipIdx.map fun e => e.1.pcell) = jobCells j := by
  conv_rhs => rw [jobCells, ← List.zipIdx_map_fst 0 j.image.cells, List.map_map]
  rfl

/-- The sequencer of a cell that a job takes, with the granules and banks that are good (R241, R365). -/
def givenSeq (s : State) (job k c : Nat) : Seq := { job, vindex := k, gran := s.goodGranules c, banks := s.goodBanks c }

/-- One of a job's cells, with its place in the job's list, is given to it. -/
def giveCell (job : Nat) (s : State) (e : VCell × Nat) : State := s.updSeq e.1.pcell fun _ => givenSeq s job e.2 e.1.pcell

theorem giveCells_eq (s : State) (j : Job) : giveCells s j = j.image.cells.zipIdx.foldl (giveCell j.id) s := rfl

theorem cell_giveCell (job : Nat) {s t : State} (e : VCell × Nat) (c : Nat) (h : t.plan = s.plan) : (giveCell job t e).cell c =
    if e.1.pcell = c then { t.cell c with seq := givenSeq s job e.2 e.1.pcell } else t.cell c := by
  simp only [giveCell, State.cell_updSeq, givenSeq, goodGranules_congr h, goodBanks_congr h]
  split_ifs with own
  · subst own
    rfl
  · rfl

theorem giveCells_law (s : State) (j : Job) :
    (∀ k v, (jobCells j).Nodup → j.image.cells[k]? = some v → (giveCells s j).cell v.pcell =
      { s.cell v.pcell with seq := givenSeq s j.id k v.pcell }) ∧
    (∀ c, c ∉ jobCells j → (giveCells s j).cell c = s.cell c) ∧ { giveCells s j with cells := s.cells } = s := by
  have keep (t : State) (e : VCell × Nat) (h : t.plan = s.plan) : (giveCell j.id t e).plan = s.plan := h
  have step (t : State) (e : VCell × Nat) (c : Nat) (h : t.plan = s.plan) := cell_giveCell j.id e c h
  refine ⟨fun k v nodup hv => ?_, fun c hc => ?_, ?_⟩
  · rw [← map_pcell_zipIdx] at nodup
    exact cell_foldl (key := fun e : VCell × Nat => e.1.pcell)
      (g := fun e x => { x with seq := givenSeq s j.id e.2 e.1.pcell }) keep step nodup rfl (List.mk_mem_zipIdx_iff_getElem?.mpr hv)
  · rw [← map_pcell_zipIdx] at hc
    exact cell_foldl_other (key := fun e : VCell × Nat => e.1.pcell)
      (g := fun e x => { x with seq := givenSeq s j.id e.2 e.1.pcell }) keep step rfl hc
  · exact foldl_keeps (fun t => { t with cells := s.cells }) (f := giveCell j.id) (fun _ _ => rfl) _ s

/-- A job that passed the checks is on the list, its JOB_START waits, and the tables left under its number are gone. -/
def admitted (u : State) (d : Desc) (j : Job) : State :=
  { updDesc u d fun x => { x with phase := .waiting } with jobs := u.jobs ++ [j], tables := u.tables.filter fun t => t.job != j.id }

section
variable {ring : Nat} {param image : Bytes} {ph : List Phys} {s : State} {d : Desc}

theorem execJobStart_fatal (waits : unbegun (injectAll s ph) ring = some d) (type : dType d.raw = 1) (fetched : d.phase = .fetched)
    (fatal : (injectAll s ph).err.fatal = true) :
    exec (.jobStart ring (some param) (some image) ph) s = .next (complete (injectAll s ph) d 0x42 0) := by
  show execJobStart ring (some param) (some image) ph s = _
  unfold execJobStart
  simp [waits, type, fetched, fatal, fatalEnd]

theorem execJobStart_checks (waits : unbegun (injectAll s ph) ring = some d) (type : dType d.raw = 1) (fetched : d.phase = .fetched)
    (order : dFlag d.raw 9 = false ∨ alone (injectAll s ph) d = true) (sound : (injectAll s ph).err.fatal = false) :
    exec (.jobStart ring (some param) (some image) ph) s = .next (match startFields (injectAll s ph) d with
      | some st => complete (injectAll s ph) d st 0
      | none => match startChecks (injectAll s ph) d (slice param 0 256) image with
        | .error st => complete (injectAll s ph) d st 0
        | .ok j => if j.phase = .claiming then admitted (injectAll s ph) d j else beginPrepare (admitted (injectAll s ph) d j) j) := by
  have inOrder : (dFlag d.raw 9 && !alone (injectAll s ph) d) = false := by
    rcases order with h | h <;> simp [h]
  show execJobStart ring (some param) (some image) ph s = _
  unfold execJobStart
  simp only [waits, type, fetched, sound, inOrder]
  cases startFields (injectAll s ph) d with
  | some st => rfl
  | none => cases startChecks (injectAll s ph) d (slice param 0 256) image <;> rfl

end

/-- What a job that passed every check leaves: it is active, with its cells under clearing unless it claims them (R123, R127). -/
theorem admitted_law (u : State) (d : Desc) (j : Job) :
    let t := if j.phase = .claiming then admitted u d j else beginPrepare (admitted u d j) j
    t.jobs = u.jobs ++ [j] ∧
    (if j.phase = .claiming then t.cells = u.cells ∧ t.clearing = u.clearing
     else t.clearing = u.clearing ++
         [⟨j.id, jobCells j, j.params.cairnBase, j.params.cairnCount, u.clk.cycles, false, u.thm.stopped, false⟩] ∧
       (∀ k v, (jobCells j).Nodup → j.image.cells[k]? = some v → t.cell v.pcell = { u.cell v.pcell with seq :=
         { job := j.id, vindex := k, gran := u.goodGranules v.pcell, banks := u.goodBanks v.pcell } }) ∧
       ∀ c, c ∉ jobCells j → t.cell c = u.cell c) ∧
    t.tables = u.tables.filter (fun y => y.job != j.id) ∧
    { t with jobs := u.jobs, cells := u.cells, clearing := u.clearing, hif := u.hif, tables := u.tables } = u := by
  by_cases claims : j.phase = .claiming
  · simp only [claims, if_true]
    exact ⟨rfl, ⟨rfl, rfl⟩, rfl, rfl⟩
  · simp only [claims, if_false]
    obtain ⟨given, others, rest⟩ := giveCells_law (admitted u d j) j
    refine ⟨(congrArg State.jobs rest :), ⟨?_, given, others⟩, (congrArg State.tables rest :), ?_⟩
    · have clearing : (giveCells (admitted u d j) j).clearing = u.clearing := (congrArg State.clearing rest :)
      have clk : (giveCells (admitted u d j) j).clk = u.clk := (congrArg State.clk rest :)
      have thm : (giveCells (admitted u d j) j).thm = u.thm := (congrArg State.thm rest :)
      simp only [beginPrepare, clearing, clk, thm]
    · exact (congrArg (fun t : State =>
        { t with jobs := u.jobs, cells := u.cells, clearing := u.clearing, hif := u.hif, tables := u.tables }) rest :)

theorem jobStart_law (ring : Nat) (param image : Bytes) (ph : List Phys) (s : State) (d : Desc) : let u := injectAll s ph
    unbegun u ring = some d → dType d.raw = 1 → d.phase = .fetched → (dFlag d.raw 9 = false ∨ alone u d = true) →
    let start := exec (.jobStart ring (some param) (some image) ph) s
    (u.err.fatal = true → start = .next (complete u d 0x42 0)) ∧
    (u.err.fatal = false → ∀ st, startFields u d = some st → start = .next (complete u d st 0)) ∧
    (u.err.fatal = false → startFields u d = none →
      (∀ st, startChecks u d (slice param 0 256) image = .error st → start = .next (complete u d st 0)) ∧
      (∀ j, startChecks u d (slice param 0 256) image = .ok j → ∃ t : State, start = .next t ∧ t.jobs = u.jobs ++ [j] ∧
        (if j.phase = .claiming then t.cells = u.cells ∧ t.clearing = u.clearing
         else t.clearing = u.clearing ++
             [⟨j.id, jobCells j, j.params.cairnBase, j.params.cairnCount, u.clk.cycles, false, u.thm.stopped, false⟩] ∧
           (∀ k v, (jobCells j).Nodup → j.image.cells[k]? = some v → t.cell v.pcell = { u.cell v.pcell with seq :=
             { job := j.id, vindex := k, gran := u.goodGranules v.pcell, banks := u.goodBanks v.pcell } }) ∧
           ∀ c, c ∉ jobCells j → t.cell c = u.cell c) ∧
        t.tables = u.tables.filter (fun y => y.job != j.id) ∧
        { t with jobs := u.jobs, cells := u.cells, clearing := u.clearing, hif := u.hif, tables := u.tables } = u)) := by
  intro u waits type fetched order start
  refine ⟨execJobStart_fatal waits type fetched, fun sound st fails => ?_,
    fun sound passes => ⟨fun st fails => ?_, fun j passed => ?_⟩⟩
  all_goals have run : start = _ := execJobStart_checks waits type fetched order sound
  · rw [run, fails]
  · rw [run, passes, fails]
  · rw [passes, passed] at run
    exact ⟨_, run, admitted_law u d j⟩

/-- Settles O38, one law for each of the five rows. Clauses that are the model's choice: a clearing that takes effect before the end of
a save keeps the stashes back, and the limit does not bound one that a stop put off (log entry 25); a JOB_START that a chip-fatal error
meets unbegun completes with 0x42 (log entry 40). -/
theorem jobsStartAndPrepare : Obligations.JobsStartAndPrepare :=
  ⟨jobStart_law, jobPrepareDone_law, streamSegmentFetch_law, contextClearDone_law, clearTimeout_law⟩

end Sys2Proof.Machine
end

section
/-! ### A pre-empted job is saved and restored (R87, R88, R90, R126, R387, R500) -/

namespace Sys2Proof.Machine

open Sys2Proof

/-- A fold leaves what none of its entries changes. -/
theorem foldl_keeps_of_mem {α β : Type} (p : State → β) {f : State → α → State} {l : List α}
    (h : ∀ s, ∀ x ∈ l, p (f s x) = p s) (s : State) : p (l.foldl f s) = p s := by
  induction l generalizing s with
  | nil => rfl
  | cons x l ih =>
    rw [List.foldl_cons, ih fun t y hy => h t y (List.mem_cons_of_mem x hy)]
    exact h s x List.mem_cons_self

/-! What the end of a clearing, and of a save, leaves. -/

/-- A clearing stays as it is, or its stashes are cleared and it is over. -/
theorem endClear_eq (s : State) (k : Clear) : endClear s k =
    if k.cleared = false ∨ stashWaits s k = true then s
    else k.cells.foldl clearWritten { s with clearing := s.clearing.filter fun x => decide (x ≠ k) } := by
  unfold endClear
  simp only [Bool.or_eq_true, Bool.not_eq_true']

theorem endClear_rest (s : State) (k : Clear) : { endClear s k with clearing := s.clearing, cells := s.cells } = s := by
  rw [endClear_eq]
  split_ifs
  · rfl
  · have h := foldl_clearWritten_rest k.cells { s with clearing := s.clearing.filter fun x => decide (x ≠ k) }
    exact (congrArg (fun t : State => { t with clearing := s.clearing }) h :)

theorem cell_endClear (s : State) (k : Clear) (c : Nat) : (endClear s k).cell c = s.cell c ∨
    c ∈ k.cells ∧ (endClear s k).cell c = { s.cell c with stash := emptied (s.cell c).stash } := by
  rw [endClear_eq]
  split_ifs
  · exact .inl rfl
  · rw [cell_foldl_clearWritten]
    split_ifs with h
    · exact .inr ⟨h, rfl⟩
    · exact .inl rfl

theorem clearing_endClear_subset (s : State) (k : Clear) : (endClear s k).clearing ⊆ s.clearing := by
  rw [endClear_eq]
  split_ifs
  · exact List.Subset.refl _
  · rw [foldl_keeps State.clearing (f := clearWritten) fun _ _ => rfl]
    exact List.filter_subset_self _

/-- With no save under way a clearing whose other parts are over clears its stashes. -/
theorem written_endClear {s : State} {k : Clear} (cleared : k.cleared = true) (mine : k.save = false)
    (saves : ∀ x ∈ s.clearing, x.save = false) {c : Nat} (hc : c ∈ k.cells) : ((endClear s k).cell c).stash.written = [] := by
  have waits : stashWaits s k = false := by
    rw [stashWaits, mine, Bool.false_or, List.any_eq_false]
    intro x hx
    simp [saves x hx]
  rw [endClear_eq, if_neg (by simp [cleared, waits]), cell_foldl_clearWritten, if_pos hc]
  rfl

theorem foldl_endClear_subset (l : List Clear) (s : State) : (l.foldl endClear s).clearing ⊆ s.clearing := by
  induction l generalizing s with
  | nil => exact List.Subset.refl _
  | cons k l ih => exact fun x hx => clearing_endClear_subset s k (ih (endClear s k) hx)

theorem written_foldl_endClear (l : List Clear) {s : State} {c : Nat} (h : (s.cell c).stash.written = []) :
    ((l.foldl endClear s).cell c).stash.written = [] := by
  induction l generalizing s with
  | nil => exact h
  | cons k l ih =>
    refine ih ?_
    rcases cell_endClear s k c with e | ⟨-, e⟩
    · rw [e, h]
    · rw [e]
      rfl

/-- With no save under way every clearing of the list whose other parts are over clears its stashes. -/
theorem written_foldl_endClear_of_mem {l : List Clear} {s : State} (saves : ∀ x ∈ s.clearing, x.save = false) {k : Clear} (hk : k ∈ l)
    (cleared : k.cleared = true) (mine : k.save = false) {c : Nat} (hc : c ∈ k.cells) :
    ((l.foldl endClear s).cell c).stash.written = [] := by
  induction l generalizing s with
  | nil => exact absurd hk List.not_mem_nil
  | cons x l ih =>
    rcases List.mem_cons.mp hk with rfl | hk
    · exact written_foldl_endClear l (written_endClear cleared mine saves hc)
    · exact ih (fun y hy => saves y (clearing_endClear_subset s x hy)) hk

theorem cell_foldl_endClear_other {l : List Clear} (s : State) {c : Nat} (h : ∀ k ∈ l, c ∉ k.cells) :
    (l.foldl endClear s).cell c = s.cell c :=
  foldl_keeps_of_mem (State.cell · c) (fun t k hk => (cell_endClear t k c).resolve_right fun e => h k hk e.1) s

/-- A job's clearings wait for its own save no longer. -/
def savesOver (s : State) (job : Nat) : List Clear := s.clearing.map fun (k : Clear) => if k.job == job then { k with save := false } else k

theorem endSave_eq (s : State) (job : Nat) :
    endSave s job = (savesOver s job).foldl endClear { s with clearing := savesOver s job } := rfl

theorem endSave_rest (s : State) (job : Nat) : { endSave s job with clearing := s.clearing, cells := s.cells } = s := by
  refine foldl_keeps (fun t => { t with clearing := s.clearing, cells := s.cells }) (fun t k => ?_) (savesOver s job) _
  exact (congrArg (fun t : State => { t with clearing := s.clearing, cells := s.cells }) (endClear_rest t k) :)

theorem cell_endSave (s : State) (job c : Nat) : { (endSave s job).cell c with stash := (s.cell c).stash } = s.cell c := by
  refine foldl_keeps (fun t => { t.cell c with stash := (s.cell c).stash }) (fun t k => ?_) (savesOver s job)
    { s with clearing := savesOver s job }
  rcases cell_endClear t k c with e | ⟨-, e⟩ <;> rw [e]

theorem cell_endSave_other {s : State} {job c : Nat} (h : ∀ y ∈ s.clearing, c ∉ y.cells) : (endSave s job).cell c = s.cell c := by
  have out (k : Clear) (hk : k ∈ savesOver s job) : c ∉ k.cells := by
    obtain ⟨y, hy, rfl⟩ := List.mem_map.mp hk
    split_ifs <;> exact h y hy
  exact cell_foldl_endClear_other _ out

theorem clearing_endSave {s : State} {job : Nat} {y : Clear} (hy : y ∈ (endSave s job).clearing) (mine : y.job = job) :
    y.save = false := by
  have h : y ∈ savesOver s job := foldl_endClear_subset _ _ hy
  obtain ⟨x, hx, rfl⟩ := List.mem_map.mp h
  split_ifs at mine ⊢ with own
  · rfl
  · exact absurd mine (by simpa using own)

/-- The stashes that waited only for a job's save are cleared at its end (R387). -/
theorem written_endSave {s : State} {job : Nat} {y : Clear} (hy : y ∈ s.clearing) (mine : y.job = job) (cleared : y.cleared = true)
    (others : ∀ x ∈ s.clearing, x.job ≠ job → x.save = false) {c : Nat} (hc : c ∈ y.cells) :
    ((endSave s job).cell c).stash.written = [] := by
  have saves (x : Clear) (hx : x ∈ savesOver s job) : x.save = false := by
    obtain ⟨z, hz, rfl⟩ := List.mem_map.mp hx
    split_ifs with own
    · rfl
    · exact others z hz (by simpa using own)
  have mem : { y with save := false } ∈ savesOver s job := List.mem_map.mpr ⟨y, hy, by simp [mine]⟩
  exact written_foldl_endClear_of_mem (k := { y with save := false }) saves mem cleared rfl hc

/-! The jobs as one of them ends or changes. -/

theorem job?_updJob {s : State} {job : Nat} {f : Job → Job} (keep : ∀ x, (f x).id = x.id) (k : Nat) :
    (s.updJob job f).job? k = if k = job then (s.job? job).map f else s.job? k := by
  have h : (s.updJob job f).job? k = (s.job? k).map fun x => if x.id == job then f x else x :=
    find?_map_id (fun x => by split_ifs <;> simp [keep]) k
  rw [h]
  cases found : s.job? k with
  | none =>
    split_ifs with e
    · rw [← e, found]
      rfl
    · rfl
  | some x =>
    have hid : x.id = k := by simpa using List.find?_some found
    split_ifs with e
    · rw [← e, found]
      simp [hid, e]
    · simp [hid, e]

theorem job?_endJob (s : State) (job status k : Nat) : (endJob s job status).job? k =
    if k = job then (s.job? job).map fun x => { x with ending := some (x.ending.getD ⟨status, 0⟩) } else s.job? k := by
  have of_jobs {t u : State} (h : t.jobs = u.jobs) : t.job? k = u.job? k := by
    unfold State.job?
    rw [h]
  by_cases going : (s.job? job).any (·.ending.isNone) = true
  · have jobs := jobs_endJob s job status
    rw [if_pos going] at jobs
    rw [of_jobs jobs, job?_updJob (f := fun y => { y with ending := some ⟨status, 0⟩ }) fun _ => rfl]
    cases found : s.job? job with
    | none => rfl
    | some x =>
      have none : x.ending = none := by simpa [found] using going
      simp [none]
  · have jobs := jobs_endJob s job status
    rw [if_neg going] at jobs
    rw [of_jobs jobs]
    split_ifs with e
    · subst e
      cases found : s.job? k with
      | none => rfl
      | some x =>
        obtain ⟨e, he⟩ : ∃ e, x.ending = some e := by
          rw [← Option.isSome_iff_exists]
          simpa [found, Option.isSome_iff_ne_none] using going
        simp only [Option.map_some, he, Option.getD_some]
        rw [← he]
    · rfl

/-! PREEMPT_SAVE_DONE. -/

section
variable {job : Nat} {ph : List Phys} {s w v : State} {j : Job}

theorem execPreemptSaveDone_closed (known : (injectAll s ph).job? job = some j) (saving : j.phase = .saving)
    (plumbs : copyPlumbs (injectAll s ph) j ph = (false, w)) : exec (.preemptSaveDone job ph) s = .next w := by
  show execPreemptSaveDone job ph s = _
  unfold execPreemptSaveDone
  simp [known, saving, plumbs]

theorem execPreemptSaveDone_open {ok : Bool} (known : (injectAll s ph).job? job = some j) (saving : j.phase = .saving)
    (plumbs : copyPlumbs (injectAll s ph) j ph = (true, w)) (saved : saveJob w j = (ok, v)) :
    exec (.preemptSaveDone job ph) s =
      .next (endSave ((if ok then v else endJob v job 0x42).updJob job fun x => { x with phase := .preempted }) job) := by
  show execPreemptSaveDone job ph s = _
  unfold execPreemptSaveDone
  simp [known, saving, plumbs, saved]

end

/-- A save that goes through: the job is pre-empted, and the stashes that waited for it alone are cleared. -/
theorem saveOver_law (v : State) (job : Nat) :
    let t := endSave (v.updJob job fun x => { x with phase := .preempted }) job
    t.jobs = v.jobs.map (fun k => if k.id = job then { k with phase := .preempted } else k) ∧
    (∀ y ∈ t.clearing, y.job = job → y.save = false) ∧
    (∀ y ∈ v.clearing, y.job = job → y.cleared = true → (∀ x ∈ v.clearing, x.job ≠ job → x.save = false) →
      ∀ c ∈ y.cells, (t.cell c).stash.written = []) ∧
    (∀ c, { t.cell c with stash := (v.cell c).stash } = v.cell c) ∧
    (∀ c, (∀ y ∈ v.clearing, c ∉ y.cells) → t.cell c = v.cell c) ∧
    { t with clearing := v.clearing, jobs := v.jobs, cells := v.cells } = v := by
  intro t
  have rest := endSave_rest (v.updJob job fun x => { x with phase := .preempted }) job
  refine ⟨?_, fun y hy => clearing_endSave hy, fun y hy mine cleared others c hc =>
      written_endSave (s := v.updJob job fun x => { x with phase := .preempted }) hy mine cleared others hc,
    fun c => cell_endSave .., fun c hc => cell_endSave_other hc, ?_⟩
  · refine (congrArg State.jobs rest :).trans ?_
    simp only [State.updJob, beq_iff_eq]
  · exact (congrArg (fun t : State => { t with jobs := v.jobs }) rest :)

/-- A save that failed: the job is pre-empted, and ends (R88). -/
theorem saveFailed_law (v : State) (job : Nat) :
    let t := endSave ((endJob v job 0x42).updJob job fun x => { x with phase := .preempted }) job
    t.job? job = (v.job? job).map (fun k => { k with phase := .preempted, ending := some (k.ending.getD ⟨0x42, 0⟩) }) ∧
    (∀ k, k ≠ job → t.job? k = v.job? k) ∧ (∀ y ∈ t.clearing, y.job = job → y.save = false) := by
  intro t
  have rest := endSave_rest ((endJob v job 0x42).updJob job fun x => { x with phase := .preempted }) job
  have job? (k : Nat) : t.job? k = ((endJob v job 0x42).updJob job fun x => { x with phase := .preempted }).job? k :=
    (congrArg (State.job? · k) rest :)
  refine ⟨?_, fun k hk => ?_, fun y hy => clearing_endSave hy⟩
  · rw [job?, job?_updJob (f := fun x => { x with phase := .preempted }) fun _ => rfl, if_pos rfl, job?_endJob, if_pos rfl, Option.map_map]
    rfl
  · rw [job?, job?_updJob (f := fun x => { x with phase := .preempted }) fun _ => rfl, if_neg hk, job?_endJob, if_neg hk]

theorem preemptSaveDone_law (job : Nat) (ph : List Phys) (s w v : State) (j : Job) : let u := injectAll s ph
    u.job? job = some j → j.phase = .saving →
    (copyPlumbs u j ph = (false, w) → exec (.preemptSaveDone job ph) s = .next w) ∧
    (copyPlumbs u j ph = (true, w) → saveJob w j = (true, v) →
      ∃ t : State, exec (.preemptSaveDone job ph) s = .next t ∧
        t.jobs = v.jobs.map (fun k => if k.id = job then { k with phase := .preempted } else k) ∧
        (∀ y ∈ t.clearing, y.job = job → y.save = false) ∧
        (∀ y ∈ v.clearing, y.job = job → y.cleared = true → (∀ x ∈ v.clearing, x.job ≠ job → x.save = false) →
          ∀ c ∈ y.cells, (t.cell c).stash.written = []) ∧
        (∀ c, { t.cell c with stash := (v.cell c).stash } = v.cell c) ∧
        (∀ c, (∀ y ∈ v.clearing, c ∉ y.cells) → t.cell c = v.cell c) ∧
        { t with clearing := v.clearing, jobs := v.jobs, cells := v.cells } = v) ∧
    (copyPlumbs u j ph = (true, w) → saveJob w j = (false, v) →
      ∃ t : State, exec (.preemptSaveDone job ph) s = .next t ∧
        t.job? job = (v.job? job).map (fun k => { k with phase := .preempted, ending := some (k.ending.getD ⟨0x42, 0⟩) }) ∧
        (∀ k, k ≠ job → t.job? k = v.job? k) ∧ (∀ y ∈ t.clearing, y.job = job → y.save = false)) := by
  intro u known saving
  exact ⟨execPreemptSaveDone_closed known saving,
    fun plumbs saved => ⟨_, execPreemptSaveDone_open known saving plumbs saved, saveOver_law v job⟩,
    fun plumbs failed => ⟨_, execPreemptSaveDone_open known saving plumbs failed, saveFailed_law v job⟩⟩

/-! RESTORE_DONE. -/

/-- Where no addition is on its way to the range nothing is drained. -/
theorem drainCairns_eq_self {s : State} {base n : Nat} (none : ∀ e ∈ s.syn.inFlight, e.1 < base ∨ base + n ≤ e.1) :
    drainCairns s base n = s := by
  have outside (e) (he : e ∈ s.syn.inFlight) : (decide (base ≤ e.1) && decide (e.1 < base + n)) = false := by
    have := none e he
    simp only [Bool.and_eq_false_iff, decide_eq_false_iff_not]
    omega
  have mine : (s.syn.inFlight.filter fun e => decide (base ≤ e.1) && decide (e.1 < base + n)) = [] :=
    List.filter_eq_nil_iff.mpr fun e he => by simp [outside e he]
  have others : (s.syn.inFlight.filter fun e => !(decide (base ≤ e.1) && decide (e.1 < base + n))) = s.syn.inFlight :=
    List.filter_eq_self.mpr fun e he => by simp [outside e he]
  unfold drainCairns
  simp only [mine, others, List.foldl_nil]

theorem map_descs_eq_self {s : State} {f : Desc → Desc} (h : ∀ d ∈ s.hif.descs, f d = d) :
    { s with hif := { s.hif with descs := s.hif.descs.map f } } = s := by
  rw [List.map_congr_left h, List.map_id']

/-- With no signal deferred, no addition on its way and no completion held, the release does nothing but to empty the list. -/
theorem releaseDeferred_none {v : State} {j : Job} (empty : j.deferred = [])
    (begun : ∀ d ∈ v.hif.descs, dJob d.raw = j.id → d.phase = .begun)
    (quiet : ∀ e ∈ v.syn.inFlight, e.1 < j.params.cairnBase ∨ j.params.cairnBase + j.params.cairnCount ≤ e.1) :
    releaseDeferred v j = v.updJob j.id fun x => { x with deferred := [] } := by
  set u := v.updJob j.id fun x => { x with deferred := [] }
  have sent : drainCairns u j.params.cairnBase j.params.cairnCount = u := drainCairns_eq_self quiet
  unfold releaseDeferred
  rw [empty, List.foldl_nil]
  extract_lets _ u1 again _ u2
  have same1 : u1 = u := sent
  have unheld : ∀ d ∈ u1.hif.descs, again d = d := by
    rw [same1]
    refine fun d hd => if_neg fun h => ?_
    simp only [Bool.and_eq_true, beq_iff_eq, decide_eq_true_eq] at h
    obtain ⟨⟨mine, waiting⟩, -⟩ := h
    rw [begun d hd mine] at waiting
    cases waiting
  have same2 : u2 = u1 := map_descs_eq_self unheld
  rw [same2, same1, foldl_eq_self fun d hd => ?_]
  · exact sent
  · cases held : d.phase with
    | finished st lo seq =>
      refine if_neg fun h => ?_
      simp only [Bool.and_eq_true, beq_iff_eq] at h
      rw [begun d hd h.2] at held
      cases held
    | _ => rfl

section
variable {job : Nat} {ph : List Phys} {s w v : State} {j : Job}

theorem execRestoreDone_closed (known : (injectAll s ph).job? job = some j) (restoring : j.phase = .restoring)
    (plumbs : copyPlumbs (injectAll s ph) j ph = (false, w)) : exec (.restoreDone job ph) s = .next w := by
  show execRestoreDone job ph s = _
  unfold execRestoreDone
  simp [known, restoring, plumbs]

/-- The cells of a job that is restored, with the granules and banks it kept (R88, R365). -/
def returnCells (s : State) (j : Job) (job : Nat) : State :=
  j.image.cells.zipIdx.foldl (fun s e =>
    let k := (j.kept.find? fun k => k.cell == e.1.pcell).getD ⟨e.1.pcell, [], []⟩
    s.updSeq e.1.pcell fun _ => { job, vindex := e.2, gran := k.gran, banks := k.banks }) s

theorem execRestoreDone_open {ok : Bool} (known : (injectAll s ph).job? job = some j) (restoring : j.phase = .restoring)
    (plumbs : copyPlumbs (injectAll s ph) j ph = (true, w)) (restored : restoreJob (returnCells w j job) j = (ok, v)) :
    exec (.restoreDone job ph) s = .next (if ok then releaseDeferred (v.updJob job fun x => { x with phase := .restored }) j
      else endJob v job 0x42) := by
  unfold returnCells at restored
  show execRestoreDone job ph s = _
  unfold execRestoreDone
  simp only [known, restoring, if_true, plumbs, restored]
  cases ok <;> rfl

end

theorem restoreDone_law (job : Nat) (ph : List Phys) (s w v : State) (j : Job) : let u := injectAll s ph
    let given := (j.image.cells.zipIdx).foldl (fun z e =>
      let k := (j.kept.find? fun k => k.cell == e.1.pcell).getD ⟨e.1.pcell, [], []⟩
      z.updSeq e.1.pcell fun _ => { job, vindex := e.2, gran := k.gran, banks := k.banks }) w
    u.job? job = some j → j.phase = .restoring →
    (copyPlumbs u j ph = (false, w) → exec (.restoreDone job ph) s = .next w) ∧
    (copyPlumbs u j ph = (true, w) → restoreJob given j = (true, v) →
      exec (.restoreDone job ph) s = .next (releaseDeferred (v.updJob job fun x => { x with phase := .restored }) j) ∧
      (j.id = job → j.deferred = [] → (∀ d ∈ v.hif.descs, dJob d.raw = job → d.phase = .begun) →
        (∀ e ∈ v.syn.inFlight, e.1 < j.params.cairnBase ∨ j.params.cairnBase + j.params.cairnCount ≤ e.1) →
        exec (.restoreDone job ph) s = .next (v.updJob job fun x => { x with phase := .restored, deferred := [] }))) ∧
    (copyPlumbs u j ph = (true, w) → restoreJob given j = (false, v) → exec (.restoreDone job ph) s = .next (endJob v job 0x42)) := by
  intro u given known restoring
  refine ⟨execRestoreDone_closed known restoring, fun plumbs restored => ?_,
    fun plumbs failed => execRestoreDone_open known restoring plumbs failed⟩
  have run := execRestoreDone_open known restoring plumbs restored
  refine ⟨run, fun hid empty begun quiet => run.trans (congrArg Host.Outcome.next ?_)⟩
  subst hid
  refine (releaseDeferred_none (v := v.updJob j.id fun x => { x with phase := .restored }) empty begun quiet).trans ?_
  simp only [State.updJob, List.map_map]
  congr 1
  refine List.map_congr_left fun x _ => ?_
  by_cases mine : x.id = j.id <;> simp [mine]

/-! The head of a save area is put back (R126). -/

theorem cairnKey_inj {n m copy c : Nat} (hn : n < 4096) (hm : m < 4096) : cairnKey n copy = cairnKey m c ↔ n = m ∧ copy = c := by
  unfold cairnKey
  omega

theorem cairnVal_setCairn (s : State) {n m : Nat} (hn : n < 4096) (hm : m < 4096) (copy v c : Nat) :
    cairnVal (setCairn s n copy v) m c = if n = m ∧ copy = c then v else cairnVal s m c := by
  unfold cairnVal setCairn
  simp only [sget_sset, cairnKey_inj hn hm]

theorem cairnVal_foldl_setCairn (l : List Nat) (s : State) {n m : Nat} (hn : n < 4096) (hm : m < 4096) (v c : Nat) :
    cairnVal (l.foldl (fun s copy => setCairn s n copy v) s) m c = if n = m ∧ c ∈ l then v else cairnVal s m c := by
  induction l generalizing s with
  | nil => simp
  | cons copy l ih =>
    rw [List.foldl_cons, ih, cairnVal_setCairn s hn hm]
    by_cases same : n = m
    · by_cases mem : c ∈ l
      · simp [same, mem]
      · simp [same, mem, eq_comm]
    · simp [same]

/-- The cairns of a range, in every copy, as the head of a save area holds them. -/
def restoredCairns (s : State) (base count : Nat) (b : Bytes) : State :=
  (List.range count).foldl (fun s k =>
    (List.range 33).foldl (fun s copy => setCairn s (base + k) copy (num b (4096 + 4 * k) 4)) s) s

theorem cairnVal_restoredCairns (s : State) {base count : Nat} (b : Bytes) (fits : base + count ≤ 4096) {n : Nat} (hn : n < 4096)
    (c : Nat) : cairnVal (restoredCairns s base count b) n c =
      if base ≤ n ∧ n < base + count ∧ c ≤ 32 then num b (4096 + 4 * (n - base)) 4 else cairnVal s n c := by
  unfold restoredCairns
  induction count with
  | zero =>
    rw [if_neg (by omega)]
    rfl
  | succ count ih =>
    rw [List.range_succ (n := count), List.foldl_append, List.foldl_cons, List.foldl_nil, cairnVal_foldl_setCairn _ _ (by omega) hn,
      ih (by omega)]
    by_cases last : base + count = n
    · subst last
      by_cases low : c ≤ 32
      · simp [low, show c < 33 by omega]
      · simp [low, show ¬ c < 33 by omega]
    · simp only [last, false_and, if_false]
      congr 1
      rw [eq_iff_iff]
      omega

/-- A cell's generator, as the section at `o` of a save area holds it. -/
def restoreSeed (b : Bytes) (o : Nat) (s : State) (e : VCell × Nat) : State :=
  if kindOf e.1.pcell = .S then s else s.updMisc e.1.pcell fun m => { m with rng := num b (o + 4 * e.2) 4 }

/-- What the predicates, extents and generators that are put back leave alone stays as the cairns left it. -/
theorem restoreHead_keeps {β : Type} (p : State → β) {j : Job} (block : ∀ t k f, p (t.updBlock k f) = p t)
    (misc : ∀ t c f, c ∈ jobCells j → p (t.updMisc c f) = p t) (s : State) (b : Bytes) :
    p (restoreHead s j b) = p (restoredCairns s j.params.cairnBase j.params.cairnCount b) := by
  unfold restoreHead
  extract_lets params o1 o2 o3 s1 s2
  have blocks : p s2 = p s1 := foldl_keeps p (fun _ _ => block ..) (vblocks j).zipIdx s1
  have seeds : p (j.image.cells.zipIdx.foldl (restoreSeed b o3) s2) = p s2 := by
    refine foldl_keeps_of_mem p (fun t e he => ?_) s2
    unfold restoreSeed
    split_ifs
    · rfl
    · refine misc t _ _ ?_
      rw [← map_pcell_zipIdx]
      exact List.mem_map_of_mem he
  exact seeds.trans blocks

theorem restoreHead_law (s : State) (j : Job) (b : Bytes) (fits : j.params.cairnBase + j.params.cairnCount ≤ 4096) :
    let t := restoreHead s j b
    (∀ k copy, k < j.params.cairnCount → copy ≤ 32 → cairnVal t (j.params.cairnBase + k) copy = num b (4096 + 4 * k) 4) ∧
    (∀ k copy, k < 4096 → (k < j.params.cairnBase ∨ j.params.cairnBase + j.params.cairnCount ≤ k) →
      cairnVal t k copy = cairnVal s k copy) ∧
    (∀ c, c ∉ jobCells j → t.cell c = s.cell c) ∧
    { t with syn := s.syn, blocks := s.blocks, cells := s.cells } = s := by
  intro t
  have cairn (n copy : Nat) := restoreHead_keeps (fun t => cairnVal t n copy) (j := j) (fun _ _ _ => rfl) (fun _ _ _ _ => rfl) s b
  have cairnRest : { restoredCairns s j.params.cairnBase j.params.cairnCount b with syn := s.syn } = s :=
    foldl_keeps (fun t => { t with syn := s.syn }) (f := fun t k => (List.range 33).foldl (fun t copy =>
      setCairn t (j.params.cairnBase + k) copy (num b (4096 + 4 * k) 4)) t)
      (fun t k => foldl_keeps (fun t => { t with syn := s.syn }) (f := fun t copy =>
        setCairn t (j.params.cairnBase + k) copy (num b (4096 + 4 * k) 4)) (fun _ _ => rfl) _ t) _ s
  refine ⟨fun k copy hk low => ?_, fun k copy hk out => ?_, fun c hc => ?_, ?_⟩
  · rw [cairn, cairnVal_restoredCairns s b fits (by omega), if_pos ⟨by omega, by omega, low⟩, Nat.add_sub_cancel_left]
  · rw [cairn, cairnVal_restoredCairns s b fits hk, if_neg (by omega)]
  · rw [restoreHead_keeps (State.cell · c) (fun _ _ _ => rfl) (fun t d f hd => ?_) s b]
    · exact (congrArg (State.cell · c) cairnRest :)
    · rw [State.cell_updMisc, if_neg fun e : d = c => hc (e ▸ hd)]
  · refine (restoreHead_keeps (fun t => { t with syn := s.syn, blocks := s.blocks, cells := s.cells }) (j := j) (fun _ _ _ => rfl)
      (fun _ _ _ _ => rfl) s b).trans ?_
    exact (congrArg (fun t : State => { t with blocks := s.blocks, cells := s.cells }) cairnRest :)

/-- Settles O39, one law for each row and one for the head of the save area. That the written bits of a clearing stay until
PREEMPT_SAVE_DONE has saved them is the model's choice (log entry 25). -/
theorem preEmptedJobsSaveAndRestore : Obligations.PreEmptedJobsSaveAndRestore :=
  ⟨preemptSaveDone_law, restoreDone_law, restoreHead_law⟩

end Sys2Proof.Machine
end

section
/-! ### A COPY of a pre-empted job (R87, R116, R491, R500) -/

namespace Sys2Proof.Machine

open Sys2Proof

/-- The bytes of a COPY of 64 bytes of device memory for job 1 that waits on cairn 0 (R118, R131). -/
def waitingCopyBytes : Bytes :=
  leBytes 4 0x402 ++ leBytes 4 1 ++ List.replicate 12 0 ++ leBytes 4 1 ++ List.replicate 8 0 ++
    leBytes 8 0x1000 ++ leBytes 8 0x2000 ++ leBytes 4 64 ++ leBytes 4 2 ++ List.replicate 8 0

/-- That COPY, fetched on ring 0. -/
def waitingCopy : Desc := { ring := 0, count := 0, raw := waitingCopyBytes }

/-- Ring 0 holds the COPY. Its job is pre-empted and has yielded its cairns; one bit of cairn 0's master copy has flipped since. -/
def copyOfPreempted : State :=
  { State.reset with
    hif := { linkUp := true, rings := [(0, { enable := true, state := 1 })], descs := [waitingCopy] }
    jobs := [{ id := 1, interactive := false, ring := 0, count := 0, phase := .preempted
               params := { cairnCount := 16, windows := [⟨0, 0x10000, true, true, false⟩] }
               image := {} }]
    syn := { bad := [(cairnKey 0 32, 1)] } }

/-- How many cairns an outcome's state has corrected. -/
def correctedBy : Host.Outcome State Fault Refusal → Nat
  | .next t => t.syn.corrected
  | _ => 0

/-- While a job is pre-empted the master copies that its descriptors wait on are not read: the job may not hold those cairns now. -/
theorem copy_copyOfPreempted_corrects_none : correctedBy (exec (.copy 0 []) copyOfPreempted) = 0 := by decide +kernel

/-- Refutes O35: a COPY that passes its checks is said to read the cairn that it waits on as it is held back; but where its job is
pre-empted, the cairn is not read, and a flipped bit of it stays uncorrected. -/
theorem not_descriptorsBeginOrWaitInRingOrder : ¬ Obligations.DescriptorsBeginOrWaitInRingOrder := by
  unfold Obligations.DescriptorsBeginOrWaitInRingOrder
  intro h
  obtain ⟨hring, -⟩ := h
  obtain ⟨-, hcopy, -⟩ := hring 0 [] none copyOfPreempted waitingCopy
  obtain ⟨-, hheld⟩ := hcopy (by decide +kernel) (by decide +kernel) rfl rfl
  have hone := copy_copyOfPreempted_corrects_none
  rw [hheld (by decide +kernel)] at hone
  exact absurd hone (by decide +kernel)

end Sys2Proof.Machine
end

section
/-! ### Plot sequences are queued (R116, R135, R136, R440, R441, R443) -/

namespace Sys2Proof.Machine

open Sys2Proof

/-- A queued sequence stands at the back of its class queue (R443). -/
theorem queueSeq_law (s : State) (k : Nat) (inter : Bool) (q : PlotSeq) :
    (queueSeq s k inter q).stack k = { s.stack k with
      serial := q.serial
      interQ := (s.stack k).interQ ++ if inter then [q] else []
      bulkQ := (s.stack k).bulkQ ++ if inter then [] else [q] } ∧
    (∀ m, m ≠ k → (queueSeq s k inter q).stack m = s.stack m) ∧ { queueSeq s k inter q with stk := s.stk } = s := by
  refine ⟨?_, fun m hm => ?_, rfl⟩
  · rw [queueSeq, State.stack_updStack, if_pos rfl]
    cases inter <;> simp
  · rw [queueSeq, State.stack_updStack, if_neg (Ne.symm hm)]

/-! PL.ISSUE (R441). -/

/-- The bytes of a PL.ISSUE's segment in which its sequence may lie. -/
def issueInside (x : Ctx) (k : Nat) : Bool :=
  match x.j.image.segs[x.oa.seg]? with
  | some g => !g.code && decide (devOffset x.bias x.oa + k ≤ g.len)
  | none => false

/-- The decoded sequence of a PL.ISSUE, with what the reading of it left. -/
def issueDecode (x : Ctx) (i : State) : Except PlotBad PlotSeq × State :=
  decodeSeq i (bits x.i.opd 3 0) x.j
    (.cell x.c (if bit x.i.opd 4 then some (x.j.params.cairnBase + bits x.i.opd 16 5) else none) x.j.sheet x.who.index)
    (devAddr x x.oa) none (issueInside x) x.acc

theorem execPlIssue_ready {c : Nat} {ph : List Phys} {s : State} {x : Ctx} (room : plotHeld s c = false)
    (ready : readyCtx 0x80 c ph s = some x) :
    exec (.plIssue c ph) s = .next (match issueDecode x (issued (injectAll s ph) x ph) with
      | (.ok q, v) => queueSeq v (bits x.i.opd 3 0) x.j.interactive q
      | (.error e, v) => plotReject v (bits x.i.opd 3 0) x.who e) := by
  obtain ⟨-, -, -, rfl, -⟩ := readyCtx_some rfl ready
  show execPlIssue x.c ph s = _
  unfold execPlIssue
  rw [if_neg (by simp [room]), issue_ready _ ready]
  rfl

theorem execPlIssue_held {c : Nat} {ph : List Phys} {s : State} (full : plotHeld s c = true) :
    exec (.plIssue c ph) s = .next (injectAll s ph) := by
  show execPlIssue c ph s = _
  rw [execPlIssue, if_pos full]

/-! PLOT, and the begin of one that waits (R116, R135, R136). -/

theorem beginPlot_decoded {z v : State} {d : Desc} {j : Job} {q : PlotSeq} (known : z.job? (dJob d.raw) = some j)
    (decodes : decodeSeq z (plotStack d.raw) j (.desc d.ring d.count) (plotAddr d.raw) (some (plotLen d.raw))
      (inWindow j (·.read) (plotAddr d.raw)) { job := j.id, src := srcDesc d.ring (d.count % ringSize (z.ring d.ring)) } = (.ok q, v)) :
    beginPlot z d = updDesc (queueSeq v (plotStack d.raw) j.interactive q) d fun y => { y with phase := .begun } := by
  unfold beginPlot
  simp only [known, decodes]

theorem mayBegin_of_plotMayBegin {z : State} {d : Desc} (h : plotMayBegin z d = true) : mayBegin z d = true := by
  rw [plotMayBegin, Bool.and_eq_true] at h
  exact h.1

section
variable {ring : Nat} {ph : List Phys} {s : State} {d : Desc} (waits : unbegun (injectAll s ph) ring = some d) (type : dType d.raw = 3)
include waits type

theorem execPlot_fatal (fetched : d.phase = .fetched) (fatal : (injectAll s ph).err.fatal = true) :
    exec (.plot ring ph) s = .next (complete (injectAll s ph) d 0x40 0) := by
  show execPlot ring ph s = _
  unfold execPlot
  simp [waits, type, fetched, fatal, fatalEnd]

theorem execPlot_checked (fetched : d.phase = .fetched) (sound : (injectAll s ph).err.fatal = false) :
    exec (.plot ring ph) s = .next (match plotStatus (injectAll s ph) d with
      | some st => complete (injectAll s ph) d st 0
      | none => let z := scanWait (injectAll s ph) d
        if plotMayBegin z d then beginPlot z d
        else updDesc z d fun y => { y with phase := .waiting, waitFrom := some z.clk.cycles }) := by
  show execPlot ring ph s = _
  unfold execPlot
  simp only [waits, type, fetched, sound]
  cases plotStatus (injectAll s ph) d with
  | some st => rfl
  | none => cases plotMayBegin (scanWait (injectAll s ph) d) d <;> rfl

theorem execDescriptorBegin_plot {src : HostData} (waiting : d.phase = .waiting)
    (begins : plotMayBegin (scanWait (injectAll s ph) d) d = true) :
    exec (.descriptorBegin ring src ph) s = .next (beginPlot (scanWait (injectAll s ph) d) d) := by
  show execDescriptorBegin ring src ph s = _
  unfold execDescriptorBegin
  simp [waits, type, waiting, begins, mayBegin_of_plotMayBegin begins]

end

/-- Settles O30. Clauses that are the model's choice (log entry 40): a PLOT's cairn wait counts from the cycle in which its checks
passed, and a PLOT that a chip-fatal error meets unbegun completes with 0x40. -/
theorem plotSequencesAreQueued : Obligations.PlotSequencesAreQueued := by
  intro c ring ph s v x d j q u i n signal inside z host
  refine ⟨fun room ready decodes => ?_, execPlIssue_held, fun waits type => execPlot_fatal waits type,
    fun waits type fetched sound => ?_, fun src waits type waiting begins known decodes => ?_, fun k inter => queueSeq_law s k inter q⟩
  · have decoded : issueDecode x i = (.ok q, v) := by
      obtain ⟨-, -, -, rfl, -⟩ := readyCtx_some rfl ready
      exact decodes
    rw [execPlIssue_ready room ready, decoded]
  · rw [execPlot_checked waits type fetched sound]
    refine ⟨fun st fails => ?_, fun passes held => ?_, fun passes begins known decodes => ?_⟩
    · rw [fails]
    · simp only [passes, held, z, u]
      rfl
    · simp only [passes, begins, z, u]
      exact congrArg _ (beginPlot_decoded known decodes)
  · rw [execDescriptorBegin_plot waits type waiting begins]
    exact congrArg _ (beginPlot_decoded known decodes)

end Sys2Proof.Machine
end

section
/-! ### Numbers in byte strings (R13) -/

namespace Sys2Proof.Machine

open Sys2Proof

theorem leNat_leBytes (n v : Nat) : leNat (leBytes n v) = v % 256 ^ n := by
  induction n generalizing v with
  | zero => simp [leBytes, leNat, Nat.mod_one]
  | succ n ih =>
    have split : v % 256 ^ (n + 1) = v % 256 + 256 * (v / 256 % 256 ^ n) := by rw [Nat.pow_succ', Nat.mod_mul]
    rw [leBytes, leNat, ih, split, BitVec.toNat_ofNat]

theorem leNat_lt (b : Bytes) : leNat b < 256 ^ b.length := by
  induction b with
  | nil => simp [leNat]
  | cons x b ih =>
    rw [leNat, List.length_cons, Nat.pow_succ']
    omega

@[simp] theorem slice_length (b : Bytes) (off n : Nat) : (slice b off n).length = n := by
  simp [slice]

theorem slice_self {b : Bytes} {n : Nat} (h : b.length = n) : slice b 0 n = b := by
  subst h
  simp [slice]

theorem num_lt (b : Bytes) (off n : Nat) : num b off n < 256 ^ n := by
  have bound := leNat_lt (slice b off n)
  rwa [slice_length] at bound

@[simp] theorem num_leBytes (n v : Nat) : num (leBytes n v) 0 n = v % 256 ^ n := by
  rw [num, slice_self (leBytes_length n v), leNat_leBytes]

@[simp] theorem num_slice (b : Bytes) (off n : Nat) : num (slice b off n) 0 n = num b off n := by
  rw [num, slice_self (slice_length b off n), num]

/-- A number in the first part of a byte string. -/
theorem num_append_left {a b : Bytes} {off n : Nat} (h : off + n ≤ a.length) : num (a ++ b) off n = num a off n := by
  have read : ((a ++ b).drop off).take n = (a.drop off).take n := by
    rw [List.drop_append_of_le_length (by omega), List.take_append_of_le_length (by rw [List.length_drop]; omega)]
  rw [num, num, slice, slice, read]

/-- A number in the second part of a byte string. -/
theorem num_append_right {a b : Bytes} {off n : Nat} (h : a.length ≤ off) : num (a ++ b) off n = num b (off - a.length) n := by
  rw [num, num, slice, slice, List.drop_append, List.drop_of_length_le h, List.nil_append]

end Sys2Proof.Machine
end

section
/-! ### Completion records (R143, R146, R148) -/

namespace Sys2Proof.Machine

open Sys2Proof

theorem completionBytes_law (r : Ring) (d : Desc) (status detail tick : Nat) : let b := completionBytes r d status detail tick
    b.length = 32 ∧ num b 0 8 = num d.raw 8 8 ∧ num b 8 8 = detail % 2 ^ 64 ∧ num b 0x10 8 = tick % 2 ^ 64 ∧
    num b 0x18 2 = d.count % ringSize r % 2 ^ 16 ∧ num b 0x1A 2 = status % 2 ^ 16 ∧ num b 0x1C 2 = num d.raw 4 2 ∧
    num b 0x1E 1 = num d.raw 0 1 ∧ num b 0x1F 1 = if r.cqPi / ringSize r % 2 = 0 then 128 else 0 := by
  intro b
  have fields : b = slice d.raw 8 8 ++ (leBytes 8 detail ++ (leBytes 8 tick ++ (leBytes 2 (d.count % ringSize r) ++ (leBytes 2 status ++
      (slice d.raw 4 2 ++ (leBytes 1 (dType d.raw) ++ leBytes 1 (b2n (r.cqPi / ringSize r % 2 == 0) * 128))))))) := by
    simp only [b, completionBytes, List.append_assoc]
    rfl
  have type : num d.raw 0 1 % 256 = num d.raw 0 1 := Nat.mod_eq_of_lt (num_lt d.raw 0 1)
  rw [fields]
  simp [num_append_left, num_append_right, leBytes_length, dType, type, b2n]
  split_ifs <;> omega

/-- A descriptor that was dropped is not on the list. -/
theorem not_mem_dropDesc {s : State} {d y : Desc} (h : y ∈ (dropDesc s d).hif.descs) : ¬(y.ring = d.ring ∧ y.count = d.count) := by
  simpa [← not_and_or] using (List.mem_filter.mp h).2

/-- A vector that is sent, or put off while masked, touches only the moderation registers, the MSI-X table and the output. -/
theorem sendVector_shape (s : State) (v : Nat) : ∃ rest mods msix,
    sendVector s v = { s with out := s.out ++ rest, hif := { s.hif with mods, msix } } ∧ rest.length ≤ 1 := by
  unfold sendVector
  dsimp only
  split_ifs
  · exact ⟨[], _, s.hif.msix, by rw [List.append_nil], Nat.zero_le 1⟩
  · exact ⟨[], _, _, by rw [List.append_nil], Nat.zero_le 1⟩
  · exact ⟨[.msix v], _, s.hif.msix, rfl, Nat.le_refl 1⟩

theorem moderate_shape (s : State) (v : Nat) : ∃ rest mods msix,
    moderate s v = { s with out := s.out ++ rest, hif := { s.hif with mods, msix } } ∧ rest.length ≤ 1 := by
  unfold moderate
  extract_lets m n
  by_cases full : max 1 m.count ≤ n
  · rw [if_pos full]
    exact sendVector_shape s v
  · rw [if_neg full]
    exact ⟨[], _, s.hif.msix, by rw [List.append_nil], Nat.zero_le 1⟩

/-- Below COUNT the vector counts one more completion pending (R148). -/
theorem moderate_below {s : State} {v : Nat} (h : (sget ({} : Mod) s.hif.mods v).pending + 1 < (sget ({} : Mod) s.hif.mods v).count) :
    (sget ({} : Mod) (moderate s v).hif.mods v).pending = (sget ({} : Mod) s.hif.mods v).pending + 1 ∧
    (moderate s v).hif.msix = s.hif.msix := by
  rw [moderate, if_neg (by omega)]
  simp

/-- The state after a completion record has left and CQ_PI counts on, before the interrupt. -/
def recordSent (s : State) (d : Desc) (status detail : Nat) : State :=
  let r := s.ring d.ring
  ((dropDesc s d).emit (.hostWrite (r.cqBase + r.cqPi % ringSize r * 32) (completionBytes r d status detail s.sht.tick))).updRing d.ring
    fun r => { r with cqPi := inc32 r.cqPi }

/-- The state in which a completion's write has failed: the ring stopped, the refusal spent. -/
def recordFailed (s : State) (d : Desc) : State :=
  (refuseOnce (dropDesc s d)).updRing d.ring fun r => { r with state := 2, cqFailed := true }

theorem ring_recordSent (s : State) (d : Desc) (status detail n : Nat) : (recordSent s d status detail).ring n =
    if d.ring = n then { s.ring d.ring with cqPi := inc32 (s.ring d.ring).cqPi } else s.ring n := State.ring_updRing ..

theorem ring_recordFailed (s : State) (d : Desc) (n : Nat) : (recordFailed s d).ring n =
    if d.ring = n then { s.ring d.ring with state := 2, cqFailed := true } else s.ring n := State.ring_updRing ..

theorem descs_recordFailed (s : State) (d : Desc) : (recordFailed s d).hif.descs = (dropDesc s d).hif.descs := by
  rw [recordFailed, State.updRing, refuseOnce]

theorem recordFailed_rest (s : State) (d : Desc) : { recordFailed s d with hif := s.hif } = s := by
  simp only [recordFailed, State.updRing, refuseOnce, dropDesc]

/-- What a completion does: nothing is written on a ring whose completions failed; a write that cannot leave fails them; else the
record leaves, and an interrupt is sent or moderated (R143, R146, R148). -/
theorem complete_eq (s : State) (d : Desc) (status detail : Nat) : complete s d status detail =
    if (s.ring d.ring).cqFailed = true then dropDesc s d
    else if canWrite s = true then
      if dFlag d.raw 8 = true then sendVector (recordSent s d status detail) (s.ring d.ring).vector
      else moderate (recordSent s d status detail) (s.ring d.ring).vector
    else hostFail (recordFailed s d) 3 d.ring (d.count % ringSize (s.ring d.ring))
      ((s.ring d.ring).cqBase + (s.ring d.ring).cqPi % ringSize (s.ring d.ring) * 32) := by
  have ring : (dropDesc s d).ring d.ring = s.ring d.ring := rfl
  have link : canWrite (dropDesc s d) = canWrite s := rfl
  unfold complete
  simp only [ring, link]
  cases canWrite s <;> rfl

/-- A record that leaves, with its interrupt: what it changes. -/
theorem complete_sent {s : State} {d : Desc} (status detail : Nat) (open_ : (s.ring d.ring).cqFailed = false) (link : canWrite s = true) :
    ∃ rest mods msix, complete s d status detail = { recordSent s d status detail with
      out := (recordSent s d status detail).out ++ rest, hif := { (recordSent s d status detail).hif with mods, msix } } ∧
      rest.length ≤ 1 := by
  rw [complete_eq, if_neg (by simp [open_]), if_pos link]
  split_ifs
  · exact sendVector_shape ..
  · exact moderate_shape ..

theorem complete_moderated {s : State} {d : Desc} (status detail : Nat) (open_ : (s.ring d.ring).cqFailed = false)
    (link : canWrite s = true) (quiet : dFlag d.raw 8 = false) :
    complete s d status detail = moderate (recordSent s d status detail) (s.ring d.ring).vector := by
  rw [complete_eq, if_neg (by simp [open_]), if_pos link, if_neg (by simp [quiet])]

theorem complete_failed {s : State} {d : Desc} (status detail : Nat) (open_ : (s.ring d.ring).cqFailed = false) (link : canWrite s = false) :
    complete s d status detail = hostFail (recordFailed s d) 3 d.ring (d.count % ringSize (s.ring d.ring))
      ((s.ring d.ring).cqBase + (s.ring d.ring).cqPi % ringSize (s.ring d.ring) * 32) := by
  rw [complete_eq, if_neg (by simp [open_]), if_neg (by simp [link])]

/-- Settles O33. That a ring whose reset a failed write meets is stopped as well is the model's choice (log entry 40). -/
theorem completionRecordsAreWritten : Obligations.CompletionRecordsAreWritten := by
  intro s d status detail r t
  refine ⟨fun failed => ?_, fun open_ up free small len => ?_, fun open_ cut => ?_⟩
  · rw [show t = _ from complete_eq s d status detail, if_pos failed]
  · have link : canWrite s = true := by simp [canWrite, up, free]
    obtain ⟨rest, mods, msix, sent, few⟩ := complete_sent status detail open_ link
    have ring (n : Nat) : t.ring n = (recordSent s d status detail).ring n := (congrArg (State.ring · n) sent :)
    refine ⟨fun y mem => ?_, ⟨completionBytes r d status detail s.sht.tick, rest, ?_, few, ?_⟩, ?_, fun n other => ?_, fun quiet below => ?_, ?_⟩
    · rw [show t = _ from sent] at mem
      exact not_mem_dropDesc mem
    · exact (congrArg State.out sent).trans (List.append_assoc ..)
    · have fields := completionBytes_law r d status detail s.sht.tick
      rwa [Nat.mod_eq_of_lt small] at fields
    · rw [ring, ring_recordSent, if_pos rfl]
      rfl
    · rw [ring, ring_recordSent, if_neg (Ne.symm other)]
    · rw [show t = _ from complete_moderated status detail open_ link quiet]
      exact moderate_below below
    · exact (congrArg (fun u : State => { u with out := s.out, hif := s.hif }) sent :)
  · have link : canWrite s = false := by rcases cut with h | h <;> simp [canWrite, h]
    refine ⟨recordFailed s d, complete_failed status detail open_ link, ?_, fun n other => ?_, rfl, fun y mem => ?_, recordFailed_rest s d⟩
    · rw [ring_recordFailed, if_pos rfl]
    · rw [ring_recordFailed, if_neg (Ne.symm other)]
    · rw [descs_recordFailed] at mem
      exact not_mem_dropDesc mem

end Sys2Proof.Machine
end

section
/-! ### Doorbells and the fetch of descriptors (R105, R107, R110 to R116) -/

namespace Sys2Proof.Machine

open Sys2Proof

theorem execDoorbell_read {page off : Nat} {b : Bytes} {s : State} (window : page < 64) :
    exec (.doorbell page off ⟨false, b⟩) s = .next (s.emit (.doorbellValue page off (doorbellWord s page off))) := by
  show execDoorbell page off ⟨false, b⟩ s = _
  simp [execDoorbell, window]

theorem execDoorbell_partial {page off : Nat} {b : Bytes} {s : State} (window : page < 64) (narrow : b.length < 8) :
    exec (.doorbell page off ⟨true, b⟩) s = .next { s with hif := { s.hif with dbPartial := true } } := by
  show execDoorbell page off ⟨true, b⟩ s = _
  simp [execDoorbell, window, narrow]

theorem execDoorbell_ignored {page off : Nat} {b : Bytes} {s : State} (wide : 8 ≤ b.length)
    (h : off ≠ 0 ∨ b.length ≠ 8 ∨ (s.ring page).enable = false ∨ (s.ring page).state ≠ 1) :
    exec (.doorbell page off ⟨true, b⟩) s = .next s := by
  show execDoorbell page off ⟨true, b⟩ s = _
  have notNarrow : ¬b.length < 8 := by omega
  by_cases whole : off = 0 ∧ b.length = 8
  · have stopped : (s.ring page).enable = false ∨ (s.ring page).state ≠ 1 := by tauto
    simp [execDoorbell, whole, stopped]
  · simp [execDoorbell, notNarrow, not_and_or.mp whole]

/-- A doorbell moves a count back, or beyond what the ring holds (R111). -/
def doorbellInvalid (r : Ring) (b : Bytes) : Bool :=
  decide (2 ^ 31 < dist32 (num b 0 4) r.sqPi) || decide (2 ^ 31 < dist32 (num b 4 4) r.cqCi) ||
  decide (ringSize r < dist32 (num b 0 4) r.sqCi) || decide (dist32 r.cqPi r.cqCi < dist32 (num b 4 4) r.cqCi)

theorem doorbellInvalid_eq_false_iff (r : Ring) (b : Bytes) : doorbellInvalid r b = false ↔
    (num b 0 4 + 2 ^ 32 - r.sqPi) % 2 ^ 32 ≤ 2 ^ 31 ∧ (num b 4 4 + 2 ^ 32 - r.cqCi) % 2 ^ 32 ≤ 2 ^ 31 ∧
    (num b 0 4 + 2 ^ 32 - r.sqCi) % 2 ^ 32 ≤ 2 ^ r.sizeLog2 ∧
    (num b 4 4 + 2 ^ 32 - r.cqCi) % 2 ^ 32 ≤ (r.cqPi + 2 ^ 32 - r.cqCi) % 2 ^ 32 := by
  simp only [doorbellInvalid, Bool.or_eq_false_iff, decide_eq_false_iff_not, Nat.not_lt, and_assoc]
  rfl

/-- A ring that an invalid doorbell stops, before its record (R111). -/
def doorbellStopped (s : State) (page : Nat) : State :=
  { s with hif := { s.hif with dbInvalid := true } }.updRing page fun r => { r with state := 2 }

theorem execDoorbell_running {page : Nat} {b : Bytes} {s : State} (window : page < 64) (len : b.length = 8)
    (enabled : (s.ring page).enable = true) (running : (s.ring page).state = 1) : exec (.doorbell page 0 ⟨true, b⟩) s =
    .next (if doorbellInvalid (s.ring page) b then
        raiseChip (doorbellStopped s page) 0x7201 1 5 0 0 [page, num b 0 4, num b 4 4, (s.ring page).sqCi, (s.ring page).cqPi]
      else s.updRing page fun r => { r with sqPi := num b 0 4, cqCi := num b 4 4 }) := by
  show execDoorbell page 0 ⟨true, b⟩ s = _
  simp only [execDoorbell, Nat.not_le.mpr window, len, enabled, running, Nat.lt_irrefl, bne_self_eq_false, Bool.not_true,
    Bool.false_eq_true, Bool.or_self, if_false]
  rw [← apply_ite]
  rfl

/-! The fetch (R107, R115, R116). -/

theorem alone_self_added (s : State) (d : Desc) {t : State} (h : t.hif.descs = s.hif.descs ++ [d]) : alone t d = alone s d := by
  simp [alone, h, dist32]

theorem fenceWaits_self_added {s t : State} {d : Desc} (fetched : d.phase = .fetched) (h : t.hif.descs = s.hif.descs ++ [d])
    (stk : t.stk = s.stk) : fenceWaits t d = fenceWaits s d := by
  have stack (n : Nat) : t.stack n = s.stack n := by rw [State.stack, stk, State.stack]
  unfold fenceWaits
  simp [h, fetched, stack]

/-- A NOP or FENCE begins where ORDERED lets it (R116, R117). -/
theorem beginNow_fetched {s : State} {d : Desc} (fetched : d.phase = .fetched) : beginNow s d =
    if dFlag d.raw 9 = false ∨ alone s d = true
    then updDesc s d fun x => { x with phase := .begun, waits := if dType d.raw = 5 then fenceWaits s d else [] } else s := by
  unfold beginNow
  by_cases order : dFlag d.raw 9 = false ∨ alone s d = true
  · rw [if_pos order, if_neg (by rcases order with h | h <;> simp [fetched, h])]
    simp only [beq_iff_eq]
  · rw [if_neg order, if_pos (by simpa [fetched] using order)]

/-- A change of a descriptor that was just put on the list, where no other has its ring and count. -/
theorem updDesc_last {t : State} {l : List Desc} {d : Desc} (f : Desc → Desc) (h : t.hif.descs = l ++ [d])
    (only : ∀ y ∈ l, ¬(y.ring = d.ring ∧ y.count = d.count)) : (updDesc t d f).hif.descs = l ++ [f d] := by
  have others : l.map (fun x => if x.ring == d.ring && x.count == d.count then f x else x) = l := by
    rw [List.map_congr_left (g := id), List.map_id]
    intro y hy
    exact if_neg (by simpa using only y hy)
  show t.hif.descs.map _ = _
  rw [h, List.map_append, others]
  simp

/-- What begins at the fetch of a descriptor: a NOP or a FENCE that ORDERED lets begin (R116, R117). -/
def fetchedDesc (s : State) (d : Desc) : Desc :=
  if (dType d.raw = 0 ∨ dType d.raw = 5) ∧ (dFlag d.raw 9 = false ∨ alone s d = true)
  then { d with phase := .begun, waits := if dType d.raw = 5 then fenceWaits s d else [] } else d

/-- The last ring fetched of its class is noted (R115). -/
def fetchNoted (s : State) (n : Nat) : State :=
  { s with hif := if (s.ring n).interactive then { s.hif with lastInter := n } else { s.hif with lastBulk := n } }

/-- The state as a ring's descriptor has been taken. -/
def descTaken (s : State) (n : Nat) (d : Desc) : State :=
  let u := (fetchNoted s n).updRing n fun r => { r with sqCi := inc32 r.sqCi }
  { u with hif := { u.hif with descs := u.hif.descs ++ [d] } }

theorem rings_fetchNoted (s : State) (n : Nat) : (fetchNoted s n).hif.rings = s.hif.rings := by
  rw [fetchNoted]
  split_ifs <;> rfl

theorem descs_taken (s : State) (n : Nat) (d : Desc) : (descTaken s n d).hif.descs = s.hif.descs ++ [d] := by
  have noted : (fetchNoted s n).hif.descs = s.hif.descs := by
    rw [fetchNoted]
    split_ifs <;> rfl
  exact congrArg (· ++ [d]) noted

theorem ring_taken (s : State) (n : Nat) (d : Desc) (m : Nat) : (descTaken s n d).ring m =
    if n = m then { s.ring n with sqCi := inc32 (s.ring n).sqCi } else s.ring m := by
  have noted (k : Nat) : (fetchNoted s n).ring k = s.ring k := by rw [State.ring, rings_fetchNoted, State.ring]
  show ((fetchNoted s n).updRing n fun r => { r with sqCi := inc32 r.sqCi }).ring m = _
  rw [State.ring_updRing, noted, noted]

theorem descTaken_rest (s : State) (n : Nat) (d : Desc) : { descTaken s n d with hif := s.hif } = s := by
  simp only [descTaken, fetchNoted, State.updRing]

/-- The fetched descriptor, begun where it may. -/
def descFetched (s : State) (n : Nat) (d : Desc) : State :=
  if dType d.raw = 0 ∨ dType d.raw = 5 then beginNow (descTaken s n d) d else descTaken s n d

theorem descs_descFetched {s : State} {n : Nat} {d : Desc} (fetched : d.phase = .fetched)
    (only : ∀ y ∈ s.hif.descs, ¬(y.ring = d.ring ∧ y.count = d.count)) :
    (descFetched s n d).hif.descs = s.hif.descs ++ [fetchedDesc s d] := by
  have added := descs_taken s n d
  unfold descFetched fetchedDesc
  by_cases type : dType d.raw = 0 ∨ dType d.raw = 5
  · have mine : alone (descTaken s n d) d = alone s d := alone_self_added s d added
    have waits : fenceWaits (descTaken s n d) d = fenceWaits s d := fenceWaits_self_added fetched added rfl
    rw [if_pos type, beginNow_fetched fetched, mine, waits]
    by_cases order : dFlag d.raw 9 = false ∨ alone s d = true
    · rw [if_pos order, updDesc_last _ added only, if_pos (And.intro type order)]
    · rw [if_neg order, if_neg (fun h => order h.2), added]
  · rw [if_neg type, if_neg (fun h => type h.1), added]

/-- The begin of a NOP or FENCE changes the list of descriptors alone. -/
theorem beginNow_rest (t : State) (d : Desc) : { beginNow t d with hif := { (beginNow t d).hif with descs := t.hif.descs } } = t := by
  unfold beginNow
  split_ifs <;> rfl

theorem descFetched_rest (s : State) (n : Nat) (d : Desc) :
    { descFetched s n d with hif := { (descFetched s n d).hif with descs := (descTaken s n d).hif.descs } } = descTaken s n d := by
  unfold descFetched
  split_ifs
  · exact beginNow_rest _ d
  · rfl

theorem execDescriptorFetch_taken {s : State} {n : Nat} {b : Bytes} (next : fetchRing s = some n) (len : b.length = 64)
    (type : dType b ≤ 5) (scope : dType b = 5 → fenceScope b ≠ 3) : let d : Desc := { ring := n, count := (s.ring n).sqCi, raw := b }
    exec (.descriptorFetch (some b)) s =
      .next (descFetched s n d) := by
  intro d
  have noScope : (dType b == 5 && fenceScope b == 3) = false := by
    simpa using scope
  show execDescriptorFetch (some b) s = _
  unfold execDescriptorFetch
  simp only [next, slice_self len, if_neg (Nat.not_lt.mpr type), noScope]
  simp only [Bool.or_eq_true, beq_iff_eq]
  rfl

theorem nextRing_some {s : State} {inter : Bool} {last n : Nat} (h : nextRing s inter last = some n) :
    n < 64 ∧ (s.ring n).interactive = inter ∧ canFetch s n = true := by
  have passes := List.find?_some h
  have mem := List.mem_of_find?_eq_some h
  simp only [upto, List.map_map, List.mem_map, List.mem_range, Function.comp_apply] at mem
  obtain ⟨k, -, rfl⟩ := mem
  exact ⟨Nat.mod_lt _ (by norm_num), by simpa using passes⟩

/-- The search passes every ring of the class (R115). -/
theorem nextRing_none {s : State} {inter : Bool} {last m : Nat} (h : nextRing s inter last = none) (hm : m < 64)
    (cls : (s.ring m).interactive = inter) : canFetch s m = false := by
  have mem : m ∈ (upto (last + 1) 64).map (· % 64) := by
    simp only [upto, List.map_map, List.mem_map, List.mem_range, Function.comp_apply]
    exact ⟨(m + 64 * (last + 1) - (last + 1)) % 64, Nat.mod_lt _ (by norm_num), by omega⟩
  simpa [cls] using List.find?_eq_none.mp h m mem

/-- The ring that is fetched may be, and a bulk ring is not while an interactive one may be (R107, R115). -/
theorem fetchRing_law {s : State} {n : Nat} (next : fetchRing s = some n) : n < 64 ∧ canFetch s n = true ∧
    ((s.ring n).interactive = false → ∀ m, m < 64 → (s.ring m).interactive = true → canFetch s m = false) := by
  unfold fetchRing at next
  obtain ⟨-, next⟩ := Option.ite_none_left_eq_some.mp next
  split at next
  next k first =>
    obtain rfl := Option.some.inj next
    obtain ⟨lt, inter, may⟩ := nextRing_some first
    exact ⟨lt, may, fun bulk => by rw [inter] at bulk; cases bulk⟩
  next none =>
    obtain ⟨lt, -, may⟩ := nextRing_some next
    exact ⟨lt, may, fun _ m hm inter => nextRing_none none hm inter⟩

theorem canFetch_law {s : State} {n : Nat} (h : canFetch s n = true) : (s.ring n).sqCi ≠ (s.ring n).sqPi ∧
    ((s.ring n).sqCi + 2 ^ 32 - (s.ring n).cqCi) % 2 ^ 32 < 2 ^ (s.ring n).sizeLog2 := by
  unfold canFetch at h
  simp only [Bool.and_eq_true, bne_iff_ne, decide_eq_true_eq] at h
  obtain ⟨⟨⟨-, posted⟩, room⟩, -⟩ := h
  exact ⟨posted, room⟩

/-- Settles O34: a doorbell's page, a running ring's doorbell, and the fetch. -/
theorem doorbellsAndFetch : Obligations.DoorbellsAndFetch := by
  refine ⟨fun page off b s window => ⟨?_, execDoorbell_partial window, execDoorbell_ignored⟩, ?_, ?_, fun s n next => ?_⟩
  · rw [execDoorbell_read window, doorbellWord]
    simp only [beq_iff_eq]
  · intro page b s r valid window len enabled running _ _ _ _
    rw [execDoorbell_running window len enabled running]
    refine ⟨fun valid => ?_, fun invalid => ?_⟩
    · rw [(doorbellInvalid_eq_false_iff _ b).mpr valid]
      exact ⟨_, rfl, (State.ring_updRing ..).trans (if_pos rfl), fun n other => (State.ring_updRing ..).trans (if_neg (Ne.symm other)), rfl⟩
    · rw [if_pos (Bool.not_eq_false _ ▸ mt (doorbellInvalid_eq_false_iff _ b).mp invalid)]
      exact ⟨_, rfl, rfl, (State.ring_updRing ..).trans (if_pos rfl), fun n other => (State.ring_updRing ..).trans (if_neg (Ne.symm other)), rfl⟩
  · intro s n b next len type scope d only
    have rest := descFetched_rest s n d
    have ring (m : Nat) : (descFetched s n d).ring m = (descTaken s n d).ring m := (congrArg (State.ring · m) rest :)
    refine ⟨_, execDescriptorFetch_taken next len type scope, descs_descFetched rfl only, ?_, fun m other => ?_, ?_⟩
    · rw [ring, ring_taken, if_pos rfl]
      rfl
    · rw [ring, ring_taken, if_neg (Ne.symm other)]
    · exact (congrArg (fun t : State => { t with hif := s.hif }) rest).trans (descTaken_rest s n d)
  · obtain ⟨lt, may, order⟩ := fetchRing_law next
    obtain ⟨posted, room⟩ := canFetch_law may
    exact ⟨lt, posted, room, order⟩

end Sys2Proof.Machine
end

section
/-! ### The pieces of a COPY (R100, R131, R133, R134) -/

namespace Sys2Proof.Machine

open Sys2Proof

/-! The write TLPs of a piece (R100). -/

/-- The bytes that a memory write carries. -/
def tlpData : Out → Bytes
  | .hostWrite _ d _ => d
  | _ => []

theorem dataTlps_bounded {f a : Nat} {b : Bytes} {t : Out} (h : t ∈ dataTlps f a b) :
    ∃ x d, t = .hostWrite x d true ∧ 0 < d.length ∧ x % 512 + d.length ≤ 512 := by
  induction f generalizing a b with
  | zero => cases h
  | succ f ih =>
    rw [dataTlps] at h
    split_ifs at h with empty
    · cases h
    · rcases List.mem_cons.mp h with rfl | rest
      · have some : 0 < b.length := by simpa [List.length_pos_iff] using empty
        exact ⟨a, _, rfl, by rw [List.length_take]; omega, by rw [List.length_take]; omega⟩
      · exact ih rest

/-- A first write up to the boundary, then whole ones: as many as the fuel suffice. -/
theorem dataTlps_data {f a : Nat} {b : Bytes} (fuel : a % 512 + b.length ≤ 512 * f) : (dataTlps f a b).flatMap tlpData = b := by
  induction f generalizing a b with
  | zero => rw [dataTlps, List.flatMap_nil, List.length_eq_zero_iff.mp (by omega : b.length = 0)]
  | succ f ih =>
    rw [dataTlps]
    split_ifs with empty
    · simpa using empty
    · have rest : (a + (512 - a % 512)) % 512 + (b.drop (512 - a % 512)).length ≤ 512 * f := by
        rw [List.length_drop]
        omega
      rw [List.flatMap_cons, ih rest, tlpData, List.take_append_drop]

/-! COPY_PIECE_DONE (R131, R133, R134). -/

/-- The bytes of a piece: zeros, the host's answer, or what device memory reads as. -/
def pieceRead (i : State) (d : Desc) (p : Piece) (src : HostData) (acc : Accessor) : Except MemFail Bytes × State :=
  if copyZero d.raw then (.ok (List.replicate p.len 0), i)
  else if copyDir d.raw == 0 then
    (match src with
      | some b => (.ok (slice b 0 p.len), i)
      | none => (.error 0x32, { i with hif := { i.hif with hostErr := true } }))
  else readMem i (copySrc d.raw + p.off) p.len acc

/-- The bytes of a piece are written: how that failed, if it did, and the state it left. -/
def pieceWritten (v : State) (d : Desc) (p : Piece) (b : Bytes) (acc : Accessor) : Option MemFail × State :=
  if copyDir d.raw == 1 then
    (if canWrite v then (none, { v with out := v.out ++ dataTlps (b.length / 512 + 2) (copyDst d.raw + p.off) b })
     else (some 0x32, { refuseOnce v with hif := { (refuseOnce v).hif with hostErr := true } }))
  else match writeMem v (copyDst d.raw + p.off) b acc with
    | (.ok _, w) => (none, w)
    | (.error f, w) => (some f, w)

/-- A piece is moved. -/
def pieceMoved (i : State) (d : Desc) (p : Piece) (src : HostData) (acc : Accessor) : Option MemFail × State :=
  let (data, v) := pieceRead i d p src acc
  match data with
  | .error f => (some f, v)
  | .ok b => pieceWritten v d p b acc

/-- A piece is over, moved or failed with a status: its length is counted, its descriptor has one piece less open and completes with
the last, and free engines take further pieces. -/
def pieceOver (d : Desc) (p : Piece) (res : Option MemFail) (z : State) : State :=
  let z := updDesc (if res.isNone then z.countChip 0x308 p.len else z) d fun y =>
    { y with open_ := y.open_ - 1, fail := if y.fail == 0 then res.getD 0 else y.fail }
  dispatch (match z.hif.descs.find? (fun d => d.ring == p.ring && d.count == p.count) with
    | some d => finishCopy z d
    | none => z)

/-- The piece of an engine that is free again: it is moved, and over. -/
def pieceStep (i : State) (p : Piece) (src : HostData) : State :=
  match i.hif.descs.find? (fun d => d.ring == p.ring && d.count == p.count) with
  | none => dispatch i
  | some d =>
    let (res, w) := pieceMoved i d p src (descAccess i d.ring d.count (dJob d.raw))
    pieceOver d p res w

/-- The piece's engine is free. -/
def engineFreed (u : State) (e : Nat) : State := { u with hif := { u.hif with engines := sset none u.hif.engines e none } }

/-- An engine finishes its piece; one without a piece changes nothing. -/
def pieceDone (u : State) (e : Nat) (src : HostData) : State :=
  match (sget none u.hif.engines e : Option Piece) with
  | none => u
  | some p => pieceStep (engineFreed u e) p src

theorem execCopyPieceDone_eq (e : Nat) (src : HostData) (ph : List Phys) (s : State) :
    exec (.copyPieceDone e src ph) s = .next (pieceDone (injectAll s ph) e src) := by
  show execCopyPieceDone e src ph s = _
  unfold execCopyPieceDone
  extract_lets u _ v _
  have freed : engineFreed u e = v := rfl
  unfold pieceDone
  rw [show injectAll s ph = u from rfl, freed]
  cases (sget none u.hif.engines e : Option Piece) with
  | none => rfl
  | some p =>
    clear_value v
    dsimp only [pieceStep]
    cases v.hif.descs.find? (fun d => d.ring == p.ring && d.count == p.count) with
    | none => rfl
    | some d =>
      dsimp only [pieceMoved, pieceRead, pieceWritten, pieceOver] <;> rfl

theorem pieceDone_idle {u : State} {e : Nat} (src : HostData) (idle : sget none u.hif.engines e = none) : pieceDone u e src = u := by
  rw [pieceDone, idle]

/-- Who accesses memory for a piece (R133, R624). -/
def pieceAccess (u : State) (d : Desc) : Accessor :=
  { job := dJob d.raw, src := srcDesc d.ring (d.count % ringSize (u.ring d.ring)), desc := some (d.ring, d.count) }

theorem pieceDone_busy {u w : State} {e : Nat} {src : HostData} {p : Piece} {d : Desc} {res : Option MemFail}
    (busy : sget none u.hif.engines e = some p)
    (known : u.hif.descs.find? (fun d => d.ring == p.ring && d.count == p.count) = some d)
    (moved : pieceMoved (engineFreed u e) d p src (pieceAccess u d) = (res, w)) : pieceDone u e src = pieceOver d p res w := by
  rw [pieceDone, busy]
  show pieceStep (engineFreed u e) p src = _
  rw [pieceStep, show (engineFreed u e).hif.descs.find? _ = some d from known]
  show (let (res, w) := pieceMoved (engineFreed u e) d p src (pieceAccess u d)
    pieceOver d p res w) = _
  rw [moved]

section
variable {i v w : State} {d : Desc} {p : Piece} {src : HostData} {acc : Accessor} {b : Bytes}

theorem pieceWritten_device (dir : copyDir d.raw ≠ 1) (wrote : writeMem v (copyDst d.raw + p.off) b acc = (.ok (), w)) :
    pieceWritten v d p b acc = (none, w) := by
  rw [pieceWritten, if_neg (by simpa using dir), wrote]

theorem pieceWritten_host (dir : copyDir d.raw = 1) (up : v.hif.linkUp = true) (free : v.hif.txRefused = false) :
    pieceWritten v d p b acc = (none, { v with out := v.out ++ dataTlps (b.length / 512 + 2) (copyDst d.raw + p.off) b }) := by
  rw [pieceWritten, if_pos (by simpa using dir), if_pos (by simp [canWrite, up, free])]

theorem pieceMoved_of_read (read : pieceRead i d p src acc = (.ok b, v)) : pieceMoved i d p src acc = pieceWritten v d p b acc := by
  rw [pieceMoved, read]

theorem pieceMoved_of_failed_read {f : MemFail} (read : pieceRead i d p src acc = (.error f, v)) :
    pieceMoved i d p src acc = (some f, v) := by
  rw [pieceMoved, read]

theorem pieceRead_zero (zero : copyZero d.raw = true) : pieceRead i d p src acc = (.ok (List.replicate p.len 0), i) := by
  unfold pieceRead
  rw [if_pos zero]

theorem pieceRead_host (zero : copyZero d.raw = false) (dir : copyDir d.raw = 0) : pieceRead i d p src acc =
    match src with
    | some b => (.ok (slice b 0 p.len), i)
    | none => (.error 0x32, { i with hif := { i.hif with hostErr := true } }) := by
  unfold pieceRead
  rw [if_neg (by simp [zero]), if_pos (by simp [dir])]

theorem pieceRead_device (zero : copyZero d.raw = false) (dir : copyDir d.raw ≠ 0) :
    pieceRead i d p src acc = readMem i (copySrc d.raw + p.off) p.len acc := by
  unfold pieceRead
  rw [if_neg (by simp [zero]), if_neg (by simpa using dir)]

end

/-- Settles O36. Clauses that are the model's choice: the cut at 512-byte boundaries, and the piece between device addresses that is
read whole before it is written (log entry 11); status 0x32 without a record (log entry 26). -/
theorem copiesMoveTheirPieces : Obligations.CopiesMoveTheirPieces := by
  refine ⟨?_, fun a b => ⟨fun t mem => dataTlps_bounded mem, dataTlps_data (by omega)⟩⟩
  intro e src ph s u
  refine ⟨fun idle => ?_, ?_⟩
  · rw [execCopyPieceDone_eq, pieceDone_idle src idle]
  · intro p d b v w busy known i acc after
    have ends (res : Option MemFail) (z : State) (sound : res ≠ some 0) : pieceOver d p res z = after (res.getD 0) z := by
      have counted : res.isNone = true ↔ res.getD 0 = 0 := by
        cases res with
        | none => simp
        | some f => simpa using sound
      simp only [pieceOver, counted, beq_iff_eq, after] <;> rfl
    have run {res : Option MemFail} {z : State} (sound : res ≠ some 0) (moved : pieceMoved i d p src acc = (res, z)) :
        exec (.copyPieceDone e src ph) s = .next (after (res.getD 0) z) := by
      rw [execCopyPieceDone_eq, pieceDone_busy busy known moved, ends res z sound]
    refine ⟨fun dir zero host wrote => run (res := none) nofun ?_, fun dir zero host => run (res := some 0x32) (by decide) ?_,
      fun zero dir wrote => run (res := none) nofun ?_, fun dir zero read up free => run (res := none) nofun ?_,
      fun dir zero read wrote => run (res := none) nofun ?_, fun f fails dir zero read => run (res := some f) (by simpa using fails) ?_⟩
    · rw [pieceMoved_of_read (by rw [pieceRead_host zero dir, host]), pieceWritten_device (by omega) wrote]
    · exact pieceMoved_of_failed_read (by rw [pieceRead_host zero dir, host])
    · rw [pieceMoved_of_read (pieceRead_zero zero), pieceWritten_device dir wrote]
    · rw [pieceMoved_of_read ((pieceRead_device zero (by omega)).trans read), pieceWritten_host dir up free]
    · rw [pieceMoved_of_read ((pieceRead_device zero (by omega)).trans read), pieceWritten_device (by omega) wrote]
    · exact pieceMoved_of_failed_read ((pieceRead_device zero dir).trans read)

end Sys2Proof.Machine
end

section
/-! ### Plot fences (R141, R442) -/

namespace Sys2Proof.Machine

open Sys2Proof

theorem plFence_law {c : Nat} {s : State} {x : Ctx} (ready : readyCtx 0x81 c [] s = some x) :
    exec (.plFence c) s = .next ((issued s x []).updSeq c fun q =>
      { q with flight := q.flight ++ [.fence (bits x.i.opd 3 0) ((issued s x []).stack (bits x.i.opd 3 0)).serial] }) := by
  show execPlFence c s = _
  unfold execPlFence
  exact issue_ready_nil _ ready

/-! What step 2 of PLOT_FENCE leaves. -/

/-- The sequences that a stack has queued. -/
def queuedSeqs (s : State) (n : Nat) : List PlotSeq := (s.stack n).bulkQ ++ (s.stack n).interQ

theorem queuedSeqs_updStack (s : State) (k n : Nat) (f : StackSt → StackSt) (bulk : ∀ x, (f x).bulkQ = x.bulkQ)
    (inter : ∀ x, (f x).interQ = x.interQ) : queuedSeqs (s.updStack k f) n = queuedSeqs s n := by
  unfold queuedSeqs
  rw [State.stack_updStack]
  split_ifs with own
  · rw [own, bulk, inter]
  · rfl

theorem queuedSeqs_invalidate (s : State) (k : Nat) (bs : List Nat) (n : Nat) : queuedSeqs (invalidate s k bs) n = queuedSeqs s n :=
  queuedSeqs_updStack s k n _ (fun _ => rfl) fun _ => rfl

theorem queuedSeqs_plotInvalidate (s : State) (k job serial n : Nat) : queuedSeqs (plotInvalidate s k job serial) n = queuedSeqs s n := by
  unfold plotInvalidate
  extract_lets mine t
  refine (queuedSeqs_updStack t k n (fun x => { x with doneSeqs := x.doneSeqs.filter fun q => !mine q }) (fun _ => rfl)
    fun _ => rfl).trans ?_
  exact foldl_keeps (queuedSeqs · n) (fun u q => queuedSeqs_invalidate u k _ n) _ s

/-- It touches the memory stacks alone. -/
theorem plotInvalidate_rest (s : State) (k job serial : Nat) : { plotInvalidate s k job serial with stk := s.stk } = s := by
  unfold plotInvalidate
  extract_lets mine t
  exact foldl_keeps (fun u : State => { u with stk := s.stk }) (f := fun s q => invalidate s k (resultBlocks q ++ seqBlocks s q true))
    (fun _ _ => rfl) _ s

theorem plotClear_congr {s t : State} {n : Nat} (h : queuedSeqs t n = queuedSeqs s n) (job serial : Nat) :
    plotClear t n job serial = plotClear s n job serial := by
  rw [plotClear, plotClear, show (t.stack n).bulkQ ++ (t.stack n).interQ = (s.stack n).bulkQ ++ (s.stack n).interQ from h]

/-! A cell whose last operation is over. -/

/-- A halted cell with nothing under way counts as done from `now`. -/
def settled (now : Nat) (x : CellSt) : CellSt :=
  if x.seq.halted && x.seq.flight.isEmpty && !x.seq.done then { x with seq := { x.seq with done := true, doneAt := now } } else x

theorem settled_flight (now : Nat) (x : CellSt) : (settled now x).seq.flight = x.seq.flight := by
  unfold settled
  split_ifs <;> rfl

/-- The note of the last cell done is the sheet's. -/
theorem noteDone_shape (s : State) : ∃ sht, s.noteDone = { s with sht } := by
  unfold State.noteDone
  split_ifs
  · exact ⟨s.sht, rfl⟩
  all_goals exact ⟨_, rfl⟩

theorem settle_shape (s : State) (c : Nat) : ∃ cells sht, settle s c = { s with cells, sht } := by
  unfold settle
  extract_lets q
  split_ifs
  · obtain ⟨sht, noted⟩ := noteDone_shape (s.updSeq c fun q => { q with done := true, doneAt := s.clk.cycles })
    exact ⟨_, sht, noted⟩
  · exact ⟨s.cells, s.sht, rfl⟩

theorem cell_settle (s : State) (c k : Nat) : (settle s c).cell k = if c = k then settled s.clk.cycles (s.cell c) else s.cell k := by
  have noted (t : State) : t.noteDone.cell k = t.cell k := by
    obtain ⟨sht, h⟩ := noteDone_shape t
    rw [h]
    rfl
  unfold settle settled
  extract_lets q
  split_ifs with last own own
  · rw [noted, State.cell_updSeq, if_pos own]
  · rw [noted, State.cell_updSeq, if_neg own]
  · rw [own]
  · rfl

theorem clk_settle (s : State) (c : Nat) : (settle s c).clk = s.clk := by
  obtain ⟨cells, sht, h⟩ := settle_shape s c
  rw [h]

theorem queuedSeqs_settle (s : State) (c n : Nat) : queuedSeqs (settle s c) n = queuedSeqs s n := by
  obtain ⟨cells, sht, h⟩ := settle_shape s c
  rw [h]
  rfl

/-! PLOT_FENCE (R442). -/

/-- An operation under way is a PL.FENCE of a stack whose sequences have completed. -/
def fenceReady (s : State) (n job : Nat) : Flight → Bool
  | .fence k upto => k == n && plotClear s n job upto
  | _ => false

/-- The sequences that the first such PL.FENCE waited for. -/
def readySerial (s : State) (n job : Nat) (fl : List Flight) : Option Nat :=
  fl.findSome? fun f => match f with
    | .fence k upto => if k == n && plotClear s n job upto then some upto else none
    | _ => none

theorem readySerial_congr {s t : State} {n : Nat} (h : queuedSeqs t n = queuedSeqs s n) (job : Nat) (fl : List Flight) :
    readySerial t n job fl = readySerial s n job fl := by
  simp only [readySerial, plotClear_congr h]

theorem readySerial_none {s : State} {n job : Nat} {fl : List Flight} (h : fl.all (fun f => !fenceReady s n job f) = true) :
    readySerial s n job fl = none := by
  rw [readySerial, List.findSome?_eq_none_iff]
  intro f hf
  have wait : fenceReady s n job f = false := by simpa using List.all_eq_true.mp h f hf
  cases f with
  | fence k upto => exact if_neg (Bool.eq_false_iff.mp wait)
  | _ => rfl

theorem readySerial_first {s : State} {n job upto : Nat} {before after : List Flight} (ready : fenceReady s n job (.fence n upto) = true)
    (h : before.all (fun f => !fenceReady s n job f) = true) : readySerial s n job (before ++ .fence n upto :: after) = some upto := by
  have none := readySerial_none h
  rw [readySerial] at none ⊢
  rw [List.findSome?_append, none, Option.none_or, List.findSome?_cons]
  simp only [if_pos (show (n == n && plotClear s n job upto) = true from ready)]

theorem dropFlight_first {p : Flight → Bool} {f : Flight} {before after : List Flight} (hp : p f = true)
    (h : ∀ x ∈ before, p x = false) : dropFlight p (before ++ f :: after) = before ++ after := by
  induction before with
  | nil => simp [dropFlight, hp]
  | cons x l ih =>
    rw [List.cons_append, dropFlight, h x List.mem_cons_self, if_neg Bool.false_ne_true, ih fun y hy => h y (List.mem_cons_of_mem x hy)]
    rfl

/-- What PLOT_FENCE makes of a cell: its first ready PL.FENCE is over. -/
def fenceOver (s : State) (n job : Nat) (x : CellSt) : CellSt :=
  if x.seq.job ≠ job then x
  else match readySerial s n job x.seq.flight with
    | none => x
    | some serial => settled s.clk.cycles
        { x with seq := { x.seq with flight := dropFlight (fun f => decide (f = .fence n serial)) x.seq.flight } }

/-- PLOT_FENCE at one cell. -/
def fenceAt (n job : Nat) (s : State) (c : Nat) : State :=
  if (s.cell c).seq.job != job then s
  else match readySerial s n job (s.cell c).seq.flight with
    | none => s
    | some serial => settle ((plotInvalidate s n job serial).updSeq c fun q =>
        { q with flight := dropFlight (fun f => decide (f = .fence n serial)) q.flight }) c

/-- What PLOT_FENCE relies on from one cell to the next: the same sequences are queued, and no time passes. -/
def sameFence (s : State) (n : Nat) (t : State) : Prop := queuedSeqs t n = queuedSeqs s n ∧ t.clk = s.clk

theorem fenceAt_keeps {s t : State} {n : Nat} (job c : Nat) (h : sameFence s n t) : sameFence s n (fenceAt n job t c) := by
  obtain ⟨queued, clk⟩ := h
  unfold fenceAt
  split_ifs
  · exact ⟨queued, clk⟩
  · split
    next => exact ⟨queued, clk⟩
    next serial _ =>
      refine ⟨?_, ?_⟩
      · rw [queuedSeqs_settle]
        exact (queuedSeqs_plotInvalidate t n job serial n).trans queued
      · rw [clk_settle]
        exact (congrArg State.clk (plotInvalidate_rest t n job serial) :).trans clk

theorem cell_fenceAt {s t : State} {n : Nat} (job c k : Nat) (h : sameFence s n t) :
    (fenceAt n job t c).cell k = if c = k then fenceOver s n job (t.cell k) else t.cell k := by
  obtain ⟨queued, clk⟩ := h
  have cell (serial i : Nat) : (plotInvalidate t n job serial).cell i = t.cell i :=
    (congrArg (State.cell · i) (plotInvalidate_rest t n job serial) :)
  have clk' (serial : Nat) : (plotInvalidate t n job serial).clk = s.clk :=
    (congrArg State.clk (plotInvalidate_rest t n job serial) :).trans clk
  unfold fenceAt
  by_cases other : (t.cell c).seq.job = job
  · rw [if_neg (by simpa using other), readySerial_congr queued]
    unfold fenceOver
    by_cases own : c = k
    · subst own
      rw [if_pos rfl, if_neg (not_not_intro other)]
      cases readySerial s n job (t.cell c).seq.flight with
      | none => rfl
      | some serial =>
        rw [cell_settle, if_pos rfl, State.cell_updSeq, if_pos rfl, cell]
        exact congrArg (fun c : Clock => settled c.cycles _) (clk' serial)
    · rw [if_neg own]
      cases readySerial s n job (t.cell c).seq.flight with
      | none => rfl
      | some serial => rw [cell_settle, if_neg own, State.cell_updSeq, if_neg own, cell]
  · rw [if_pos (by simpa using other)]
    by_cases own : c = k
    · rw [if_pos own, fenceOver, ← own, if_pos other]
    · rw [if_neg own]

theorem execPlotFence_known {n job : Nat} {s : State} {j : Job} (known : s.job? job = some j) :
    exec (.plotFence n job) s = .next ((jobCells j).foldl (fenceAt n job) s) := by
  show execPlotFence n job s = _
  unfold execPlotFence
  rw [known]
  rfl

/-- The cell loses its first ready PL.FENCE, and no other operation. -/
theorem flight_fenceOver {s : State} {n job upto : Nat} {before after : List Flight} {x : CellSt} (mine : x.seq.job = job)
    (flight : x.seq.flight = before ++ .fence n upto :: after) (ready : fenceReady s n job (.fence n upto) = true)
    (first : before.all (fun f => !fenceReady s n job f) = true) (fresh : .fence n upto ∉ before) :
    (fenceOver s n job x).seq.flight = before ++ after := by
  rw [fenceOver, if_neg (not_not_intro mine), flight, readySerial_first ready first]
  refine (settled_flight ..).trans (dropFlight_first (decide_eq_true rfl) fun y hy => decide_eq_false ?_)
  rintro rfl
  exact fresh hy

theorem fenceOver_unready {s : State} {n job : Nat} {x : CellSt}
    (h : x.seq.job ≠ job ∨ x.seq.flight.all (fun f => !fenceReady s n job f) = true) : fenceOver s n job x = x := by
  unfold fenceOver
  by_cases other : x.seq.job = job
  · rw [if_neg (not_not_intro other), readySerial_none (h.resolve_left (not_not_intro other))]
  · rw [if_pos other]

theorem plotFence_law {n job : Nat} {s : State} {j : Job} (known : s.job? job = some j) (nodup : (jobCells j).Nodup) :
    ∃ t : State, exec (.plotFence n job) s = .next t ∧ ∀ c,
      (c ∈ jobCells j → (s.cell c).seq.job = job → ∀ before upto after, (s.cell c).seq.flight = before ++ .fence n upto :: after →
        fenceReady s n job (.fence n upto) = true → before.all (fun f => !fenceReady s n job f) = true → .fence n upto ∉ before →
        (t.cell c).seq.flight = before ++ after) ∧
      (c ∉ jobCells j ∨ (s.cell c).seq.job ≠ job ∨ (s.cell c).seq.flight.all (fun f => !fenceReady s n job f) = true →
        t.cell c = s.cell c) := by
  have keep (t : State) (c : Nat) (h : sameFence s n t) := fenceAt_keeps job c h
  have step (t : State) (c k : Nat) (h : sameFence s n t) := cell_fenceAt job c k h
  have ids : (jobCells j).map id = jobCells j := List.map_id _
  have member {c : Nat} (hc : c ∈ jobCells j) : ((jobCells j).foldl (fenceAt n job) s).cell c = fenceOver s n job (s.cell c) :=
    cell_foldl (key := id) (g := fun _ => fenceOver s n job) keep step (ids.symm ▸ nodup) ⟨rfl, rfl⟩ hc
  refine ⟨_, execPlotFence_known known, fun c => ⟨fun hc mine before upto after flight ready first fresh => ?_, fun h => ?_⟩⟩
  · rw [member hc, flight_fenceOver mine flight ready first fresh]
  · by_cases hc : c ∈ jobCells j
    · rw [member hc, fenceOver_unready (h.resolve_left (not_not_intro hc))]
    · exact cell_foldl_other (key := id) (g := fun _ => fenceOver s n job) keep step ⟨rfl, rfl⟩ (ids.symm ▸ hc)

/-! FENCE of SCOPE 2 (R141). -/

section
variable {status : State → Desc → Option Nat} {isOver : State → Desc → Bool} {last : State → Desc → State} {s : State} {d : Desc}

theorem runFence_fails {st : Nat} (fails : status s d = some st) : runFence status isOver last s d = complete s d st 0 := by
  rw [runFence, fails]

theorem runFence_begun (passes : status s d = none)
    (known : s.hif.descs.find? (fun y => y.ring == d.ring && y.count == d.count) = some d) (begun : d.phase = .begun) :
    runFence status isOver last s d = if isOver s d then complete (last s d) d 0 0 else s := by
  have same : beginNow s d = s := by rw [beginNow, if_pos (by simp [begun])]
  rw [runFence, passes]
  simp only [same, known, begun, decide_true, Bool.true_and]

/-- A change of the descriptor that a search by ring and count finds. -/
theorem find?_updDesc {f : Desc → Desc} (keep : ∀ x, (f x).ring = x.ring ∧ (f x).count = x.count)
    (known : s.hif.descs.find? (fun y => y.ring == d.ring && y.count == d.count) = some d) :
    (updDesc s d f).hif.descs.find? (fun y => y.ring == d.ring && y.count == d.count) = some (f d) := by
  have same : ((fun y : Desc => y.ring == d.ring && y.count == d.count) ∘ fun x => if x.ring == d.ring && x.count == d.count then f x else x) =
      fun y => y.ring == d.ring && y.count == d.count := by
    funext y
    rw [Function.comp_apply]
    split_ifs
    · rw [(keep y).1, (keep y).2]
    · rfl
  show (s.hif.descs.map _).find? _ = _
  rw [List.find?_map, same, known]
  simp

theorem runFence_begins (passes : status s d = none)
    (known : s.hif.descs.find? (fun y => y.ring == d.ring && y.count == d.count) = some d) (type : dType d.raw = 5)
    (fetched : d.phase = .fetched) (order : dFlag d.raw 9 = false ∨ alone s d = true) :
    let b : Desc := { d with phase := .begun, waits := fenceWaits s d }
    let v := updDesc s d fun y => { y with phase := .begun, waits := fenceWaits s d }
    runFence status isOver last s d = if isOver v b then complete (last v b) b 0 0 else v := by
  intro b v
  have begins : beginNow s d = v := by rw [beginNow_fetched fetched, if_pos order, if_pos type]
  have found : v.hif.descs.find? (fun y => y.ring == d.ring && y.count == d.count) = some b := find?_updDesc (fun _ => ⟨rfl, rfl⟩) known
  rw [runFence, passes]
  simp only [begins, found]
  rfl

end

/-- Settles O32, one law for each of the three rows, and one for a FENCE of SCOPE 2. -/
theorem plotFencesWaitForTheirSequences : Obligations.PlotFencesWaitForTheirSequences := by
  refine ⟨fun c s x ready => plFence_law ready, fun n job s j known nodup => plotFence_law known nodup, fun ring ph s => rfl, ?_⟩
  intro s d last run n k
  refine ⟨fun st fails => runFence_fails fails, fun passes known type scope fetched order => ?_,
    fun passes known begun => runFence_begun passes known begun⟩
  have waits : fenceWaits s d = [(n, k)] := by simp only [fenceWaits, scope, n, k]
  have begins := runFence_begins (isOver := plotOver) (last := last) passes known type fetched order
  rw [waits] at begins
  exact begins

end Sys2Proof.Machine
end

section
/-! ### What errors and completions leave of the host interface (R143 to R148, R156, R620 to R647, R652) -/

namespace Sys2Proof.Machine

open Sys2Proof

/-- A descriptor that has not begun (R116). -/
def Desc.unbegun (d : Desc) : Prop := d.phase = .fetched ∨ d.phase = .waiting

/-- `y` is `x` as its work goes on: it does not return to where it had not begun. -/
def Desc.follows (x y : Desc) : Prop :=
  x.ring = y.ring ∧ x.count = y.count ∧ x.raw = y.raw ∧ (y.unbegun → x.phase = y.phase)

theorem Desc.follows.refl (x : Desc) : x.follows x := ⟨rfl, rfl, rfl, fun _ => rfl⟩

/-- Completions of a ring can be written, or have failed already: none fails now. -/
def ringSafe (s : State) (n : Nat) : Prop := (s.ring n).cqFailed = true ∨ s.hif.linkUp = true ∧ s.hif.txRefused = false

/-- `t` is `s` after errors were raised, descriptors completed and jobs left: no descriptor is new, no link comes up or goes down, no
interrupt is noted while the link is down, fetch and the error ring are not switched on, no safe ring stops. -/
structure HostKept (s t : State) : Prop where
  link : t.hif.linkUp = s.hif.linkUp
  refused : s.hif.txRefused = false → t.hif.txRefused = false
  msix : s.hif.linkUp = false → t.hif.msix = s.hif.msix
  fetch : s.hif.fetchEn = false → t.hif.fetchEn = false
  errEnable : t.err.enable = s.err.enable
  staging : s.err.enable = false → s.err.staging = [] → t.err.staging = []
  failed : ∀ n, (s.ring n).cqFailed = true → (t.ring n).cqFailed = true
  state : ∀ n, ringSafe s n → (t.ring n).state = (s.ring n).state
  descs : ∀ y ∈ t.hif.descs, ∃ x ∈ s.hif.descs, x.follows y

namespace HostKept

theorem safe {s t : State} (h : HostKept s t) {n : Nat} (k : ringSafe s n) : ringSafe t n := by
  rcases k with failed | ⟨up, free⟩
  · exact .inl (h.failed n failed)
  · exact .inr ⟨h.link.trans up, h.refused free⟩

/-- A state in which what `HostKept` speaks of stands. -/
theorem of_same {s t : State} (link : t.hif.linkUp = s.hif.linkUp) (refused : t.hif.txRefused = s.hif.txRefused)
    (msix : t.hif.msix = s.hif.msix) (fetch : t.hif.fetchEn = s.hif.fetchEn) (rings : t.hif.rings = s.hif.rings)
    (descs : t.hif.descs = s.hif.descs) (errEnable : t.err.enable = s.err.enable) (staging : t.err.staging = s.err.staging) :
    HostKept s t where
  link := link
  refused h := refused.trans h
  msix _ := msix
  fetch h := fetch.trans h
  errEnable := errEnable
  staging _ h := staging.trans h
  failed n h := by rwa [State.ring, rings]
  state n _ := by rw [State.ring, rings, State.ring]
  descs y hy := ⟨y, descs ▸ hy, .refl y⟩

theorem of_hif {s t : State} (hif : t.hif = s.hif) (errEnable : t.err.enable = s.err.enable) (staging : t.err.staging = s.err.staging) :
    HostKept s t :=
  of_same (by rw [hif]) (by rw [hif]) (by rw [hif]) (by rw [hif]) (by rw [hif]) (by rw [hif]) errEnable staging

theorem refl (s : State) : HostKept s s := of_hif rfl rfl rfl

theorem trans {s t u : State} (h : HostKept s t) (k : HostKept t u) : HostKept s u where
  link := k.link.trans h.link
  refused free := k.refused (h.refused free)
  msix down := (k.msix (h.link.trans down)).trans (h.msix down)
  fetch off := k.fetch (h.fetch off)
  errEnable := k.errEnable.trans h.errEnable
  staging off none := k.staging (h.errEnable.trans off) (h.staging off none)
  failed n x := k.failed n (h.failed n x)
  state n x := (k.state n (h.safe x)).trans (h.state n x)
  descs y hy := by
    obtain ⟨x, hx, ring, count, raw, phase⟩ := k.descs y hy
    obtain ⟨w, hw, ring', count', raw', phase'⟩ := h.descs x hx
    refine ⟨w, hw, ring'.trans ring, count'.trans count, raw'.trans raw, fun idle => ?_⟩
    have same := phase idle
    exact (phase' (by rwa [Desc.unbegun, same])).trans same

/-- What `HostKept` does not speak of is written. -/
theorem write {s t u : State} (h : HostKept s t) (hif : u.hif = t.hif) (errEnable : u.err.enable = t.err.enable)
    (staging : u.err.staging = t.err.staging) : HostKept s u := h.trans (of_hif hif errEnable staging)

theorem after {s t u : State} (k : HostKept t u) (h : HostKept s t) : HostKept s u := h.trans k

theorem foldl {β : Type} {f : State → β → State} (h : ∀ s x, HostKept s (f s x)) (l : List β) (s : State) :
    HostKept s (l.foldl f s) := by
  induction l generalizing s with
  | nil => exact refl s
  | cons x l ih => exact (h s x).trans (ih (f s x))

theorem ite {s t u : State} {p : Prop} {dec : Decidable p} (h : HostKept s t) (k : HostKept s u) :
    HostKept s (if p then t else u) := by
  split
  · exact h
  · exact k

/-- Descriptors that change as their work goes on. -/
theorem map_descs {s t : State} (f : Desc → Desc) (follows : ∀ x ∈ s.hif.descs, x.follows (f x))
    (h : t = { s with hif := { s.hif with descs := s.hif.descs.map f } }) : HostKept s t := by
  subst h
  refine ⟨rfl, id, fun _ => rfl, id, rfl, fun _ => id, fun _ => id, fun _ _ => rfl, fun y hy => ?_⟩
  obtain ⟨x, hx, rfl⟩ := List.mem_map.mp hy
  exact ⟨x, hx, follows x hx⟩

end HostKept

/-! Each operation on the way of an error. -/

theorem hostKept_dropped (s : State) (k n : Nat) : HostKept s (dropped s k n) := .of_hif rfl rfl rfl

theorem hostKept_sendVector (s : State) (v : Nat) : HostKept s (sendVector s v) := by
  unfold sendVector
  extract_lets e _ s1
  have counted : HostKept s s1 := .of_same rfl rfl rfl rfl rfl rfl rfl rfl
  by_cases up : (!s1.hif.linkUp) = true
  · rw [if_pos up]
    exact counted
  · rw [if_neg up]
    refine counted.trans (.ite ?_ (.of_hif rfl rfl rfl))
    exact ⟨rfl, id, fun down => absurd down (by simpa using up), id, rfl, fun _ => id, fun _ => id, fun _ _ => rfl,
      fun y mem => ⟨y, mem, .refl y⟩⟩

theorem hostKept_raiseIbi (s : State) (kind : Nat) : HostKept s (raiseIbi s kind) := by
  unfold raiseIbi
  exact .ite (.refl s) (.ite (.of_hif rfl rfl rfl) (.of_hif rfl rfl rfl))

theorem hostKept_alarmOne (code unit job : Nat) (s : State) (b : Nat) : HostKept s (alarmOne code unit job s b) := by
  unfold alarmOne
  extract_lets a al _ s1 s2 _
  have h1 : HostKept s s1 := .of_hif rfl rfl rfl
  have h2 : HostKept s s2 := h1.trans (.ite (.refl _) (hostKept_raiseIbi _ 1))
  exact h2.trans (.ite (.refl _) (.ite (.refl _) ((hostKept_sendVector _ _).after (.of_hif rfl rfl rfl))))

theorem hostKept_pushSideBand (s : State) (r : ErrRec) : HostKept s (pushSideBand s r) := by
  unfold pushSideBand
  extract_lets q _ s1 s2
  have h1 : HostKept s s1 := .of_hif rfl rfl rfl
  have h2 : HostKept s s2 := h1.trans (.ite (hostKept_dropped _ 5 1) (.refl _))
  exact h2.trans (.ite (hostKept_raiseIbi _ 2) (.refl _))

/-- A staging FIFO that changes keeps an empty one empty while the ring is off. -/
theorem HostKept.of_staging (s : State) (l : List ErrRec) (h : s.err.enable = false → s.err.staging = [] → l = []) :
    HostKept s { s with err := { s.err with staging := l } } :=
  ⟨rfl, id, fun _ => rfl, id, rfl, h, fun _ => id, fun _ _ => rfl, fun y mem => ⟨y, mem, .refl y⟩⟩

theorem hostKept_stage {s t : State} {r : ErrRec} (h : stage s r = some t) : HostKept s t := by
  unfold stage at h
  extract_lets full seq history r' jobs named descs _ _ _ s1 s2 _ s3 _ at h
  obtain ⟨-, h⟩ := Option.ite_none_left_eq_some.mp h
  have h1 : HostKept s s1 := by
    have numbered : HostKept s { s with hif := { s.hif with descs := named } } := by
      refine .map_descs _ (fun x _ => ?_) rfl
      split <;> exact .refl _
    have ended : HostKept { s with hif := { s.hif with descs := named } } { s with hif := { s.hif with descs } } := by
      refine .map_descs _ (fun x _ => ?_) rfl
      split
      · split_ifs
        · exact ⟨rfl, rfl, rfl, fun idle => by simp [Desc.unbegun] at idle⟩
        · exact .refl _
      · exact .refl _
    exact (numbered.trans ended).trans (.of_hif rfl rfl rfl)
  have h2 : HostKept s s2 := h1.trans (.ite (hostKept_pushSideBand _ _) (.refl _))
  have h3 : HostKept s s3 := h2.trans (.ite (.trans (.of_staging _ _ fun _ none => by rw [none, dropFirst]) (hostKept_dropped _ 3 1)) (.refl _))
  split_ifs at h with _ off <;> obtain rfl := Option.some.inj h
  · exact h3
  · exact h3.trans (hostKept_dropped _ 4 1)
  · exact h3.trans (.of_staging _ _ fun x => by simp [x] at off)

theorem hostKept_setQueue (s : State) (lvl unit : Nat) (q : List ErrRec) : HostKept s (setQueue s lvl unit q) := by
  unfold setQueue
  split <;> exact .of_hif rfl rfl rfl

theorem hostKept_lostAt (s : State) (lvl unit : Nat) : HostKept s (lostAt s lvl unit) := by
  unfold lostAt
  split <;> exact .of_hif rfl rfl rfl

theorem hostKept_enqueue {s t : State} {lvl unit : Nat} {r : ErrRec} (h : enqueue s lvl unit r = some t) : HostKept s t := by
  unfold enqueue at h
  split at h
  · obtain rfl := Option.some.inj h
    exact (hostKept_setQueue s lvl unit _).trans (.ite (hostKept_lostAt _ lvl unit) (.refl _))
  · cases h

theorem hostKept_place (s : State) (r : ErrRec) : HostKept s (place s r) := by
  unfold place
  extract_lets lvl try1 direct _ wait
  have waits : HostKept s wait := .of_hif rfl rfl rfl
  have tried {o : Option State} {k : Unit → State} (h : ∀ t, o = some t → HostKept s t) (hk : HostKept s (k ())) :
      HostKept s (try1 o k) := by
    cases o with
    | none => exact hk
    | some t => exact h t rfl
  have queued {p : Prop} {dec : Decidable p} {lvl unit : Nat} (t : State) (h : (if p then enqueue s lvl unit r else none) = some t) :
      HostKept s t := hostKept_enqueue (Option.ite_none_right_eq_some.mp h).2
  clear_value try1
  refine tried (fun t h => hostKept_stage (Option.ite_none_right_eq_some.mp h).2) ?_
  refine tried queued (.ite waits ?_)
  refine tried queued (.ite waits ?_)
  refine tried (fun _ => hostKept_enqueue) (.ite waits ?_)
  exact tried (fun _ => hostKept_enqueue) waits

theorem hostKept_haltCell (s : State) (c : Nat) : HostKept s (haltCell s c) := .of_hif rfl rfl rfl

theorem hostKept_setAbort (s : State) (mask : Nat) : HostKept s (setAbort s mask) := by
  unfold setAbort
  exact .ite (.of_hif rfl rfl rfl) (.of_hif rfl rfl rfl)

theorem hostKept_noteDone (s : State) : HostKept s s.noteDone := by
  obtain ⟨sht, noted⟩ := noteDone_shape s
  rw [noted]
  exact .of_hif rfl rfl rfl

theorem hostKept_endJob (s : State) (j status : Nat) : HostKept s (endJob s j status) := by
  unfold endJob
  split
  · exact .refl s
  · extract_lets s1 s2 s3 s4
    have h1 : HostKept s s1 := .of_hif rfl rfl rfl
    have h2 : HostKept s s2 := h1.trans (.ite (.foldl hostKept_haltCell _ _) (.refl _))
    have h3 : HostKept s s3 := h2.trans (.of_hif rfl rfl rfl)
    have h4 : HostKept s s4 := h3.trans (.ite (hostKept_setAbort _ _) (.refl _))
    exact .ite (.refl s) (h4.trans (hostKept_noteDone _))

theorem hostKept_endHolders (s : State) (cs : List Nat) : HostKept s (endHolders s cs) :=
  .foldl (fun s (j : Job) => hostKept_endJob s j.id 0x42) _ s

theorem hostKept_chipFatal (s : State) : HostKept s (chipFatal s) :=
  .after (.foldl (fun s (j : Job) => hostKept_endJob s j.id 0x42) _ _)
    ⟨rfl, id, fun _ => rfl, fun _ => rfl, rfl, fun _ => id, fun _ => id, fun _ _ => rfl, fun y mem => ⟨y, mem, .refl y⟩⟩

theorem hostKept_freezeTrace (s : State) (lvl unit : Nat) : HostKept s (freezeTrace s lvl unit) :=
  .ite (.refl s) (.of_hif rfl rfl rfl)

theorem hostKept_raiseAdmitted (s : State) (e : Ev) : HostKept s (raiseAdmitted s e) := by
  unfold raiseAdmitted
  extract_lets now open? sev nested det cs job ends alarm bitsL a coalesced live mine going _ s1 s2 s3 also s4 _ s5 s6 r _ s7
  have h1 : HostKept s s1 := .of_hif rfl rfl rfl
  have h2 : HostKept s s2 := h1.trans ((HostKept.ite (hostKept_endJob _ job 0x42) (.refl _)).trans (hostKept_endHolders _ cs))
  have h3 : HostKept s s3 := h2.trans (.ite (hostKept_chipFatal _) (.refl _))
  have h4 : HostKept s s4 := h3.trans (.ite (hostKept_freezeTrace _ _ _) (.refl _))
  have h5 : HostKept s s5 := h4.trans (by
    unfold s5
    split
    · exact .ite (.of_hif rfl rfl rfl) (.refl _)
    · exact .refl _)
  have h6 : HostKept s s6 := h5.trans (.foldl (fun s b => hostKept_alarmOne _ _ _ s b) _ _)
  have h7 : HostKept s s7 := h6.trans (.ite (.of_hif rfl rfl rfl) (.refl _))
  exact h7.trans (.ite (hostKept_dropped _ 7 1) (hostKept_place _ _))

theorem hostKept_discardLog (s : State) (k : Nat) (e : Ev) : HostKept s (discardLog s k e) := by
  unfold discardLog
  exact (hostKept_dropped s k 1).trans (.ite (.refl _) (.of_hif rfl rfl rfl))

theorem hostKept_raise (s : State) (e : Ev) : HostKept s (raise s e) := by
  unfold raise
  refine .ite (.refl s) (.ite ?_ (hostKept_raiseAdmitted s e))
  refine .ite (hostKept_discardLog s 0 e) (.ite (hostKept_discardLog s 1 e) ?_)
  exact (hostKept_raiseAdmitted _ e).after (.of_hif rfl rfl rfl)

theorem hostKept_raiseChip (s : State) (code sev cls n job : Nat) (det : List Nat) (hist chain : Bool) :
    HostKept s (raiseChip s code sev cls n job det hist chain) := hostKept_raise s _

theorem hostKept_raiseCell (s : State) (code sev unit : Nat) (who : Option Issuer) (items : List Nat) (job : Nat) (ends hist : Bool) :
    HostKept s (raiseCell s code sev unit who items job ends hist) := by
  unfold raiseCell
  cases who <;> exact hostKept_raise s _

end Sys2Proof.Machine
end

section
/-! ### What completions and the end of a job leave of the host interface (R143 to R148, R156, R761) -/

namespace Sys2Proof.Machine

open Sys2Proof

theorem hostKept_hostFail (s : State) (kind ring pos addr : Nat) : HostKept s (hostFail s kind ring pos addr) :=
  (hostKept_raiseChip ..).after (.of_same rfl rfl rfl rfl rfl rfl rfl rfl)

theorem hostKept_dropDesc (s : State) (d : Desc) : HostKept s (dropDesc s d) :=
  ⟨rfl, id, fun _ => rfl, id, rfl, fun _ => id, fun _ => id, fun _ _ => rfl, fun y mem => ⟨y, (List.mem_filter.mp mem).1, .refl y⟩⟩

/-- A descriptor that changes and does not return to where it had not begun. -/
theorem hostKept_updDesc (s : State) (d : Desc) {f : Desc → Desc} (h : ∀ x : Desc, x.follows (f x)) : HostKept s (updDesc s d f) := by
  refine .map_descs _ (fun x _ => ?_) rfl
  split
  · exact h x
  · exact .refl x

theorem hostKept_moderate (s : State) (v : Nat) : HostKept s (moderate s v) := by
  unfold moderate
  exact .ite (hostKept_sendVector s v) (.of_same rfl rfl rfl rfl rfl rfl rfl rfl)

theorem hostKept_recordSent (s : State) (d : Desc) (status detail : Nat) : HostKept (dropDesc s d) (recordSent s d status detail) where
  link := rfl
  refused := id
  msix _ := rfl
  fetch := id
  errEnable := rfl
  staging _ := id
  failed n h := by
    rw [ring_recordSent]
    split_ifs with same
    · subst same; exact h
    · exact h
  state n _ := by
    rw [ring_recordSent]
    split_ifs with same
    · subst same; rfl
    · rfl
  descs y mem := ⟨y, mem, .refl y⟩

/-- Of a ring that is safe no write fails. -/
theorem hostKept_recordFailed {s : State} {d : Desc} (open_ : ¬(s.ring d.ring).cqFailed = true) (link : ¬canWrite s = true) :
    HostKept (dropDesc s d) (recordFailed s d) where
  link := rfl
  refused _ := rfl
  msix _ := rfl
  fetch := id
  errEnable := rfl
  staging _ := id
  failed n h := by
    rw [ring_recordFailed]
    split_ifs
    · rfl
    · exact h
  state n safe := by
    have other : d.ring ≠ n := by
      rintro rfl
      rcases safe with failed | ⟨up, free⟩
      · exact open_ failed
      · exact link (by simp [canWrite, show s.hif.linkUp = true from up, show s.hif.txRefused = false from free])
    rw [ring_recordFailed, if_neg other]
    rfl
  descs y mem := ⟨y, by rwa [descs_recordFailed] at mem, .refl y⟩

theorem hostKept_dropDesc_complete (s : State) (d : Desc) (status detail : Nat) : HostKept (dropDesc s d) (complete s d status detail) := by
  rw [complete_eq]
  split_ifs with failed link
  · exact .refl _
  · exact (hostKept_recordSent ..).trans (hostKept_sendVector ..)
  · exact (hostKept_recordSent ..).trans (hostKept_moderate ..)
  · exact (hostKept_recordFailed failed link).trans (hostKept_hostFail ..)

theorem hostKept_complete (s : State) (d : Desc) (status detail : Nat) : HostKept s (complete s d status detail) :=
  (hostKept_dropDesc s d).trans (hostKept_dropDesc_complete s d status detail)

theorem hostKept_completeNamed (s : State) (d : Desc) (status : Nat) : HostKept s (completeNamed s d status) := by
  unfold completeNamed
  exact .ite (hostKept_updDesc s d fun x => ⟨rfl, rfl, rfl, fun idle => by simp [Desc.unbegun] at idle⟩) (hostKept_complete ..)

theorem hostKept_flushJobs (s : State) : HostKept s (flushJobs s) := by
  refine .foldl (fun s d => ?_) _ s
  split
  · exact .ite (hostKept_complete ..) (.refl s)
  · exact hostKept_completeNamed ..
  · exact .refl s

/-! A job that leaves. -/

/-- A COPY whose job has ended completes with JOB_ENDED, and gives no signal (R145). -/
theorem hostKept_finishCopy_ended (s : State) {d : Desc} (ended : d.ended = true) : HostKept s (finishCopy s d) := by
  unfold finishCopy
  rw [if_pos ended]
  exact .ite (.refl s) (hostKept_complete ..)

theorem hostKept_endDesc (j : Job) (s : State) (d : Desc) : HostKept s (endDesc j s d) := by
  have ending : HostKept s (updDesc s d fun x => { x with ended := true }) := hostKept_updDesc s d fun _ => ⟨rfl, rfl, rfl, fun _ => rfl⟩
  unfold endDesc
  refine .ite (.refl s) ?_
  split
  · exact ending.trans (hostKept_finishCopy_ended _ rfl)
  · exact ending
  · exact .refl s
  · exact hostKept_complete ..

theorem hostKept_takeCells (s : State) (j : Job) : HostKept s (takeCells s j) := by
  refine .foldl ?_ _ s
  intro s c
  exact .ite (.of_hif rfl rfl rfl) (.refl s)

theorem hostKept_clearWritten (s : State) (c : Nat) : HostKept s (clearWritten s c) := .of_hif rfl rfl rfl

theorem hostKept_endClear (s : State) (k : Clear) : HostKept s (endClear s k) := by
  unfold endClear
  exact .ite (.refl s) ((HostKept.foldl hostKept_clearWritten _ _).after (.of_hif rfl rfl rfl))

theorem hostKept_endSave (s : State) (job : Nat) : HostKept s (endSave s job) := by
  unfold endSave
  exact (HostKept.foldl hostKept_endClear _ _).after (.of_hif rfl rfl rfl)

theorem hostKept_surveyChange (s : State) : HostKept s (surveyChange s) := by
  unfold surveyChange
  split
  · exact .refl s
  · exact .ite (.of_hif rfl rfl rfl) (.of_hif rfl rfl rfl)

theorem hostKept_republish (s : State) (gen : Nat) : HostKept s (republish s gen) := by
  refine (hostKept_surveyChange s).trans ?_
  unfold republish checkGrade
  exact .ite ((hostKept_raiseChip ..).after (.of_hif rfl rfl rfl)) (.refl _)

theorem hostKept_fenceBlockPlan (s : State) (b reason : Nat) : HostKept s (fenceBlockPlan s b reason) := by
  unfold fenceBlockPlan
  exact .ite (.refl s) ((hostKept_noteDone _).after (.write (hostKept_endHolders ..) rfl rfl rfl))

theorem hostKept_fenceCellPlan (s : State) (c reason : Nat) : HostKept s (fenceCellPlan s c reason) := by
  unfold fenceCellPlan
  have fenced : HostKept s ((endHolders s [c]).updCellPlan c fun p => { p with reason := reason }).noteDone :=
    (hostKept_noteDone _).after (.write (hostKept_endHolders ..) rfl rfl rfl)
  exact .ite (.refl s) (.ite (fenced.trans (hostKept_fenceBlockPlan ..)) fenced)

theorem hostKept_fenceRegionPlan (s : State) (r reason : Nat) : HostKept s (fenceRegionPlan s r reason) := by
  unfold fenceRegionPlan
  exact .ite (.refl s) ((hostKept_noteDone _).after (.write (hostKept_endHolders ..) rfl rfl rfl))

theorem hostKept_retireGranules (s : State) (c : Nat) : HostKept s (retireGranules s c) := by
  unfold retireGranules
  refine .ite (.refl s) ?_
  extract_lets gs gen s1
  have retired : HostKept s s1 := by
    refine .foldl ?_ gs s
    intro s g
    exact (hostKept_raiseCell ..).after (.of_hif rfl rfl rfl)
  exact .ite (.refl s) (retired.trans ((hostKept_republish ..).after (.ite (hostKept_fenceCellPlan ..) (.refl _))))

theorem hostKept_releaseJob (s : State) (j : Job) (holds : Bool) : HostKept s (releaseJob s j holds) := by
  unfold releaseJob
  extract_lets s1 s2 cancel s3 s4
  have h1 : HostKept s s1 := .foldl (hostKept_endDesc j) _ s
  have h2 : HostKept s s2 := h1.trans (.of_hif rfl rfl rfl)
  have h3 : HostKept s s3 := h2.trans (by
    refine .foldl ?_ _ _
    intro s n
    exact .of_hif rfl rfl rfl)
  have h4 : HostKept s s4 := h3.trans (.ite (hostKept_takeCells ..) (.refl _))
  have saved : HostKept s4 (endSave { s4 with jobs := s4.jobs.filter fun x => x.id != j.id } j.id) :=
    (hostKept_endSave ..).after (.of_hif rfl rfl rfl)
  exact (h4.trans saved).trans (.foldl hostKept_retireGranules _ _)

theorem hostKept_applyRequest (s : State) : HostKept s (applyRequest s) := by
  unfold applyRequest
  split
  · exact .refl s
  · refine .ite (.refl s) (.after ?_ (.of_hif (t := { s with svy := { s.svy with request := none } }) rfl rfl rfl))
    split
    · exact .ite (.refl _) ((hostKept_fenceCellPlan ..).trans (hostKept_republish ..))
    · exact .ite (.refl _) ((hostKept_fenceBlockPlan ..).trans (hostKept_republish ..))
    · exact .ite (.refl _) ((hostKept_fenceRegionPlan ..).trans (hostKept_republish ..))

theorem hostKept_dropJob (s : State) (j : Job) : HostKept s (dropJob s j) :=
  (hostKept_releaseJob ..).trans (hostKept_applyRequest _)

end Sys2Proof.Machine
end

section
/-! ### Ring resets, aborts, moderated interrupts and PCIe reports (R99 to R102, R148, R152, R156) -/

namespace Sys2Proof.Machine

open Sys2Proof

/-! RING_RESET. -/

/-- What a ring's reset does with one descriptor (R156). -/
def resetDesc (n : Nat) (s : State) (d : Desc) : State :=
  if d.ring != n then s
  else match dType d.raw, d.phase with
    | 1, .waiting => match s.jobs.find? fun j => j.ring == n && j.count == d.count with
      | some j => if j.ending.isSome then s else complete (dropJob s j) d 0x41 0
      | none => complete s d 0x41 0
    | 1, .begun => endJob s (dJob d.raw) 0x43
    | _, .fetched => complete s d 0x41 0
    | _, .waiting => complete s d 0x41 0
    | _, _ => s

theorem resetRing_eq (s : State) (n : Nat) : resetRing s n = s.hif.descs.foldl (resetDesc n) (s.updRing n fun r => { r with state := 3 }) := rfl

theorem hostKept_resetDesc (n : Nat) (s : State) (d : Desc) : HostKept s (resetDesc n s d) := by
  unfold resetDesc
  refine .ite (.refl s) ?_
  split
  · split
    · exact .ite (.refl s) ((hostKept_dropJob ..).trans (hostKept_complete ..))
    · exact hostKept_complete ..
  · exact hostKept_endJob ..
  · exact hostKept_complete ..
  · exact hostKept_complete ..
  · exact .refl s

/-- A descriptor that has not begun completes with RING_RESET; a JOB_START is left to its job (R156). -/
theorem resetDesc_unbegun {n : Nat} {d : Desc} (s : State) (mine : d.ring = n) (plain : dType d.raw ≠ 1) (idle : d.unbegun) :
    resetDesc n s d = complete s d 0x41 0 := by
  unfold resetDesc
  rw [if_neg (by simp [mine])]
  rcases idle with fetched | waiting
  · rw [fetched]
    split <;> simp_all
  · rw [waiting]
    split <;> simp_all

/-- No descriptor of this ring and count is on the list. -/
def descGone (s : State) (x : Desc) : Prop := ∀ y ∈ s.hif.descs, ¬(y.ring = x.ring ∧ y.count = x.count)

theorem HostKept.gone {s t : State} {x : Desc} (h : HostKept s t) (gone : descGone s x) : descGone t x := by
  rintro y mem ⟨ring, count⟩
  obtain ⟨w, hw, ring', count', -, -⟩ := h.descs y mem
  exact gone w hw ⟨ring'.trans ring, count'.trans count⟩

theorem descGone_complete (s : State) (d : Desc) (status detail : Nat) : descGone (complete s d status detail) d :=
  (hostKept_dropDesc_complete s d status detail).gone fun _ => not_mem_dropDesc

theorem hostKept_resetDescs (n : Nat) (l : List Desc) (s : State) : HostKept s (l.foldl (resetDesc n) s) := .foldl (hostKept_resetDesc n) l s

theorem descGone_resetDescs {n : Nat} {x : Desc} (mine : x.ring = n) (plain : dType x.raw ≠ 1) (idle : x.unbegun) {l : List Desc}
    (mem : x ∈ l) (s : State) : descGone (l.foldl (resetDesc n) s) x := by
  induction l generalizing s with
  | nil => cases mem
  | cons d l ih =>
    rw [List.foldl_cons]
    rcases List.mem_cons.mp mem with rfl | later
    · rw [resetDesc_unbegun s mine plain idle]
      exact (hostKept_resetDescs n l _).gone (descGone_complete s _ 0x41 0)
    · exact ih later _

theorem ringReset_law {n : Nat} {s : State} (safe : ringSafe s n) : ((resetRing s n).ring n).state = 3 ∧
    ∀ y ∈ (resetRing s n).hif.descs, y.ring = n → dType y.raw ≠ 1 → ¬y.unbegun := by
  have stopped : (s.updRing n fun r => { r with state := 3 }).ring n = { s.ring n with state := 3 } := by
    rw [State.ring_updRing, if_pos rfl]
  have kept := hostKept_resetDescs n s.hif.descs (s.updRing n fun r => { r with state := 3 })
  rw [resetRing_eq]
  refine ⟨?_, fun y mem mine plain idle => ?_⟩
  · have still : ringSafe (s.updRing n fun r => { r with state := 3 }) n := by
      rw [ringSafe, stopped]
      exact safe
    rw [kept.state n still, stopped]
  · obtain ⟨x, hx, ring, count, raw, phase⟩ := kept.descs y mem
    have same := phase idle
    have idle' : x.unbegun := by rwa [Desc.unbegun, same]
    exact descGone_resetDescs (ring.trans mine) (by rwa [raw]) idle' hx _ y mem ⟨ring.symm, count.symm⟩

/-! HIF_JOB_ABORT. -/

/-- `t` is `s` after jobs began to end: what else stands. -/
def onlyJobsEnd (s t : State) : Prop := { t with jobs := s.jobs, cells := s.cells, reds := s.reds, grp := s.grp, sht := s.sht } = s

namespace onlyJobsEnd

theorem refl (s : State) : onlyJobsEnd s s := rfl

theorem trans {s t u : State} (h : onlyJobsEnd s t) (k : onlyJobsEnd t u) : onlyJobsEnd s u :=
  (congrArg (fun x : State => { x with jobs := s.jobs, cells := s.cells, reds := s.reds, grp := s.grp, sht := s.sht }) k :).trans h

theorem ite {s t u : State} {p : Prop} {dec : Decidable p} (h : onlyJobsEnd s t) (k : onlyJobsEnd s u) :
    onlyJobsEnd s (if p then t else u) := by
  split
  · exact h
  · exact k

theorem haltCells (cs : List Nat) (s : State) : onlyJobsEnd s (cs.foldl haltCell s) := by
  induction cs generalizing s with
  | nil => exact refl s
  | cons c cs ih => exact trans (t := haltCell s c) rfl (ih _)

theorem setAbort (s : State) (mask : Nat) : onlyJobsEnd s (setAbort s mask) := by
  unfold Machine.setAbort
  split_ifs <;> exact rfl

theorem noteDone (s : State) : onlyJobsEnd s s.noteDone := by
  obtain ⟨sht, noted⟩ := noteDone_shape s
  rw [noted]
  exact rfl

theorem endJob (s : State) (j status : Nat) : onlyJobsEnd s (endJob s j status) := by
  unfold Machine.endJob
  split
  · exact refl s
  · extract_lets s1 s2 s3 s4
    have h1 : onlyJobsEnd s s1 := rfl
    have h2 : onlyJobsEnd s s2 := h1.trans (.ite (haltCells ..) (.refl _))
    have h3 : onlyJobsEnd s s3 := h2.trans rfl
    have h4 : onlyJobsEnd s s4 := h3.trans (.ite (setAbort ..) (.refl _))
    exact .ite (.refl s) (h4.trans (noteDone _))

end onlyJobsEnd

theorem hifJobAbort_law {v : Nat} {s : State} {j : Job} (found : s.job? (v % 65536) = some j) (going : j.ending = none) :
    let t := endJob s (v % 65536) 0x43
    (∃ k, t.job? (v % 65536) = some k ∧ k.ending = some ⟨0x43, 0⟩ ∧ { k with ending := none } = j) ∧
    (∀ m, m ≠ v % 65536 → t.job? m = s.job? m) ∧
    { t with jobs := s.jobs, cells := s.cells, reds := s.reds, grp := s.grp, sht := s.sht } = s := by
  intro t
  refine ⟨⟨{ j with ending := some ⟨0x43, 0⟩ }, ?_, rfl, ?_⟩, fun m other => ?_, ?_⟩
  · rw [job?_endJob, if_pos rfl, found, Option.map_some, going, Option.getD_none]
  · rw [← going]
  · rw [job?_endJob, if_neg other]
  · exact onlyJobsEnd.endJob s (v % 65536) 0x43

/-! MSIX_MOD_TIMEOUT and the PCIe events. -/

/-- A vector that is due leaves, or pends while masked (R148). -/
theorem sendVector_law {s : State} (v : Nat) (up : s.hif.linkUp = true) : let t := sendVector s v
    (sget ({} : Mod) t.hif.mods v).pending = 0 ∧ t.clk = s.clk ∧
    (if (sget ({} : Msix) s.hif.msix v).masked then (sget ({} : Msix) t.hif.msix v).pend = true ∧ t.out = s.out
     else t.hif.msix = s.hif.msix ∧ t.out = s.out ++ [.msix v]) := by
  cases masked : (sget ({} : Msix) s.hif.msix v).masked <;> simp [sendVector, up, masked, State.emit]

theorem untilPs_ps (s : State) (t : Nat) : (s.untilPs t).clk.ps = max s.clk.ps t := by
  change s.clk.ps + (t - s.clk.ps) = _
  omega

/-- A vector that is sent when it is due. -/
theorem sendVector_untilPs {s : State} (v due : Nat) (up : s.hif.linkUp = true) : let t := sendVector (s.untilPs due) v
    (sget ({} : Mod) t.hif.mods v).pending = 0 ∧ t.clk.ps = max s.clk.ps due ∧
    (if (sget ({} : Msix) s.hif.msix v).masked then (sget ({} : Msix) t.hif.msix v).pend = true ∧ t.out = s.out
     else t.hif.msix = s.hif.msix ∧ t.out = s.out ++ [.msix v]) := by
  obtain ⟨none, clk, sent⟩ := sendVector_law (s := s.untilPs due) v up
  exact ⟨none, by rw [clk, untilPs_ps], sent⟩

theorem msixModTimeout_eq {v : Nat} {s : State} (timed : (sget ({} : Mod) s.hif.mods v).time ≠ 0)
    (pending : (sget ({} : Mod) s.hif.mods v).pending ≠ 0) : exec (.msixModTimeout v) s =
      .next (sendVector (s.untilPs ((sget ({} : Mod) s.hif.mods v).oldest + (sget ({} : Mod) s.hif.mods v).time * 1000000)) v) := by
  change execMsixModTimeout v s = _
  unfold execMsixModTimeout
  dsimp only
  rw [if_neg (by simp [timed, pending])]

/-- Settles O37. That the host has enabled MSI-X is taken for granted (log entry 8); that a JOB_START not begun whose job's end is known
already waits for that end at a ring's reset is the model's choice (log entry 40). -/
theorem ringsAbortsAndInterrupts : Obligations.RingsAbortsAndInterrupts := by
  refine ⟨?_, ?_, ?_, ?_, ?_, ?_, ?_⟩
  · intro n s reach small other safe
    obtain ⟨state, gone⟩ := ringReset_law safe
    refine ⟨resetRing s n, ?_, state, fun d mem mine plain => ?_⟩
    · change execRingReset n s = _
      rw [execRingReset, if_neg (by simp [reach, other]; omega)]
    · exact not_or.mp (gone d mem mine plain)
  · intro n s resetting idle
    refine ⟨s.updRing n fun r => { r with
      state := 0, enable := false, sqCi := 0, cqPi := 0, sqPi := 0, cqCi := 0, cqFailed := false }, ?_, ?_, fun m diff => ?_, rfl⟩
    · change execRingResetDone n s = _
      rw [execRingResetDone, if_neg (by simpa [resetting] using idle)]
    · rw [State.ring_updRing, if_pos rfl]
    · rw [State.ring_updRing, if_neg (Ne.symm diff)]
  · intro v s j reach go found going
    obtain ⟨⟨k, left, status, same⟩, others, rest⟩ := hifJobAbort_law found going
    refine ⟨endJob s (v % 65536) 0x43, k, ?_, left, status, same, others, rest⟩
    change execHifJobAbort v s = _
    rw [execHifJobAbort, if_neg (by simp [reach, go])]
  · intro v s m timed pending up
    exact ⟨_, msixModTimeout_eq timed pending, sendVector_untilPs v _ up⟩
  · intro w a n h s wide
    change execUnsupportedRequest w a ⟨n, h⟩ s = _
    rw [execUnsupportedRequest, if_pos (by simpa [or_assoc] using wide)]
  · intro w rate ecrc s up
    refine ⟨fun lanes fast => ?_, fun low => ?_⟩
    · change execPcieLinkUp w ⟨rate, ecrc⟩ s = _
      have full : (decide (w < 16) || decide (rate < 64)) = false := by simp [lanes, fast]
      unfold execPcieLinkUp
      dsimp only
      rw [full]
      rfl
    · change execPcieLinkUp w ⟨rate, ecrc⟩ s = _
      have short : (decide (w < 16) || decide (rate < 64)) = true := by simpa using low
      unfold execPcieLinkUp
      dsimp only
      rw [short]
      rfl
  · intro a b c d s
    refine ⟨fun on => ?_, fun off => ?_⟩
    · change execEcrcMismatch a b c d s = _
      rw [execEcrcMismatch, if_neg (by simp [on])]
    · change execEcrcMismatch a b c d s = _
      rw [execEcrcMismatch, if_pos (by simp [off])]

end Sys2Proof.Machine
end

section
/-! ### Registers read and written (R149, R150, R713, R714, R725 to R731) -/

namespace Sys2Proof.Machine

open Sys2Proof

/-! Reads. -/

/-- An aligned read of 4 bytes is one read of a register. -/
theorem readSpan_word {a : Nat} (s : State) (aligned : a % 4 = 0) :
    readSpan s a 4 = (leBytes 4 (readReg s a false).1, (readReg s a false).2) := by
  have first : a / 4 * 4 = a := by omega
  have one : cdiv 4 4 = 1 := rfl
  simp [readSpan, aligned, first, one, slice_self (leBytes_length 4 _)]

theorem gatedRead_word {a v : Nat} {s t : State} (aligned : a % 4 = 0) (read : readReg s a false = (v, t)) :
    exec (.gatedRead ⟨0, a, 4⟩) s = .next (t.emit (.readValue a (v % 2 ^ 32))) := by
  change execGatedRead ⟨0, a, 4⟩ s = _
  unfold execGatedRead
  dsimp only
  rw [if_neg (by simp; omega), if_neg (by decide), readSpan_word s aligned, read]
  dsimp only
  rw [leNat_leBytes, show 256 ^ 4 = 2 ^ 32 from rfl]

theorem readReg_dead {s : State} {a : Nat} (sb : Bool) (dead : reach s a = .dead) : readReg s a sb = (0, s) := by
  unfold readReg
  rw [dead]
  exact ite_self _

theorem readReg_gated {s : State} {a : Nat} (sb : Bool) (aligned : a % 4 = 0) (gated : reach s a = .gated) :
    readReg s a sb = (0, if holdsValue a then { s with hif := { s.hif with gatedRead := true } } else s) := by
  unfold readReg
  rw [gated, if_neg (by simp [aligned])]

/-- The state in which a register's value is read: a cairn's master copy is checked first (R491). -/
def readFrom (s : State) (a : Nat) : State := if 0xA1000 ≤ a ∧ a < 0xA5000 then scanMaster s ((a - 0xA1000) / 4) else s

theorem readReg_open {s : State} {a : Nat} (sb : Bool) (aligned : a % 4 = 0) (open_ : reach s a = .open_)
    (plain : a % 16 ≠ 8 ∨ counterLevel (a - 8) = none) : readReg s a sb = (regValue (readFrom s a) a sb, readFrom s a) := by
  have from_ : (if (decide (0xA1000 ≤ a) && decide (a < 0xA5000)) = true then scanMaster s ((a - 0xA1000) / 4) else s) = readFrom s a := by
    simp [readFrom]
  have quiet : ¬(a % 16 == 8 && (counterLevel (a - 8)).isSome) = true := by
    rcases plain with h | h <;> simp [h]
  unfold readReg
  rw [open_, if_neg (by simp [aligned])]
  dsimp only
  rw [from_, if_neg quiet]

theorem gatedRead_refused {bar a len : Nat} (s : State) (h : len = 0 ∨ 64 < len ∨ 4096 < a % 4096 + len) :
    exec (.gatedRead ⟨bar, a, len⟩) s = .next s := by
  change execGatedRead ⟨bar, a, len⟩ s = _
  unfold execGatedRead
  dsimp only
  rw [if_pos (by simpa [or_assoc] using h)]

section

variable {a len : Nat} {s : State} (some_ : 0 < len) (short : len ≤ 64) (page : a % 4096 + len ≤ 4096)
include some_ short page

theorem gatedRead_window (up : s.up 0 = true) :
    exec (.gatedRead ⟨4, a, len⟩) s = .next (s.emit (.windowValue a (Ram.read s.sec.window a len))) := by
  change execGatedRead ⟨4, a, len⟩ s = _
  unfold execGatedRead
  dsimp only
  rw [if_neg (by simp; omega), if_pos (by decide), if_pos up]

/-- A read of several words answers a value of its length: one command (log entry 62). -/
theorem gatedRead_span : ∃ (t : State) (v : Nat), exec (.gatedRead ⟨0, a, len⟩) s = .next t ∧
    t.out.getLast? = some (.readValue a v) ∧ v < 2 ^ (8 * len) := by
  refine ⟨(readSpan s a len).2.emit (.readValue a (leNat (readSpan s a len).1)), leNat (readSpan s a len).1, ?_, ?_, ?_⟩
  · change execGatedRead ⟨0, a, len⟩ s = _
    unfold execGatedRead
    dsimp only
    rw [if_neg (by simp; omega), if_neg (by decide)]
  · simp [State.emit]
  · have length : (readSpan s a len).1.length = len := slice_length ..
    have bound := leNat_lt (readSpan s a len).1
    rw [length] at bound
    rwa [Nat.pow_mul]

end

/-! Writes. -/

theorem writeWord_ignored {s : State} {a v e : Nat} (h : a % 4 ≠ 0 ∨ e ≠ 15 ∨ reach s a = .dead) : writeWord s a v e = s := by
  unfold writeWord
  rw [if_pos (by simpa [or_assoc] using h)]

theorem writeWord_reached {s : State} {a e : Nat} (v : Nat) (aligned : a % 4 = 0) (full : e = 15) (reached : reach s a ≠ .dead) :
    writeWord s a v e = writeAt s a v := by
  unfold writeWord
  rw [if_neg (by simp [aligned, full, reached])]

theorem registerWrite_eq (s : State) (a v e : Nat) : exec (.registerWrite a v e) s =
    .next (writeWord (writeWord s a (v % 2 ^ 32) (e % 16)) (a + 4) (v / 2 ^ 32 % 2 ^ 32) (e / 16)) := rfl

/-- Byte enables within 4 bytes make one write. -/
theorem registerWrite_one {e : Nat} (s : State) (a v : Nat) (h : e < 16) :
    exec (.registerWrite a v e) s = .next (writeWord s a (v % 2 ^ 32) e) := by
  rw [registerWrite_eq, Nat.mod_eq_of_lt h, writeWord_ignored (.inr (.inl (by omega)))]

theorem writeAt_scratch (s : State) (v : Nat) : writeAt s 0x14 v = { s with scratch := BitVec.ofNat 32 v } := rfl

theorem reach_scratch {s : State} (up : s.up 0 = true) : reach s 0x14 = .open_ := by
  simp [reach, datumReach, up]

/-! The counters. -/

theorem monSelWrite_eq {a level : Nat} {s : State} (v : Nat) (sb : Bool) (counter : counterLevel a = some level) (reached : reach s a ≠ .dead) :
    exec (.monSelWrite a v sb) s = if selAllowed a (v % 4096) level sb = true
      then .next (updCounter s a fun c => { c with pend := some (v % 4096) })
      else .next { s with mon := { s.mon with selRej := true } } := by
  change execMonSelWrite a v sb s = _
  unfold execMonSelWrite
  rw [counter]
  dsimp only
  rw [if_neg reached]

theorem counter_updCounter (s : State) (a b : Nat) (f : Counter → Counter) : sget ({} : Counter) (updCounter s a f).mon.counters b =
    if a = b then f (sget ({} : Counter) s.mon.counters a) else sget ({} : Counter) s.mon.counters b := sget_supd ..

theorem monSnapLoRead_eq {a level : Nat} {s : State} (sb : Bool) (counter : counterLevel a = some level) (open_ : reach s a = .open_) :
    exec (.monSnapLoRead a sb) s = .next ((latchHigh s a sb).emit
      (if sb then .reply (leBytes 4 (snapLow s a sb)) else .readValue (a + 8) (snapLow s a sb))) := by
  change execMonSnapLoRead a sb s = _
  unfold execMonSnapLoRead
  rw [counter, open_]

/-- A read that shows a counter latches its high bits for the reader (R714). -/
theorem latchHigh_shown {a : Nat} {sb : Bool} (s : State) (shown : hiddenCounter a sb = false) : latchHigh s a sb = updCounter s a fun c =>
    if sb then { c with hiSb := c.snap / 2 ^ 32 % 65536 } else { c with hiHost := c.snap / 2 ^ 32 % 65536 } := by
  unfold latchHigh
  rw [if_neg (by simp [shown])]

theorem latchHigh_hidden {a : Nat} {sb : Bool} (s : State) (hidden : hiddenCounter a sb = true) : latchHigh s a sb = s := by
  unfold latchHigh
  rw [if_pos hidden]

theorem snapLow_shown {a : Nat} {sb : Bool} (s : State) (shown : hiddenCounter a sb = false) :
    snapLow s a sb = (sget ({} : Counter) s.mon.counters a).snap % 2 ^ 32 := by
  unfold snapLow
  rw [if_neg (by simp [shown])]

/-- Only the host has counters hidden from it (R716). -/
theorem hiddenCounter_host {a : Nat} {sb : Bool} (hidden : hiddenCounter a sb = true) : sb = false := by
  simpa using (Bool.and_eq_true_iff.mp hidden).2

/-! D3hot. -/

/-- Steps that only tell the stacks something. -/
theorem foldl_emit {α : Type} (f : α → Out) (l : List α) (s : State) :
    l.foldl (fun s n => s.emit (f n)) s = { s with out := s.out ++ l.map f } := by
  induction l generalizing s with
  | nil => simp
  | cons x l ih =>
    rw [List.foldl_cons, ih]
    simp [State.emit]

theorem d3hotTransition_eq {enter : Bool} {s : State} (other : s.hif.d3hot ≠ enter) : ∃ out, exec (.d3hotTransition enter) s =
    .next { s with hif := { s.hif with d3hot := enter }, out } := by
  change ∃ out, execD3hotTransition enter s = _
  unfold execD3hotTransition
  rw [if_neg (by simp [other])]
  dsimp only
  rw [foldl_emit fun n => .stack n (.selfRefresh enter)]
  exact ⟨_, rfl⟩

end Sys2Proof.Machine
end

section
/-! ### PCIE_HOT_RESET (R652) -/

namespace Sys2Proof.Machine

open Sys2Proof

/-- The host interface after a hot reset of `s`, and on the way to its end: no link, no MSI-X entry, no fetch, no error ring. -/
structure HotReset (s t : State) : Prop where
  link : t.hif.linkUp = false
  msix : t.hif.msix = []
  fetch : t.hif.fetchEn = false
  errEnable : t.err.enable = false
  staging : s.err.enable = true → t.err.staging = []

theorem HotReset.kept {s t u : State} (h : HotReset s t) (k : HostKept t u) : HotReset s u where
  link := k.link.trans h.link
  msix := (k.msix h.link).trans h.msix
  fetch := k.fetch h.fetch
  errEnable := k.errEnable.trans h.errEnable
  staging on := k.staging h.errEnable (h.staging on)

theorem HotReset.updRing {s t : State} (h : HotReset s t) (n : Nat) (f : Ring → Ring) : HotReset s (t.updRing n f) :=
  ⟨h.link, h.msix, h.fetch, h.errEnable, h.staging⟩

/-- A ring resets, with its completions discarded. -/
def ringDown (s : State) (n : Nat) : Prop := (s.ring n).cqFailed = true ∧ (s.ring n).state = 3

theorem ringDown.kept {s t : State} {n : Nat} (h : ringDown s n) (k : HostKept s t) : ringDown t n :=
  ⟨k.failed n h.1, (k.state n (.inl h.1)).trans h.2⟩

/-- One ring's reset at a hot reset. -/
def hotRing (s : State) (n : Nat) : State := resetRing (s.updRing n fun r => { r with cqFailed := true }) n

/-- The ring as its reset begins, its completions given up. -/
def hotBegun (s : State) (n : Nat) : State := (s.updRing n fun r => { r with cqFailed := true }).updRing n fun r => { r with state := 3 }

theorem hostKept_hotRing (s : State) (n : Nat) : HostKept (hotBegun s n) (hotRing s n) := hostKept_resetDescs ..

theorem ring_hotBegun (s : State) (n k : Nat) : (hotBegun s n).ring k =
    if n = k then { s.ring n with cqFailed := true, state := 3 } else s.ring k := by
  unfold hotBegun
  split_ifs with same
  · subst same; simp
  · simp [same]

theorem ringDown_hotRing (s : State) (n : Nat) : ringDown (hotRing s n) n := by
  have begun : ringDown (hotBegun s n) n := by
    rw [ringDown, ring_hotBegun, if_pos rfl]
    exact ⟨rfl, rfl⟩
  exact begun.kept (hostKept_hotRing s n)

theorem ringDown.hotRing {s : State} {n : Nat} (h : ringDown s n) (k : Nat) : ringDown (hotRing s k) n := by
  have begun : ringDown (hotBegun s k) n := by
    rw [ringDown, ring_hotBegun]
    split_ifs
    · exact ⟨rfl, rfl⟩
    · exact h
  exact begun.kept (hostKept_hotRing s k)

theorem HotReset.hotRing {s t : State} (h : HotReset s t) (n : Nat) : HotReset s (hotRing t n) :=
  ((h.updRing n _).updRing n _).kept (hostKept_hotRing t n)

theorem HotReset.hotRings {s t : State} (h : HotReset s t) (l : List Nat) : HotReset s (l.foldl Machine.hotRing t) := by
  induction l generalizing t with
  | nil => exact h
  | cons n l ih => exact ih (h.hotRing n)

theorem ringDown.hotRings {s : State} {n : Nat} (h : ringDown s n) (l : List Nat) : ringDown (l.foldl Machine.hotRing s) n := by
  induction l generalizing s with
  | nil => exact h
  | cons k l ih => exact ih (h.hotRing k)

theorem ringDown_hotRings {n : Nat} {l : List Nat} (mem : n ∈ l) (s : State) : ringDown (l.foldl hotRing s) n := by
  induction l generalizing s with
  | nil => cases mem
  | cons k l ih =>
    rcases List.mem_cons.mp mem with rfl | later
    · exact (ringDown_hotRing s n).hotRings l
    · exact ih later _

/-- What a map reads other than its default stands in it. -/
theorem mem_of_sget {α : Type} {d : α} {m : Sparse α} {i : Nat} (h : sget d m i ≠ d) : (i, sget d m i) ∈ m := by
  induction m with
  | nil => exact absurd rfl h
  | cons e m ih =>
    obtain ⟨k, v⟩ := e
    by_cases same : i = k
    · subst same
      simp [sget]
    · simp only [sget, beq_iff_eq, same, if_false] at h ⊢
      exact .tail _ (ih h)

/-- The rings that a hot reset resets. -/
def enabledRings (s : State) : List Nat := (s.hif.rings.filter fun e => e.2.enable).map (·.1)

theorem mem_enabledRings {s : State} {n : Nat} (h : (s.ring n).enable = true) : n ∈ enabledRings s := by
  refine List.mem_map.mpr ⟨(n, s.ring n), List.mem_filter.mpr ⟨mem_of_sget fun none => ?_, h⟩, rfl⟩
  rw [State.ring, none] at h
  cases h

/-- The state as the rings' resets begin. -/
def hotBegin (s : State) : State :=
  let s := if s.err.enable then discardStaged s else s
  { s with hif := { s.hif with linkUp := false, msix := [], fetchEn := false, d3hot := false, txRefused := false, ecrc := false } }

theorem hotBegin_law (s : State) : HotReset s (hotBegin s) ∧ (hotBegin s).hif.rings = s.hif.rings := by
  cases on : s.err.enable <;> refine ⟨⟨rfl, rfl, rfl, ?_, ?_⟩, ?_⟩ <;> simp [hotBegin, on, discardStaged, dropped]

theorem pcieHotReset_eq (s : State) : exec .pcieHotReset s = .next (flushJobs ((enabledRings (hotBegin s)).foldl hotRing (hotBegin s))) := by
  rw [enabledRings, List.foldl_map]
  rfl

theorem pcieHotReset_law (s : State) : ∃ t : State, exec .pcieHotReset s = .next t ∧ HotReset s t ∧
    ∀ n, (s.ring n).enable = true → ringDown t n := by
  obtain ⟨begun, rings⟩ := hotBegin_law s
  have flushed := hostKept_flushJobs ((enabledRings (hotBegin s)).foldl hotRing (hotBegin s))
  refine ⟨_, pcieHotReset_eq s, (begun.hotRings _).kept flushed, fun n on => ?_⟩
  have mem : n ∈ enabledRings (hotBegin s) := by
    rw [enabledRings, rings]
    exact mem_enabledRings on
  exact (ringDown_hotRings mem _).kept flushed

/-- Settles O50. That GATED_READ is set only where the register holds a value, and that a read of several words is one command, are the
model's reading of R150 and R726 (log entry 62). -/
theorem registersReadAndWriteWhatIsReached : Obligations.RegistersReadAndWriteWhatIsReached := by
  refine ⟨?_, ?_, ?_, ?_, ?_, ?_, ?_⟩
  · intro a s aligned u
    refine ⟨fun dead => ?_, fun gated => ?_, fun open_ plain => ?_⟩
    · have read := gatedRead_word aligned (readReg_dead false dead)
      rwa [Nat.zero_mod] at read
    · have read := gatedRead_word aligned (readReg_gated false aligned gated)
      rwa [Nat.zero_mod] at read
    · exact gatedRead_word aligned (readReg_open false aligned open_ plain)
  · intro bar a len s
    exact ⟨gatedRead_refused s, fun some_ short page up => ⟨gatedRead_window some_ short page up, gatedRead_span some_ short page⟩⟩
  · intro a v e s small
    refine ⟨fun h => ?_, fun aligned full reached => ?_, fun full up => ?_⟩
    · rw [registerWrite_one s a v small, writeWord_ignored h]
    · rw [registerWrite_one s a v small, writeWord_reached _ aligned full reached]
    · have open_ := reach_scratch up
      refine ⟨{ s with scratch := BitVec.ofNat 32 v }, ?_, rfl, BitVec.toNat_ofNat .., rfl⟩
      rw [registerWrite_one s _ v small, writeWord_reached _ rfl full (by simp [open_]), writeAt_scratch]
      congr 2
      exact BitVec.eq_of_toNat_eq (by simp)
  · intro a v e s small
    refine ⟨writeWord s a (v % 2 ^ 32) (e % 16), registerWrite_one s a v (Nat.mod_lt _ (by decide)), ?_⟩
    rw [registerWrite_eq, registerWrite_one _ _ _ (by omega)]
  · intro a v level sb s counter reached c
    refine ⟨fun allowed => ?_, fun refused => ?_, fun open_ shown => ?_, fun open_ hidden => ?_⟩
    · refine ⟨updCounter s a fun c => { c with pend := some (v % 4096) }, ?_, ?_, fun b other => ?_, rfl⟩
      · rw [monSelWrite_eq v sb counter reached, if_pos allowed]
      · rw [counter_updCounter, if_pos rfl]
      · rw [counter_updCounter, if_neg (Ne.symm other)]
    · rw [monSelWrite_eq v sb counter reached, if_neg (by simp [refused])]
    · refine ⟨_, monSnapLoRead_eq sb counter open_, ?_, ?_, ?_⟩
      all_goals rw [latchHigh_shown s shown]
      · rw [snapLow_shown s shown]
        rfl
      · exact (counter_updCounter ..).trans (if_pos rfl)
      · rfl
    · obtain rfl := hiddenCounter_host hidden
      refine ⟨_, monSnapLoRead_eq false counter open_, ?_, ?_⟩
      all_goals rw [latchHigh_hidden s hidden]
      · rw [snapLow, if_pos hidden]
        rfl
      · rfl
  · intro enter s other
    obtain ⟨out, moved⟩ := d3hotTransition_eq other
    exact ⟨_, moved, rfl, rfl⟩
  · intro s
    obtain ⟨t, ran, ⟨link, msix, fetch, errEnable, staging⟩, down⟩ := pcieHotReset_law s
    exact ⟨t, ran, link, msix, fetch, errEnable, staging, fun _ n on => (down n on).2⟩

end Sys2Proof.Machine
end

section
/-! ### What the issue of an instruction leaves (R162, R167, R712, R718) -/

namespace Sys2Proof.Machine

open Sys2Proof

/-- `t` is `s` but for what trace records and events write: trace buffers, event counts and the counts of dropped records. -/
structure Traced (s t : State) : Prop where
  rest : { t with regions := s.regions, mon := s.mon, err := s.err } = s
  region : ∀ r, { t.region r with
    trace := (s.region r).trace, trcSeq := (s.region r).trcSeq, trcDropped := (s.region r).trcDropped } = s.region r
  err : { t.err with drops := s.err.drops } = s.err
  mon : { t.mon with counters := s.mon.counters } = s.mon

theorem Traced.refl (s : State) : Traced s s := ⟨rfl, fun _ => rfl, rfl, rfl⟩

theorem Traced.trans {s t u : State} (h : Traced s t) (k : Traced t u) : Traced s u where
  rest := (congrArg (fun x : State => { x with regions := s.regions, mon := s.mon, err := s.err }) k.rest).trans h.rest
  region r := (congrArg (fun x : RegionSt => { x with
    trace := (s.region r).trace, trcSeq := (s.region r).trcSeq, trcDropped := (s.region r).trcDropped }) (k.region r)).trans (h.region r)
  err := (congrArg (fun x : Err => { x with drops := s.err.drops }) k.err).trans h.err
  mon := (congrArg (fun x : Mon => { x with counters := s.mon.counters }) k.mon).trans h.mon

theorem Traced.cell {s t : State} (h : Traced s t) (c : Nat) : t.cell c = s.cell c := (congrArg (State.cell · c) h.rest :)

theorem traced_count (s : State) (code : Nat) (cell block region : Option Nat) (n : Nat) :
    Traced s (s.count code cell block region n) := ⟨rfl, fun _ => rfl, rfl, rfl⟩

theorem traced_dropped (s : State) (k n : Nat) : Traced s (dropped s k n) := ⟨rfl, fun _ => rfl, rfl, rfl⟩

/-- A region whose trace buffer alone changes. -/
theorem traced_updRegion (s : State) (r : Nat) {f : RegionSt → RegionSt}
    (h : ∀ y, { f y with trace := y.trace, trcSeq := y.trcSeq, trcDropped := y.trcDropped } = y) : Traced s (s.updRegion r f) := by
  refine ⟨rfl, fun q => ?_, rfl, rfl⟩
  rw [State.region_updRegion]
  split_ifs with here
  · subst here
    exact h _
  · rfl

theorem traced_traceRec (s : State) (r kind unit : Nat) (p : List Nat) : Traced s (traceRec s r kind unit p) := by
  unfold traceRec
  dsimp only
  split_ifs
  · exact .refl s
  · exact traced_updRegion s r fun _ => rfl
  · exact traced_updRegion s r fun _ => rfl
  · refine .trans (.trans ?_ (traced_count ..)) (traced_dropped ..)
    exact traced_updRegion s r fun _ => rfl

/-- The ISSUE record and the count of the cell's issues. -/
theorem traced_traceIssue (s : State) (c : Nat) (who : Issuer) :
    Traced (s.updMisc c fun m => { m with issues := (m.issues + 1) % 32768 }) (traceIssue s c who) := by
  have counted : (s.updMisc c fun m => { m with issues := ((s.cell c).misc.issues + 1) % 32768 }) =
      s.updMisc c fun m => { m with issues := (m.issues + 1) % 32768 } := rfl
  unfold traceIssue
  dsimp only
  rw [counted]
  split_ifs
  · exact traced_traceRec ..
  · exact .refl _

theorem strike_nil (s : State) (c : Nat) (j : Job) (i : Ins) (o : Opnds) (who : Issuer) : strike s c j i o who [] = s := by
  unfold strike
  split_ifs <;> rfl

/-- The cell's stream index and issue count move on, and the issue is noted. -/
def movedOn (s : State) (c : Nat) (work : Bool) : State :=
  (advance s c work).updMisc c fun m => { m with issues := (m.issues + 1) % 32768 }

theorem cell_movedOn (s : State) (c : Nat) (work : Bool) (d : Nat) : (movedOn s c work).cell d = if d = c then
    { s.cell c with
      seq := { (s.cell c).seq with index := (s.cell c).seq.index + 1, issued := (s.cell c).seq.issued || work }
      misc := { (s.cell c).misc with issues := ((s.cell c).misc.issues + 1) % 32768 } }
    else s.cell d := by
  by_cases h : d = c
  · simp [movedOn, advance, h]
  · simp [movedOn, advance, h, Ne.symm h]

/-- Beside the stream's move, an issue without a physical fault leaves traces and counts alone (R167, R718). -/
theorem traced_issued (s : State) (x : Ctx) :
    Traced (movedOn s x.c (isWork x.i.op && !skippedWhole s x.c x.o)) (issued s x []) := by
  set work := isWork x.i.op && !skippedWhole s x.c x.o
  unfold issued
  rw [strike_nil]
  have counted : Traced (movedOn s x.c work) (((advance s x.c work).countCell 0x002 x.c 1).updMisc x.c fun m =>
      { m with issues := (m.issues + 1) % 32768 }) := traced_count ..
  exact counted.trans (traced_traceIssue ..)

/-- Settles O4. -/
theorem issueMovesTheStreamOn : Obligations.IssueMovesTheStreamOn := by
  unfold Obligations.IssueMovesTheStreamOn
  intro op c s x ready
  obtain ⟨-, -, -, rfl, rfl, -⟩ := readyCtx_some rfl ready
  have moved := traced_issued s x
  refine ⟨fun d => (moved.cell d).trans (cell_movedOn ..), ?_, moved.region, moved.err, moved.mon⟩
  exact congrArg (fun t : State => { t with cells := s.cells }) moved.rest

end Sys2Proof.Machine
end

section
/-! ### The scalar instructions (R171, R174, R182 to R186) -/

namespace Sys2Proof.Machine

open Sys2Proof

/-! What a write of an extent or a predicate leaves. -/

theorem block_setExt (s : State) (b n v d : Nat) : (setExt s b n v).block d =
    if b = d then { s.block b with extents := sset (0 : Word) (s.block b).extents n (BitVec.ofNat 32 v) } else s.block d :=
  State.block_updBlock ..

theorem extOf_setExt (s : State) (c n : Nat) {v : Nat} (small : v < 2 ^ 32) (k : Nat) :
    extOf (setExt s (blockIndex c) n v) c k = if k = n then v else extOf s c k := by
  rw [extOf, block_setExt, if_pos rfl, sget_sset, extOf]
  by_cases h : k = n
  · rw [if_pos h.symm, if_pos h, BitVec.toNat_ofNat, Nat.mod_eq_of_lt small]
  · rw [if_neg (Ne.symm h), if_neg h]

theorem predOf_setExt (s : State) (b n v c k : Nat) : predOf (setExt s b n v) c k = predOf s c k := by
  rw [predOf, block_setExt]
  split_ifs with h
  · subst h
    rfl
  · rfl

theorem extentSet_setExt (s : State) (c n : Nat) {v : Nat} (small : v < 2 ^ 32) :
    ExtentSet s (setExt s (blockIndex c) n v) c n v :=
  ⟨extOf_setExt s c n small, predOf_setExt s _ n v c, fun _ other => (block_setExt ..).trans (if_neg (Ne.symm other)), rfl⟩

theorem bit_eq_testBit (v n : Nat) : bit v n = v.testBit n := by
  rw [bit, Nat.testBit_eq_decide_div_mod_eq]
  rfl

/-- A number with bit `n` set to `v` is its bits above, `v`, and its bits below. -/
theorem putBit_eq (p n : Nat) (v : Bool) : p - b2n (bit p n) * 2 ^ n + b2n v * 2 ^ n =
    2 ^ n * (2 * (p / 2 ^ n / 2) + b2n v) + p % 2 ^ n := by
  have low : b2n (bit p n) = p / 2 ^ n % 2 := by
    rw [b2n, bit]
    rcases Nat.mod_two_eq_zero_or_one (p / 2 ^ n) with h | h <;> simp [h]
  have whole : p = 2 ^ n * (2 * (p / 2 ^ n / 2)) + p % 2 ^ n + p / 2 ^ n % 2 * 2 ^ n := by
    have halves := Nat.div_add_mod (p / 2 ^ n) 2
    calc p = 2 ^ n * (p / 2 ^ n) + p % 2 ^ n := (Nat.div_add_mod p (2 ^ n)).symm
      _ = 2 ^ n * (2 * (p / 2 ^ n / 2) + p / 2 ^ n % 2) + p % 2 ^ n := by rw [halves]
      _ = _ := by ring
  rw [low, Nat.sub_eq_of_eq_add whole]
  ring

/-- Setting one bit of a number. -/
theorem bit_putBit (p n : Nat) (v : Bool) (k : Nat) :
    bit (p - b2n (bit p n) * 2 ^ n + b2n v * 2 ^ n) k = if k = n then v else bit p k := by
  have below : p % 2 ^ n < 2 ^ n := Nat.mod_lt _ (Nat.two_pow_pos n)
  have split : bit p k = if k < n then (p % 2 ^ n).testBit k else (p / 2 ^ n).testBit (k - n) := by
    rw [bit_eq_testBit, ← Nat.testBit_two_pow_mul_add _ below, Nat.div_add_mod]
  rw [putBit_eq, bit_eq_testBit, Nat.testBit_two_pow_mul_add _ below, split]
  rcases Nat.lt_trichotomy k n with lt | rfl | gt
  · simp [lt, Nat.ne_of_lt lt]
  · cases v <;> simp [b2n, Nat.testBit_zero]
  · obtain ⟨m, hm⟩ : ∃ m, k - n = m + 1 := ⟨k - n - 1, by omega⟩
    have half : (2 * (p / 2 ^ n / 2) + b2n v) / 2 = p / 2 ^ n / 2 := by cases v <;> simp [b2n]; omega
    rw [if_neg (by omega), if_neg (by omega), if_neg (by omega), hm, Nat.testBit_succ, half, Nat.testBit_succ]

theorem predSet_setPred (s : State) (c n : Nat) (v : Bool) : PredSet s (setPred s (blockIndex c) n v) c n v := by
  unfold setPred
  by_cases zero : n = 0
  · subst zero
    exact ⟨fun k => (if_neg fun h => h.2 h.1).symm, fun _ => rfl, fun _ _ => rfl, rfl⟩
  rw [if_neg (by simpa using zero)]
  refine ⟨fun k => ?_, fun k => ?_, fun b other => ?_, rfl⟩
  · rw [predOf, State.block_updBlock, if_pos rfl, bit_putBit, predOf]
    by_cases k0 : k = 0
    · simp [k0]
    · by_cases kn : k = n <;> simp [k0, kn, zero]
  · rw [extOf, State.block_updBlock, if_pos rfl, extOf]
  · rw [State.block_updBlock, if_neg (Ne.symm other)]

/-! The issue of an instruction leaves extents and predicates. -/

theorem blocks_issued (s : State) (x : Ctx) : (issued s x []).blocks = s.blocks := (congrArg State.blocks (traced_issued s x).rest :)

theorem extOf_issued (s : State) (x : Ctx) (c k : Nat) : extOf (issued s x []) c k = extOf s c k := by
  unfold extOf State.block
  rw [blocks_issued]

theorem predOf_issued (s : State) (x : Ctx) (c k : Nat) : predOf (issued s x []) c k = predOf s c k := by
  unfold predOf State.block
  rw [blocks_issued]

theorem extOf_lt (s : State) (c k : Nat) : extOf s c k < 2 ^ 32 := BitVec.isLt _

/-- A literal of a ready instruction has 32 bits. -/
theorem opb_lt {op c : Nat} {ph : List Phys} {s : State} {x : Ctx} (ready : readyCtx op c ph s = some x) : x.i.opb < 2 ^ 32 := by
  obtain ⟨-, -, ⟨w, -, read⟩, -⟩ := readyCtx_some rfl ready
  rw [read]
  exact Nat.mod_lt _ (by decide)

theorem scExt_law {c : Nat} {s : State} {x : Ctx} (ready : readyCtx 0x10 c [] s = some x) :
    ∃ t, exec (.scExt c) s = .next t ∧ ExtentSet (issued s x []) t c x.od.reg x.i.opb :=
  have run : execScExt c s = .next _ := issue_ready_nil _ ready
  ⟨_, run, extentSet_setExt _ _ _ (opb_lt ready)⟩

theorem scExtsub_law {c : Nat} {s : State} {x : Ctx} (ready : readyCtx 0x12 c [] s = some x) :
    ∃ t, exec (.scExtsub c) s = .next t ∧ ExtentSet (issued s x []) t c x.od.reg (max 0 (extOf s c x.oa.reg - x.i.opb)) := by
  have run : execScExtsub c s = .next _ := issue_ready_nil _ ready
  refine ⟨_, run, ?_⟩
  rw [extOf_issued, Nat.zero_max]
  exact extentSet_setExt _ _ _ ((Nat.sub_le ..).trans_lt (extOf_lt ..))

theorem scExtmin_law {c : Nat} {s : State} {x : Ctx} (ready : readyCtx 0x13 c [] s = some x) :
    ∃ t, exec (.scExtmin c) s = .next t ∧ ExtentSet (issued s x []) t c x.od.reg (min (extOf s c x.oa.reg) x.i.opb) := by
  have run : execScExtmin c s = .next _ := issue_ready_nil _ ready
  refine ⟨_, run, ?_⟩
  rw [extOf_issued]
  exact extentSet_setExt _ _ _ ((Nat.min_le_left ..).trans_lt (extOf_lt ..))

/-- Settles O5, one law for each of the three forms. -/
theorem scalarInstructionsWriteExtents : Obligations.ScalarInstructionsWriteExtents := by
  unfold Obligations.ScalarInstructionsWriteExtents
  exact fun c s x => ⟨scExt_law, scExtsub_law, scExtmin_law⟩

/-- Settles O6. -/
theorem predicateLogicWritesThePredicate : Obligations.PredicateLogicWritesThePredicate := by
  unfold Obligations.PredicateLogicWritesThePredicate
  intro c s x ready
  have run : execScPlog c s = .next _ := issue_ready_nil _ ready
  refine ⟨_, run, ?_⟩
  simp only [predOf_issued]
  exact predSet_setPred ..

/-! The loads (R183, R185, R196). -/

/-- The first `m` extents of a block written from a record. -/
theorem foldl_setExt_law (s : State) (c : Nat) (d : Bytes) (m : Nat) :
    let t := (List.range m).foldl (fun s n => setExt s (blockIndex c) n (num d (4 * n) 4)) s
    (∀ n, extOf t c n = if n < m then num d (4 * n) 4 else extOf s c n) ∧ (∀ k, predOf t c k = predOf s c k) ∧
      (∀ b, b ≠ blockIndex c → t.block b = s.block b) ∧ { t with blocks := s.blocks } = s := by
  induction m with
  | zero => exact ⟨fun _ => rfl, fun _ => rfl, fun _ _ => rfl, rfl⟩
  | succ m ih =>
    obtain ⟨ext, pred, block, rest⟩ := ih
    rw [List.range_succ, List.foldl_append]
    obtain ⟨ext', pred', block', rest'⟩ := extentSet_setExt
      ((List.range m).foldl (fun s n => setExt s (blockIndex c) n (num d (4 * n) 4)) s) c m (num_lt d (4 * m) 4)
    refine ⟨fun n => (ext' n).trans ?_, fun k => (pred' k).trans (pred k), fun b h => (block' b h).trans (block b h), ?_⟩
    · rw [ext]
      grind
    · exact (congrArg (fun u : State => { u with blocks := s.blocks }) rest').trans rest

theorem loadExtents_law (s : State) (c : Nat) (d : Bytes) :
    (∀ n, n < 16 → extOf (loadExtents s (blockIndex c) d) c n = num d (4 * n) 4) ∧
    (∀ k, predOf (loadExtents s (blockIndex c) d) c k = predOf s c k) ∧
    (∀ b, b ≠ blockIndex c → (loadExtents s (blockIndex c) d).block b = s.block b) ∧
    { loadExtents s (blockIndex c) d with blocks := s.blocks } = s := by
  obtain ⟨ext, others⟩ := foldl_setExt_law s c d 16
  exact ⟨fun n small => (ext n).trans (if_pos small), others⟩

section
variable {c : Nat} {ph : List Phys} {s u : State} {x : Ctx} {d : Bytes}

/-- The record is loaded; a read of device memory is counted (R415). -/
theorem scLdext_loads (ready : readyCtx 0x11 c ph s = some x) (live : bound (issued (injectAll s ph) x ph) c x.oa ≠ some 0)
    (read : x.oa.space = 4 ∧ readOpnd (issued (injectAll s ph) x ph) x x.oa 64 none false = (some d, u) ∨
      x.oa.space ≠ 4 ∧ readMem (issued (injectAll s ph) x ph) (devAddr x x.oa) 64 x.acc = (.ok d, u)) :
    ∃ mon, exec (.scLdext c ph) s = .next (loadExtents { u with mon } (blockIndex c) d) := by
  show ∃ mon, execScLdext c ph s = _
  rw [execScLdext, issue_ready _ ready]
  rcases read with ⟨stash, read⟩ | ⟨dev, read⟩
  · exact ⟨u.mon, by simp [live, stash, read]⟩
  · exact ⟨(u.countRegion 0x201 (regionOf c) 1).mon, by simp [live, dev, read]; rfl⟩

theorem scLdext_law (ready : readyCtx 0x11 c ph s = some x) (live : bound (issued (injectAll s ph) x ph) c x.oa ≠ some 0)
    (read : x.oa.space = 4 ∧ readOpnd (issued (injectAll s ph) x ph) x x.oa 64 none false = (some d, u) ∨
      x.oa.space ≠ 4 ∧ readMem (issued (injectAll s ph) x ph) (devAddr x x.oa) 64 x.acc = (.ok d, u)) :
    ∃ t, exec (.scLdext c ph) s = .next t ∧ (∀ n, n < 16 → extOf t c n = num d (4 * n) 4) ∧
      (∀ k, predOf t c k = predOf u c k) ∧ (∀ b, b ≠ blockIndex c → t.block b = u.block b) ∧
      { t with blocks := u.blocks, mon := u.mon } = u := by
  obtain ⟨mon, run⟩ := scLdext_loads ready live read
  have law := loadExtents_law { u with mon } c d
  generalize loadExtents { u with mon } (blockIndex c) d = t at run law
  obtain ⟨ext, pred, block, rest⟩ := law
  exact ⟨t, run, ext, pred, block, (congrArg (fun t : State => { t with mon := u.mon }) rest :)⟩

theorem scPset_law (ready : readyCtx 0x14 c ph s = some x) (live : bound (issued (injectAll s ph) x ph) c x.oa ≠ some 0)
    (read : readOpnd (issued (injectAll s ph) x ph) x x.oa 64 none false = (some d, u)) :
    ∃ t, exec (.scPset c ph) s = .next t ∧
      PredSet u t c x.od.reg (if x.i.x then num d 0 4 == x.i.opb else decide (x.i.opb ≤ num d 0 4)) := by
  have run : execScPset c ph s = .next (setPred u (blockIndex c) x.od.reg
      (if x.i.x then num d 0 4 == x.i.opb else decide (x.i.opb ≤ num d 0 4))) := by
    rw [execScPset, issue_ready _ ready]
    simp [live, read]
  exact ⟨_, run, predSet_setPred ..⟩

theorem scLdext_skipped (ready : readyCtx 0x11 c ph s = some x) (skips : bound (issued (injectAll s ph) x ph) c x.oa = some 0) :
    exec (.scLdext c ph) s = .next ((issued (injectAll s ph) x ph).countCell 0x004 c 1) := by
  show execScLdext c ph s = _
  rw [execScLdext, issue_ready _ ready, skips]
  rfl

theorem scPset_skipped (ready : readyCtx 0x14 c ph s = some x) (skips : bound (issued (injectAll s ph) x ph) c x.oa = some 0) :
    exec (.scPset c ph) s = .next ((issued (injectAll s ph) x ph).countCell 0x004 c 1) := by
  show execScPset c ph s = _
  rw [execScPset, issue_ready _ ready, skips]
  rfl

end

/-- Settles O7, a law for each form where it reads and where an extent skips it. -/
theorem scalarLoadsReadTheirOperand : Obligations.ScalarLoadsReadTheirOperand := by
  unfold Obligations.ScalarLoadsReadTheirOperand
  exact fun c ph s u x d => ⟨scLdext_law, scPset_law, scLdext_skipped, scPset_skipped⟩

end Sys2Proof.Machine
end

section
/-! ### Moves and their completions (R346 to R350, R416 to R418, R717) -/

namespace Sys2Proof.Machine

open Sys2Proof

/-! The oldest operation of a kind. -/

theorem dropFlight_append {mine : Flight → Bool} {before after : List Flight} {f : Flight} (first : before.all (fun g => !mine g) = true)
    (here : mine f = true) : dropFlight mine (before ++ f :: after) = before ++ after := by
  induction before with
  | nil => simp [dropFlight, here]
  | cons g before ih =>
    rw [List.all_cons, Bool.and_eq_true, Bool.not_eq_true'] at first
    simp [dropFlight, first.1, ih first.2]

theorem findSome?_append_first {p : Flight → Option (Nat × Nat)} {before after : List Flight} {f : Flight}
    (first : before.all (fun g => !(p g).isSome) = true) (here : (p f).isSome = true) :
    (before ++ f :: after).findSome? p = p f := by
  have none_ : before.findSome? p = none := by
    rw [List.findSome?_eq_none_iff]
    intro g hg
    simpa using List.all_eq_true.mp first g hg
  obtain ⟨e, he⟩ := Option.isSome_iff_exists.mp here
  rw [List.findSome?_append, none_, Option.none_or, List.findSome?_cons, he]

/-- A change of a sequencer is what it makes of the sequencer there. -/
theorem updSeq_congr {s : State} {c : Nat} {f g : Seq → Seq} (h : f (s.cell c).seq = g (s.cell c).seq) : s.updSeq c f = s.updSeq c g := by
  have cell : ({ s.cell c with seq := f (s.cell c).seq } : CellSt) = { s.cell c with seq := g (s.cell c).seq } := by rw [h]
  exact congrArg (fun x : CellSt => { s with cells := sset {} s.cells c x }) cell

theorem settle_going {s : State} {c : Nat} (going : (s.cell c).seq.halted = false) : settle s c = s := by
  simp [settle, going]

section
variable {c op : Nat} {s : State} {row : Instr} {p : Flight → Option (Nat × Nat)} {mine : Flight → Bool} {before after : List Flight}
  {f : Flight}

/-- A completion at a cell that goes on removes the oldest operation of its kind, and takes a trace record (R418, R717). -/
theorem completion_law (run : exec row s = .next (completeMove s c op p)) (kind : (fun g => (p g).isSome) = mine)
    (going : (s.cell c).seq.halted = false) (flight : (s.cell c).seq.flight = before ++ f :: after) (here : mine f = true)
    (first : before.all (fun g => !mine g) = true) :
    ∃ t, exec row s = .next t ∧ t.cell c = { s.cell c with seq := { (s.cell c).seq with flight := before ++ after } } ∧
      (∀ d, d ≠ c → t.cell d = s.cell d) ∧ { t with cells := s.cells, regions := s.regions, mon := s.mon, err := s.err } = s ∧
      { t.err with drops := s.err.drops } = s.err := by
  subst kind
  obtain ⟨⟨bytes, dest⟩, found⟩ := Option.isSome_iff_exists.mp here
  set u := s.updSeq c fun q => { q with flight := before ++ after } with hu
  have traced : Traced u (traceRec u (regionOf c) 4 c [op, bytes, dest]) := traced_traceRec ..
  have cell (d : Nat) := (traced.cell d).trans (State.cell_updSeq s c d _)
  have removed : completeMove s c op p = traceRec u (regionOf c) 4 c [op, bytes, dest] := by
    have step : (s.updSeq c fun q => { q with flight := dropFlight (fun g => (p g).isSome) q.flight }) = u :=
      updSeq_congr (by rw [flight, dropFlight_append first here])
    unfold completeMove
    dsimp only
    rw [flight, findSome?_append_first first here, found]
    dsimp only
    rw [step]
    refine settle_going ?_
    rw [cell, if_pos rfl]
    exact going
  refine ⟨_, run.trans (congrArg _ removed), (cell c).trans (if_pos rfl), fun d other => (cell d).trans (if_neg (Ne.symm other)), ?_,
    traced.err⟩
  exact congrArg (fun t : State => { t with cells := s.cells }) traced.rest

end

/-! The moves themselves. -/

section
variable {c : Nat} {ph : List Phys} {s v w : State} {x : Ctx} {d : Bytes}

theorem mvLoad_skipped (ready : readyCtx 0x40 c ph s = some x) : let u := issued (injectAll s ph) x ph
    let len := stashLen x.i x.o x.od
    let live := clipTo (minBound (bound u c x.od) (bound u c x.oa)) (len / 64)
    live = 0 → exec (.mvLoad c ph) s = .next (u.countCell 0x004 c (cdiv len 1024 - cdiv live 16)) := by
  intro u len live none_
  have run : execMvLoad c ph s = .next _ := issue_ready _ ready
  exact run.trans (congrArg _ (if_pos (by simpa using none_)))

theorem gran_countRegion (s : State) (x : Ctx) (code r n : Nat) : x.gran (s.countRegion code r n) = x.gran s := rfl

theorem mvLoad_law (ready : readyCtx 0x40 c ph s = some x) : let u := issued (injectAll s ph) x ph
    let len := stashLen x.i x.o x.od
    let live := clipTo (minBound (bound u c x.od) (bound u c x.oa)) (len / 64)
    live ≠ 0 → badLine ph (d.length / 64) = none →
    readDev (u.countCell 0x004 c (cdiv len 1024 - cdiv live 16)) (devAddr x x.oa) (live * 64) x.acc = (d, true, v) →
    writeLines (v.countRegion 0x201 (regionOf c) (d.length / 64)) c (x.gran v) (x.od.start / 64) (toLines (d.take (live * 64)))
      (some x.who) = (true, w) →
    exec (.mvLoad c ph) s = .next (addFlight w c (.load (live * 64))) := by
  intro u len live some_ clean read write
  have run : execMvLoad c ph s = .next _ := issue_ready _ ready
  refine run.trans (congrArg _ ((if_neg (by simpa using some_)).trans ?_))
  rw [read]
  dsimp only
  rw [clean, gran_countRegion]
  dsimp only [Option.getD_none, live, len, u] at write ⊢
  simp only [write, Bool.and_self, if_true]

theorem mvStore_law (ready : readyCtx 0x41 c ph s = some x) (clean : badLine ph (d.length / 64) = none) (some_ : d ≠ []) :
    let u := issued (injectAll s ph) x ph
    let len := stashLen x.i x.o x.ob
    let b := minBound (bound u c x.ob) (bound u c x.od)
    readMove (u.countCell 0x004 c (cdiv len 1024 - cdiv (clipTo b (cdiv len 64)) 16)) x x.ob len b = (d, true, v) →
    writeMem (v.countRegion 0x202 (regionOf c) (d.length / 64)) (devAddr x x.od) d x.acc = (.ok (), w) →
    exec (.mvStore c ph) s = .next (addFlight w c (.store d.length)) := by
  intro u len b read write
  have run : execMvStore c ph s = .next _ := issue_ready _ ready
  have all : d.take (d.length * 64) = d := List.take_of_length_le (Nat.le_mul_of_pos_right _ (by decide))
  refine run.trans (congrArg _ ?_)
  dsimp only
  rw [read]
  dsimp only
  rw [clean]
  dsimp only [Option.getD_none]
  simp only [all, write]
  simp [some_]

theorem mvPut_law (ready : readyCtx 0x42 c ph s = some x) (clean : badLine ph (d.length / 64) = none) (line : 64 ≤ d.length)
    (lines : 64 ∣ d.length) {dst : Nat} (there : physOf x.j x.od.vcell = some dst) (way : badRouter ph c dst = none) :
    let u := issued (injectAll s ph) x ph
    let len := stashLen x.i x.o x.ob
    let b := minBound (bound u c x.ob) (bound u c x.od)
    let n := d.length / 64
    let v1 := v.count 0x101 none (some (blockIndex c)) (some (regionOf c)) n
    let v2 := if blockIndex c = blockIndex dst then v1 else v1.countRegion 0x203 (regionOf c) n
    readMove (u.countCell 0x004 c (cdiv len 1024 - cdiv (clipTo b (cdiv len 64)) 16)) x x.ob len b = (d, true, v) →
    writeLines v2 dst (v2.cell dst).seq.gran (x.od.start / 64) (toLines d) (some x.who) = (true, w) →
    exec (.mvPut c ph) s = .next (addFlight w c (.put dst d.length)) := by
  intro u len b n v1 v2 read write
  have run : execMvPut c ph s = .next _ := issue_ready _ ready
  have all : d.take (d.length / 64 * 64) = d := List.take_of_length_le (Nat.div_mul_cancel lines).ge
  have some_ : d.length / 64 ≠ 0 := (Nat.div_pos line (by decide)).ne'
  refine run.trans (congrArg _ ?_)
  dsimp only [v2, v1, n] at write
  dsimp only
  rw [there]
  dsimp only
  rw [read]
  dsimp only
  rw [way, ite_self]
  dsimp only
  rw [clean]
  dsimp only [Option.getD_none]
  simp only [all, beq_iff_eq, write]
  simp [some_]

end

/-- Settles O18: a law for each move, and one for every completion. -/
theorem movesCarryTheirLines : Obligations.MovesCarryTheirLines := by
  unfold Obligations.MovesCarryTheirLines
  refine ⟨fun c ph s x d v w => ⟨mvLoad_skipped, mvLoad_law, mvStore_law, ?_⟩, fun c s before after going => ⟨?_, ?_, ?_⟩⟩
  · intro ready clean line lines dst there way read n v1 v2 write
    exact mvPut_law ready clean line lines there way read write
  · intro n flight here first
    exact completion_law (rfl : execMvLoadComplete c s = _) (by funext g; cases g <;> rfl) going flight here first
  · intro n flight here first
    exact completion_law (rfl : execMvStoreComplete c s = _) (by funext g; cases g <;> rfl) going flight here first
  · intro e n flight here first
    exact completion_law (rfl : execMvPutComplete c s = _) (by funext g; cases g <;> rfl) going flight here first

end Sys2Proof.Machine
end

section
/-! ### The cairn instructions (R492 to R494) -/

namespace Sys2Proof.Machine

open Sys2Proof

theorem scanCairn_clean {s : State} {n copy : Nat} (clean : sget 0 s.syn.bad (cairnKey n copy) = 0) : scanCairn s n copy = s := by
  unfold scanCairn scanMaster fixCopy
  by_cases master : copy = 32
  · subst master
    simp [clean]
  · simp [master, clean]

theorem cairnSound_clean {s : State} {n copy : Nat} (clean : sget 0 s.syn.bad (cairnKey n copy) = 0) : cairnSound s n copy = true := by
  rw [cairnSound, clean]
  decide

/-- The copy of a clean cairn decides a wait by its value. -/
theorem waitHolds_clean {s : State} {r : Nat} {w : Wait} (clean : sget 0 s.syn.bad (cairnKey w.cairn r) = 0) :
    waitHolds s r w = decide (w.value ≤ cairnVal s w.cairn r) := by
  rw [waitHolds, cairnSound_clean clean, Bool.true_and]

/-- A cell that wakes goes on, with its sleep counted and a trace record taken (R494, R715, R717). -/
theorem traced_wakeCell (s : State) (c : Nat) (w : Wait) :
    Traced (s.updSeq c fun q => { q with wait := none, slept := q.slept + (s.clk.cycles - w.since) }) (wakeCell s c w) :=
  (traced_count _ 0x00B (some c) (some (blockIndex c)) (some (regionOf c)) _).trans (traced_traceRec ..)

theorem caSignal_law {c : Nat} {s : State} {x : Ctx} (ready : readyCtx 0x60 c [] s = some x) :
    exec (.caSignal c) s = .next ((issued s x []).updSeq c fun q => { q with flight := q.flight ++
      [.signal (x.j.params.cairnBase + x.od.cairn) x.i.opb x.i.x (s.cell c).seq.index] }) := by
  have run : execCaSignal c s = .next _ := issue_ready_nil _ ready
  obtain ⟨-, -, -, -, -, -, -, who, -⟩ := readyCtx_some rfl ready
  rw [who] at run
  exact run

section
variable {c : Nat} {ph : List Phys} {s : State} {x : Ctx}

theorem caWait_law (ready : readyCtx 0x61 c ph s = some x) : let u := issued (injectAll s ph) x ph
    let n := x.j.params.cairnBase + x.oa.cairn
    let w : Wait := ⟨n, x.i.opb, u.clk.cycles⟩
    sget 0 u.syn.bad (cairnKey n (regionOf c)) = 0 →
    exec (.caWait c ph) s = .next (if x.i.opb ≤ cairnVal u n (regionOf c) then wakeCell u c w
      else if (u.cell c).seq.halted then u else u.updSeq c fun q => { q with wait := some w }) := by
  intro u n w clean
  have run : execCaWait c ph s = .next _ := issue_ready _ ready
  have scan : scanCairn (issued (injectAll s ph) x ph) (absCairn x.j x.oa.cairn) (regionOf c) = u := scanCairn_clean clean
  refine run.trans (congrArg _ ?_)
  dsimp only
  rw [scan, waitHolds_clean (w := ⟨absCairn x.j x.oa.cairn, x.i.opb, u.clk.cycles⟩) clean]
  simp only [decide_eq_true_eq]
  rfl

/-- A CA.WAIT whose condition holds has slept no cycle. -/
theorem caWait_holds (ready : readyCtx 0x61 c ph s = some x) : let u := issued (injectAll s ph) x ph
    let n := x.j.params.cairnBase + x.oa.cairn
    sget 0 u.syn.bad (cairnKey n (regionOf c)) = 0 → x.i.opb ≤ cairnVal u n (regionOf c) →
    ∃ t : State, exec (.caWait c ph) s = .next t ∧
      t.cell c = { u.cell c with seq := { (u.cell c).seq with wait := none } } ∧ (∀ d, d ≠ c → t.cell d = u.cell d) ∧
      { t with cells := u.cells, regions := u.regions, mon := u.mon, err := u.err } = u := by
  intro u n clean holds
  have traced := traced_wakeCell u c ⟨n, x.i.opb, u.clk.cycles⟩
  have cell (d : Nat) := (traced.cell d).trans (State.cell_updSeq u c d _)
  refine ⟨_, (caWait_law ready clean).trans (congrArg _ (if_pos holds)), ?_, fun d other => (cell d).trans (if_neg (Ne.symm other)), ?_⟩
  · rw [cell, if_pos rfl, Nat.sub_self, Nat.add_zero]
  · exact congrArg (fun t : State => { t with cells := u.cells }) traced.rest

theorem caWait_sleeps (ready : readyCtx 0x61 c ph s = some x) : let u := issued (injectAll s ph) x ph
    let n := x.j.params.cairnBase + x.oa.cairn
    sget 0 u.syn.bad (cairnKey n (regionOf c)) = 0 → cairnVal u n (regionOf c) < x.i.opb → (u.cell c).seq.halted = false →
    exec (.caWait c ph) s = .next (u.updSeq c fun q => { q with wait := some ⟨n, x.i.opb, u.clk.cycles⟩ }) := by
  intro u n clean below going
  rw [caWait_law ready clean, if_neg (Nat.not_le.mpr below)]
  exact congrArg _ (if_neg (by rw [going]; decide))

theorem caRead_skipped (ready : readyCtx 0x62 c ph s = some x)
    (skipped : skippedWhole (issued (injectAll s ph) x ph) c x.o = true) :
    exec (.caRead c ph) s = .next (issued (injectAll s ph) x ph) := by
  have run : execCaRead c ph s = .next _ := issue_ready _ ready
  exact run.trans (congrArg _ (if_pos skipped))

theorem caRead_law (ready : readyCtx 0x62 c ph s = some x) : let u := issued (injectAll s ph) x ph
    let n := x.j.params.cairnBase + x.oa.cairn
    skippedWhole u c x.o = false → sget 0 u.syn.bad (cairnKey n (regionOf c)) = 0 →
    exec (.caRead c ph) s = .next
      (writeOpnd u x x.od (leBytes 4 (cairnVal u n (regionOf c)) ++ List.replicate 60 0) (bound u c x.od)) := by
  intro u n live clean
  have run : execCaRead c ph s = .next _ := issue_ready _ ready
  have scan : scanCairn (issued (injectAll s ph) x ph) (absCairn x.j x.oa.cairn) (regionOf c) = u := scanCairn_clean clean
  have sound : cairnSound u (absCairn x.j x.oa.cairn) (regionOf c) = true := cairnSound_clean clean
  refine run.trans (congrArg _ ((if_neg (by rw [live]; decide)).trans ?_))
  simp only [scan, sound]
  rfl

end

/-- Settles O27, a law for each form and case. -/
theorem cairnInstructionsComplete : Obligations.CairnInstructionsComplete := by
  unfold Obligations.CairnInstructionsComplete
  exact fun c ph s x => ⟨caSignal_law, caWait_holds, caWait_sleeps, caRead_skipped, caRead_law⟩

end Sys2Proof.Machine
end

section
/-! ### MM.SWEEP and MM.DRAIN (R196, R229 to R231, R270) -/

namespace Sys2Proof.Machine

open Sys2Proof

section
variable {c : Nat} {ph : List Phys} {s : State} {x : Ctx}

theorem mmSweep_skipped (ready : readyCtx 0x22 c ph s = some x) : let u := issued (injectAll s ph) x ph
    let live := clipTo (minBound (bound u c x.od) (bound u c x.oa)) x.oa.rows
    live = 0 ∨ bound u c x.ob = some 0 →
    exec (.mmSweep c ph) s = .next (u.countCell 0x004 c ((cdiv x.oa.rows 16 - (if bound u c x.ob == some 0 then 0 else cdiv live 16)) *
      (geom x.i.a x.i.b x.i.shape x.ob.sparsity).w)) := by
  intro u live skipped
  have run : execMmSweep c ph s = .next _ := issue_ready _ ready
  exact run.trans (congrArg _ (if_pos (by simpa using skipped)))

theorem mmSweep_law (ready : readyCtx 0x22 c ph s = some x) : let u := issued (injectAll s ph) x ph
    let i := x.i
    let g := geom i.a i.b i.shape x.ob.sparsity
    let rows := x.oa.rows
    let live := clipTo (minBound (bound u c x.od) (bound u c x.oa)) rows
    let lim := bound u c x.ob
    let ap := aParts i.a g.kt rows i.scale
    let v := u.countCell 0x004 c ((cdiv rows 16 - (if lim == some 0 then 0 else cdiv live 16)) * g.w)
    live ≠ 0 → lim ≠ some 0 → ∀ wb rb zb sb v1 v2 v3 v4,
    readBuf v x false (x.ob.half * 16384 + x.ob.start) (wParts i.a i.b i.shape x.ob.sparsity i.scale).len = (some wb, v1) →
    escapeFault i x.ob.sparsity wb = none →
    readBuf v1 x true x.oa.start (cdiv (live * g.kt * fmtWidth i.a) 8) = (some rb, v2) →
    readBuf v2 x true (x.oa.start + ap.zero) (if i.a == 10 || i.a == 12 then live else 0) = (some zb, v3) →
    readBuf v3 x true (x.oa.start + ap.scale) (scaleBytes i.scale rows rows) = (some sb, v4) →
    let rs := readRows i g.kt live rows rb zb sb
    exec (.mmSweep c ph) s = .next (sweepTile (countTiles v4 c (tilesWritten i.x g.w rs)) x
      ⟨decide (8 ≤ i.a), i.scale != 0, i.x, g, g.w, i.b, x.od.first, runBanks v4 c, ph⟩
      (latch i x.ob.sparsity wb lim) rs).2 := by
  intro u i g rows live lim ap v some_ reduced wb rb zb sb v1 v2 v3 v4 weights sound activations zeros scales rs
  have run : execMmSweep c ph s = .next _ := issue_ready _ ready
  refine run.trans (congrArg _ ((if_neg (by simpa using ⟨some_, reduced⟩)).trans ?_))
  rw [weights]
  dsimp only
  rw [sound]
  dsimp only
  rw [activations]
  dsimp only
  rw [zeros]
  dsimp only
  rw [scales]

theorem mmDrain_law (ready : readyCtx 0x23 c ph s = some x) : let u := issued (injectAll s ph) x ph
    let i := x.i
    let all := 16 * x.oa.count
    let drained := cdiv (drainElems u x) 16
    let w := u.countCell 0x004 c (cdiv (all - drained + drained % 16) 16 - b2n (drained % 16 != 0))
    ∀ es n v1, drainRows w x (runBanks w c) x.oa.first (drainElems u x) = (es, n, v1) →
    let d := packElems (fmtWidth i.d) es
    exec (.mmDrain c ph) s = .next (
      let t := if n = 0 then v1 else writeMerged v1 x x.od (d.take (clipTo ((bound v1 c x.od).map (· * 64)) d.length))
      if i.x then clearRows t c (runBanks w c) x.oa.first n else t) := by
  intro u i all drained w es n v1 read d
  have run : execMmDrain c ph s = .next _ := issue_ready _ ready
  refine run.trans (congrArg _ ?_)
  dsimp only
  rw [read]
  simp only [beq_iff_eq]
  rfl

end

/-- Settles O11. Clauses that are the model's choice (log entry 44): of the row that an extent on OPD cuts, its bytes in the last line are
written; under X 1 it counts as drained; and a group of 16 rows that is all zero without overwrite is not among the tiles written. -/
theorem sweepsAndDrainsComplete : Obligations.SweepsAndDrainsComplete := by
  unfold Obligations.SweepsAndDrainsComplete
  exact fun c ph s x => ⟨mmSweep_skipped, mmSweep_law, mmDrain_law⟩

end Sys2Proof.Machine
end

section
/-! ### The attention rows (R195, R197, R288, R466 to R474) -/

namespace Sys2Proof.Machine

open Sys2Proof

section
variable {c : Nat} {ph : List Phys} {s : State} {x : Ctx}

/-- Rows that may be stored, where X asks for it, pass the check of R471. -/
theorem storeChecked {v : State} {a : Att} (storable : x.i.x = true → storeFault v x a = none) :
    (if x.i.x then storeFault v x a else none) = none := by
  split_ifs with stores
  · exact storable stores
  · rfl

/-- AT.SCORE (R470). -/
theorem atScore_law (ready : readyCtx 0x70 c ph s = some x) : let u := issued (injectAll s ph) x ph
    let b := minBound (bound u c x.od) (bound u c x.oa)
    let live := clipTo b x.oa.rows
    let w := u.countCell 0x004 c ((cdiv x.oa.rows 16 - cdiv live 16) * shapeW x.i.shape)
    (b = some 0 → exec (.atScore c ph) s = .next w) ∧
    (b ≠ some 0 → ∀ a fresh tree qb v1 v2 v3 v4, readAtt w x false = (some a, v1) →
      (x.i.x = true → storeFault v1 x a = none) → readFresh v1 x a false = (some fresh, v2) →
      (a.r.mask = 2 ∧ readStash v2 c (x.gran v2) a.r.tree 128 (some x.who) = (some tree, v3) ∨
        a.r.mask ≠ 2 ∧ tree = [] ∧ v3 = v2) →
      readBuf v3 x true x.oa.start (live * a.h.dim * fmtWidth x.i.a / 8) = (some qb, v4) →
      exec (.atScore c ph) s = .next (scoreBody v4 x a ph live (fun m => b.all fun e => decide (m < e)) fresh tree qb)) := by
  intro u b live w
  have run : execAtScore c ph s = .next _ := issue_ready _ ready
  refine ⟨fun skipped => run.trans (congrArg _ (if_pos (by simpa using skipped))), ?_⟩
  intro going a fresh tree qb v1 v2 v3 v4 record storable rows mask queries
  have masks : (if a.r.mask == 2 then readStash v2 c (x.gran v2) a.r.tree 128 (some x.who) else (some [], v2)) = (some tree, v3) := by
    rcases mask with ⟨isTree, read⟩ | ⟨noTree, rfl, rfl⟩
    · rw [if_pos (by simpa using isTree), read]
    · rw [if_neg (by simpa using noTree)]
  refine run.trans (congrArg _ ((if_neg (by simpa using going)).trans ?_))
  rw [record]
  dsimp only
  rw [storeChecked storable]
  dsimp only
  rw [rows]
  dsimp only
  rw [masks]
  dsimp only
  rw [queries]

theorem bound_countCell (s : State) (code d n : Nat) (o : Opnd) : bound (s.countCell code d n) c o = bound s c o := rfl

/-- AT.PV (R473). -/
theorem atPv_law (ready : readyCtx 0x71 c ph s = some x) : let u := issued (injectAll s ph) x ph
    let rows := 16 * pvGroups x
    let live := clipTo (bound u c x.od) rows
    let w := u.countCell 0x004 c ((cdiv rows 16 - cdiv live 16) * shapeW x.i.shape)
    (live = 0 ∨ bound u c x.oa = some 0 → exec (.atPv c ph) s = .next w) ∧
    (live ≠ 0 → bound u c x.oa ≠ some 0 → ∀ a fresh pb v1 v2 v3, readAtt w x true = (some a, v1) →
      (x.i.x = true → storeFault v1 x a = none) → readFresh v1 x a true = (some fresh, v2) →
      readOpnd v2 x x.oa (stashLen x.i x.o x.oa) (bound v2 c x.oa) false = (some pb, v3) →
      exec (.atPv c ph) s = .next (pvBody v3 x a ph live fresh pb)) := by
  intro u rows live w
  have run : execAtPv c ph s = .next _ := issue_ready _ ready
  refine ⟨fun skipped => run.trans (congrArg _ (if_pos (by simpa [bound_countCell] using skipped))), ?_⟩
  intro some_ going a fresh pb v1 v2 v3 record storable values probs
  refine run.trans (congrArg _ ((if_neg (by simpa using ⟨some_, going⟩)).trans ?_))
  rw [record]
  dsimp only
  rw [storeChecked storable]
  dsimp only
  rw [values]
  dsimp only
  rw [probs]

/-- AT.SOFTMAX (R472). -/
theorem atSoftmax_law (ready : readyCtx 0x72 c ph s = some x) : let u := issued (injectAll s ph) x ph
    (linesIn u x = some 0 → exec (.atSoftmax c ph) s = .next (u.countCell 0x004 c x.oa.lenKib)) ∧
    (linesIn u x ≠ some 0 → ∀ d v1, readOpnd u x x.oa (1024 * x.oa.lenKib) (linesIn u x) false = (some d, v1) →
      let r := softmax x.i x.oa.lenKib (elemsIn (linesIn u x) (fmtWidth x.i.d) (256 * x.oa.lenKib)) d (v1.cell c).misc.rng
      let v2 := v1.updMisc c fun m => { m with rng := r.2.2 }
      exec (.atSoftmax c ph) s = .next (logNans (writeOpnd v2 x x.od r.1 (linesIn u x)) x 0 r.2.1)) := by
  intro u
  have run : execAtSoftmax c ph s = .next _ := issue_ready _ ready
  refine ⟨fun skipped => run.trans (congrArg _ (if_pos (by simpa using skipped))), fun going d v1 scores => ?_⟩
  refine run.trans (congrArg _ ((if_neg (by simpa using going)).trans ?_))
  rw [scores]

/-- AT.MERGE (R474). -/
theorem atMerge_law (ready : readyCtx 0x73 c ph s = some x) : let u := issued (injectAll s ph) x ph
    let la := stashLen x.i x.o x.oa
    (linesIn u x = some 0 → exec (.atMerge c ph) s = .next (u.countCell 0x004 c (la / 1024))) ∧
    (linesIn u x ≠ some 0 → stashLen x.i x.o x.ob = la → ∀ p q v1 v2, readOpnd u x x.oa la (linesIn u x) false = (some p, v1) →
      readOpnd v1 x x.ob la (linesIn u x) false = (some q, v2) → num p 8 4 = num q 8 4 →
      let g := min (num p 8 4) (la / 1024)
      let dim := 16 * (la / 1024 / num p 8 4 - 1)
      exec (.atMerge c ph) s = .next (writeMerge v2 x (linesIn u x) g dim
        ((List.range (16 * g)).map fun r => mergeRow (partRow p g dim r) (partRow q g dim r)))) := by
  intro u la
  have run : execAtMerge c ph s = .next _ := issue_ready _ ready
  refine ⟨fun skipped => run.trans (congrArg _ (if_pos (by simpa using skipped))), fun going len p q v1 v2 first second groups => ?_⟩
  refine run.trans (congrArg _ ((if_neg (by simpa using going)).trans ?_))
  rw [first]
  dsimp only
  rw [len, second]
  exact if_neg (by simp [groups, la])

end

/-- Settles O22, a law for each form. Clauses that are the model's choice: the smallest line count bounds every operand (log entry 22); an
extent of 0 on an operand of AT.SCORE or AT.PV skips the instruction whole, and the details of the attention rows (log entry 50); the
stats words of AT.SOFTMAX round to nearest and take no draw (log entry 68). -/
theorem attentionRowsComplete : Obligations.AttentionRowsComplete := by
  unfold Obligations.AttentionRowsComplete
  exact fun c ph s x => ⟨atScore_law, atPv_law, atSoftmax_law, atMerge_law⟩

end Sys2Proof.Machine
end

section
/-! ### Groups of a reduction move on (R353, R354, R359) -/

namespace Sys2Proof.Machine

open Sys2Proof

/-- A group without its progress. -/
def RedGroup.still (g : RedGroup) : RedGroup := { g with xbars := [], routers := [], blocksOut := [], regionsOut := [] }

/-- The members that have come agree in header, bits and length (R353). -/
def RedGroup.alike (g : RedGroup) : Prop :=
  ∀ p ∈ g.parts, p.header = g.header ∧ p.bits = g.opcodeBits ∧ ∀ q ∈ g.parts, q.data.length = p.data.length

theorem RedGroup.parts_of_still {g h : RedGroup} (same : h.still = g.still) : h.parts = g.parts := (congrArg RedGroup.parts same :)

theorem RedGroup.alike_of_still {g h : RedGroup} (same : h.still = g.still) (alike : g.alike) : h.alike := by
  have header : h.header = g.header := (congrArg RedGroup.header same :)
  have bits : h.opcodeBits = g.opcodeBits := (congrArg RedGroup.opcodeBits same :)
  unfold RedGroup.alike
  rw [header, bits, parts_of_still same]
  exact alike

/-! Members that agree do not differ. -/

theorem mem_foldOrder {ps : List Contribution} {p : Contribution} (mem : p ∈ foldOrder ps) : p ∈ ps := by
  induction ps with
  | nil => exact mem
  | cons q ps ih =>
    rw [foldOrder, List.foldr_cons, ← foldOrder, List.append_assoc, List.mem_append, List.mem_append, List.mem_singleton] at mem
    rcases mem with before | rfl | after
    · exact List.mem_cons_of_mem _ (ih ((List.takeWhile_sublist _).subset before))
    · exact List.mem_cons_self
    · exact List.mem_cons_of_mem _ (ih ((List.dropWhile_sublist _).subset after))

theorem mem_combined {f : Nat → Bool} {ps : List Contribution} {p : Contribution} (mem : p ∈ combined f ps) : p ∈ ps := by
  unfold combined at mem
  dsimp only at mem
  split_ifs at mem with whole
  · exact List.mem_of_mem_filter (mem_foldOrder mem)
  · exact absurd mem List.not_mem_nil

theorem firstDiffer_alike {g : RedGroup} (alike : g.alike) {ps : List Contribution} (mem : ∀ p ∈ ps, p ∈ g.parts) :
    firstDiffer ps = none := by
  cases ps with
  | nil => rfl
  | cons p ps =>
    obtain ⟨header, bits, length⟩ := alike p (mem p List.mem_cons_self)
    refine List.find?_eq_none.mpr fun q hq => ?_
    have here := mem q (List.mem_cons_of_mem _ hq)
    obtain ⟨header', bits', -⟩ := alike q here
    simp [header, bits, header', bits', length q here]

/-! How far a group may go: it enters a crossbar or a router only where there is room. -/

/-- `h` is the group `g` some way on, among the groups `reds`. -/
structure GoesOn (reds : List RedGroup) (g h : RedGroup) : Prop where
  still : h.still = g.still
  xbar : ∀ b ∈ h.xbars, b ∈ g.xbars ∨ atXbar reds b < 8
  router : ∀ r ∈ h.routers, r ∈ g.routers ∨ atRouter reds r < 8

section
variable {reds : List RedGroup} {g h k : RedGroup}

theorem GoesOn.refl (reds : List RedGroup) (g : RedGroup) : GoesOn reds g g := ⟨rfl, fun _ => .inl, fun _ => .inl⟩

theorem GoesOn.trans (first : GoesOn reds g h) (second : GoesOn reds h k) : GoesOn reds g k where
  still := second.still.trans first.still
  xbar b mem := (second.xbar b mem).elim (first.xbar b) .inr
  router r mem := (second.router r mem).elim (first.router r) .inr

theorem goesOn_enterXbar (reds : List RedGroup) (g : RedGroup) (b : Nat) : GoesOn reds g (enterXbar reds g b) := by
  unfold enterXbar
  split_ifs with stays
  · exact .refl reds g
  · simp only [Bool.or_eq_true, decide_eq_true_eq, not_or, Nat.not_le] at stays
    refine ⟨rfl, fun d mem => ?_, fun _ => .inl⟩
    rcases List.mem_append.mp mem with old | new
    · exact .inl old
    · rw [List.mem_singleton.mp new]
      exact .inr stays.2

/-- Of the routers of a group that some of them leave and `r` joins, each was there or has room (R359). -/
theorem routerRoom {r e : Nat} {kept : List Nat} (fits : ¬(!g.routers.contains r && decide (8 ≤ atRouter reds r)) = true)
    (sub : ∀ e ∈ kept, e ∈ g.routers) (mem : e ∈ (kept ++ [r]).dedup) : e ∈ g.routers ∨ atRouter reds e < 8 := by
  rw [List.mem_dedup, List.mem_append, List.mem_singleton] at mem
  rcases mem with old | rfl
  · exact .inl (sub e old)
  · by_cases within : e ∈ g.routers
    · exact .inl within
    · exact .inr (by simpa [within] using fits)

/-- A step of a group without a differing member. -/
def agreeing (reds : List RedGroup) (g : RedGroup) (x : Progress) : Prop := GoesOn reds g x.1 ∧ x.2 = none

theorem agreeing_leaveXbar {x : Progress} (alike : g.alike) (soFar : agreeing reds g x) (b : Nat) : agreeing reds g (leaveXbar reds x b) := by
  obtain ⟨on, none_⟩ := soFar
  unfold leaveXbar
  extract_lets z ps cs r
  have agree : firstDiffer cs = none :=
    firstDiffer_alike (RedGroup.alike_of_still on.still alike) fun p mem => List.mem_of_mem_filter (mem_combined mem)
  rw [agree]
  dsimp only
  split_ifs with stays full
  · exact ⟨on, none_⟩
  · exact ⟨on, none_⟩
  · exact ⟨on.trans ⟨rfl, fun d mem => .inl (List.mem_of_mem_filter mem), fun _ => routerRoom full fun _ => id⟩, rfl⟩

theorem agreeing_leaveRouter {x : Progress} (alike : g.alike) (d : Nat) (soFar : agreeing reds g x) (r : Nat) :
    agreeing reds g (leaveRouter reds d x r) := by
  obtain ⟨on, none_⟩ := soFar
  unfold leaveRouter
  extract_lets z ps cs
  have agree : firstDiffer cs = none := firstDiffer_alike (RedGroup.alike_of_still on.still alike) fun p mem =>
    List.mem_of_mem_filter (List.mem_of_mem_filter (mem_combined mem))
  rw [agree]
  dsimp only
  split_ifs with stays full
  · exact ⟨on, none_⟩
  · exact ⟨on, none_⟩
  · exact ⟨on.trans ⟨rfl, fun _ => .inl, fun _ => routerRoom full fun _ => List.mem_of_mem_filter⟩, rfl⟩

/-- What every step keeps, a fold over steps keeps. -/
theorem agreeing_foldl {f : Progress → Nat → Progress} (step : ∀ x, agreeing reds g x → ∀ b, agreeing reds g (f x b)) (l : List Nat) {x : Progress}
    (start : agreeing reds g x) : agreeing reds g (l.foldl f x) :=
  List.foldlRecOn l f start fun x soFar b _ => step x soFar b

theorem goesOn_foldl_enterXbar (reds : List RedGroup) (g : RedGroup) (l : List Nat) : GoesOn reds g (l.foldl (enterXbar reds) g) :=
  List.foldlRecOn l (enterXbar reds) (.refl reds g) fun _ soFar b _ => soFar.trans (goesOn_enterXbar reds _ b)

theorem agreeing_progress (alike : g.alike) (d : Nat) : agreeing reds g (progress reds d g) := by
  unfold progress
  extract_lets z x y
  have entered : agreeing reds g (z, none) := ⟨goesOn_foldl_enterXbar reds g _, rfl⟩
  have left : agreeing reds g x := agreeing_foldl (fun _ soFar b => agreeing_leaveXbar alike soFar b) _ entered
  have gone : agreeing reds g y := agreeing_foldl (fun _ soFar r => agreeing_leaveRouter alike d soFar r) _ left
  obtain ⟨on, none_⟩ := gone
  have agree : firstDiffer (combined (fun _ => true) y.1.atDest) = none :=
    firstDiffer_alike (RedGroup.alike_of_still on.still alike) fun p mem => List.mem_of_mem_filter (mem_combined mem)
  rw [none_, agree]
  exact ⟨on, rfl⟩

/-! All groups move on. -/

/-- Replacing an entry keeps at most 8 that pass, where the new one passes only if the old one did or there was room. -/
theorem countP_set_le {p : RedGroup → Bool} {i : Nat} (at_ : reds[i]? = some g) (room : p h = true → p g = true ∨ reds.countP p < 8)
    (most : reds.countP p ≤ 8) : (reds.set i h).countP p ≤ 8 := by
  obtain ⟨inside, rfl⟩ := List.getElem?_eq_some_iff.mp at_
  rw [List.countP_set inside]
  by_cases new : p h = true <;> by_cases old : p reds[i] = true
  · have some_ : 0 < reds.countP p := List.countP_pos_iff.mpr ⟨_, List.getElem_mem inside, old⟩
    simp only [new, old, if_true]
    omega
  · have below := (room new).resolve_left old
    simp only [new, old, if_true, Bool.false_eq_true, if_false]
    omega
  · simp only [new, old, if_true, Bool.false_eq_true, if_false]
    omega
  · simp only [new, old, Bool.false_eq_true, if_false]
    omega

/-- Groups that kept all but their progress, with no crossbar or router above 8 that was not. -/
structure SumsMovedOn (reds reds' : List RedGroup) : Prop where
  still : reds'.map RedGroup.still = reds.map RedGroup.still
  xbar : ∀ b, atXbar reds b ≤ 8 → atXbar reds' b ≤ 8
  router : ∀ r, atRouter reds r ≤ 8 → atRouter reds' r ≤ 8

theorem SumsMovedOn.refl (reds : List RedGroup) : SumsMovedOn reds reds := ⟨rfl, fun _ => id, fun _ => id⟩

theorem SumsMovedOn.alike {reds' : List RedGroup} (moved : SumsMovedOn reds reds') (alike : ∀ g ∈ reds, g.alike) (mem : g ∈ reds') : g.alike := by
  have there : g.still ∈ reds.map RedGroup.still := moved.still ▸ List.mem_map_of_mem mem
  obtain ⟨y, hy, same⟩ := List.mem_map.mp there
  exact RedGroup.alike_of_still same.symm (alike y hy)

theorem SumsMovedOn.set {reds' : List RedGroup} {i : Nat} (moved : SumsMovedOn reds reds') (at_ : reds'[i]? = some g) (on : GoesOn reds' g h) :
    SumsMovedOn reds (reds'.set i h) where
  still := by
    rw [List.map_set, on.still, ← moved.still]
    obtain ⟨inside, rfl⟩ := List.getElem?_eq_some_iff.mp at_
    rw [← List.getElem_map (f := RedGroup.still) (h := by simpa using inside), List.set_getElem_self]
  xbar b most := by
    have before := moved.xbar b most
    rw [atXbar, ← List.countP_eq_length_filter] at before ⊢
    refine countP_set_le at_ (fun new => ?_) before
    rw [List.countP_eq_length_filter, ← atXbar, List.contains_iff_mem]
    exact on.xbar b (List.contains_iff_mem.mp new)
  router r most := by
    have before := moved.router r most
    rw [atRouter, ← List.countP_eq_length_filter] at before ⊢
    refine countP_set_le at_ (fun new => ?_) before
    rw [List.countP_eq_length_filter, ← atRouter, List.contains_iff_mem]
    exact on.router r (List.contains_iff_mem.mp new)

end

/-- The fold over the groups, as long as no members differ. -/
def SumsMoving (reds : List RedGroup) (r : List RedGroup × List (RedGroup × Nat × Nat × Contribution)) : Prop := SumsMovedOn reds r.1 ∧ r.2 = []

/-- Where members agree, sums move on, and nothing else changes (R353, R359). -/
theorem netStep_law (s : State) (alike : ∀ g ∈ s.reds, g.alike) : ∃ reds, netStep s = { s with reds } ∧ SumsMovedOn s.reds reds := by
  unfold netStep
  extract_lets r
  have moved : SumsMovedOn s.reds r.1 ∧ r.2 = [] := by
    refine List.foldlRecOn (motive := SumsMoving s.reds) _ _ ⟨.refl _, rfl⟩ ?_
    rintro ⟨reds, bad⟩ ⟨moved, rfl⟩ i -
    dsimp only
    cases at_ : reds[i]? with
    | none => exact ⟨moved, rfl⟩
    | some g =>
      obtain ⟨on, none_⟩ := agreeing_progress (reds := reds) (moved.alike alike (List.mem_of_getElem? at_))
        ((((s.job? g.job).bind fun j => physOf j g.dest).getD 0) / 256)
      dsimp only
      rw [none_]
      exact ⟨moved.set at_ on, rfl⟩
  refine ⟨r.1, ?_, moved.1⟩
  rw [moved.2, List.foldl_nil]

end Sys2Proof.Machine
end

section
/-! ### RD.SUM and the total of a group (R351 to R359, R374) -/

namespace Sys2Proof.Machine

open Sys2Proof

/-! RD.SUM (R351 to R353, R356). -/

section
variable {c : Nat} {ph : List Phys} {s : State} {x : Ctx}

/-- The state of an RD.SUM at its issue: the tiles that its extents skip are counted (R196). -/
def sumIssued (s : State) (x : Ctx) (c : Nat) (ph : List Phys) : State :=
  let i := issued (injectAll s ph) x ph
  let lines := if x.ob.space = 4 then stashLen x.i x.o x.ob / 64 else 16 * x.ob.count
  i.countCell 0x004 c (cdiv lines 16 - cdiv (clipTo (minBound (bound i c x.ob) (bound i c x.od)) lines) 16)

theorem rdSum_skipped (ready : readyCtx 0x50 c ph s = some x) (skipped : skippedWhole (sumIssued s x c ph) c x.o = true) :
    exec (.rdSum c ph) s = .next (sumIssued s x c ph) := by
  have run : execRdSum c ph s = .next _ := issue_ready _ ready
  refine run.trans (congrArg _ ?_)
  simp only [beq_iff_eq]
  exact if_pos skipped

/-- The group is the one that an RD.SUM with header `h` is to join (R352). -/
def joins (x : Ctx) (h : Bytes) (g : RedGroup) : Bool :=
  g.job == x.j.id && g.dest == x.od.vcell && g.off == bits x.od.v 12 0 && g.tag == num h 8 2 &&
    !g.parts.any fun q => q.vcell == x.v.vcell

/-- What an RD.SUM with header `h` contributes. -/
def contributed (x : Ctx) (c : Nat) (h d : Bytes) : Contribution := ⟨c, d, x.j.sheet, x.who.index, x.v.vcell, h, sumBits x.i⟩

/-- The groups once the contribution has opened or joined one. -/
def gathered (reds : List RedGroup) (x : Ctx) (c : Nat) (h d : Bytes) : List RedGroup :=
  match reds.find? (joins x h) with
  | none => reds ++ [{ dest := x.od.vcell, off := bits x.od.v 12 0, tag := num h 8 2, job := x.j.id, header := h,
                       opcodeBits := sumBits x.i, parts := [contributed x c h d] }]
  | some g => reds.map fun y => if y = g then { y with parts := y.parts ++ [contributed x c h d] } else y

/-- An RD.SUM that goes through opens its group, or joins it, and sums move on. -/
theorem rdSum_law {h d : Bytes} {v w : State} (ready : readyCtx 0x50 c ph s = some x)
    (going : skippedWhole (sumIssued s x c ph) c x.o = false)
    (header : readStash (sumIssued s x c ph) c (x.gran (sumIssued s x c ph)) (stashBytes x.v - 64) 64 (some x.who) = (some h, v))
    (good : headerGood x.j x.v h = true) (data : contribution v x = (some d, w)) (lines : badLine ph (d.length / 64) = none)
    (way : routerOn ph (regionOf c) (regionOf ((physOf x.j x.od.vcell).getD c)) = none) :
    exec (.rdSum c ph) s = .next (netStep (addFlight { w with reds := gathered w.reds x c h d } c
      (.sum x.od.vcell (bits x.od.v 12 0) (num h 8 2)))) := by
  have run : execRdSum c ph s = .next _ := issue_ready _ ready
  refine run.trans (congrArg _ ?_)
  simp only [beq_iff_eq]
  dsimp only [sumIssued] at going header
  refine (if_neg (by rw [going]; decide)).trans ?_
  rw [header]
  dsimp only
  rw [good, data]
  dsimp only [Bool.not_true]
  rw [if_neg (by decide), lines, way]
  rfl

end

/-! The total of a complete group (R354, R355). -/

/-- `t` is `s` but for event counts and the clamps counted in the regions. -/
structure Clamped (s t : State) : Prop where
  rest : { t with regions := s.regions, mon := s.mon } = s
  region : ∀ r, { t.region r with redSat := (s.region r).redSat } = s.region r

theorem Clamped.refl (s : State) : Clamped s s := ⟨rfl, fun _ => rfl⟩

theorem Clamped.trans {s t u : State} (first : Clamped s t) (second : Clamped t u) : Clamped s u where
  rest := (congrArg (fun x : State => { x with regions := s.regions, mon := s.mon }) second.rest).trans first.rest
  region r := (congrArg (fun x : RegionSt => { x with redSat := (s.region r).redSat }) (second.region r)).trans (first.region r)

theorem Clamped.foldl {β : Type} {f : State → β → State} (step : ∀ s x, Clamped s (f s x)) (l : List β) (s : State) :
    Clamped s (l.foldl f s) :=
  List.foldlRecOn l f (.refl s) fun t soFar x _ => soFar.trans (step t x)

theorem clamped_addClamps (s : State) (r n : Nat) : Clamped s (addClamps s r n) := by
  refine ⟨rfl, fun q => ?_⟩
  rw [addClamps, State.region_updRegion]
  split_ifs with here
  · subst here
    rfl
  · rfl

theorem clamped_count (s : State) (code : Nat) (cell block region : Option Nat) (n : Nat) :
    Clamped s (s.count code cell block region n) := ⟨rfl, fun _ => rfl⟩

theorem clamped_groupTotal (s : State) (j : Job) (ps : List Contribution) (int : Bool) (c : Nat) :
    Clamped s (groupTotal s j ps int c).2 := by
  unfold groupTotal
  exact (Clamped.foldl (fun s _ => clamped_addClamps s ..) _ s).trans (clamped_addClamps ..)

/-- What the forming of a total leaves: its clamps, and the lines its members contributed, are counted. -/
def summedAt (s : State) (j : Job) (g : RedGroup) (c : Nat) : State :=
  g.parts.foldl (fun s p => s.count 0x102 none (some (blockIndex p.cell)) (some (regionOf p.cell)) (p.data.length / 64))
    (groupTotal s j (foldOrder g.parts) (bit g.opcodeBits 64) c).2

theorem clamped_summedAt (s : State) (j : Job) (g : RedGroup) (c : Nat) : Clamped s (summedAt s j g c) :=
  (clamped_groupTotal ..).trans (.foldl (fun s _ => clamped_count s ..) _ _)

theorem sumsFail_nil (regs : List Nat) (d : Nat) (who : Issuer) (dst off lines : Nat) (s : State) :
    sumsFail [] regs d who dst off lines s = none := by
  have way : (regs.findSome? fun r => routerOn [] r d) = none := List.findSome?_eq_none_iff.mpr fun _ _ => rfl
  rw [sumsFail, way]
  rfl

/-- With no physical fault the total is written at the group's offset. -/
theorem writeTotal_nil (s : State) (j : Job) (g : RedGroup) (c : Nat) (who : Issuer) :
    let a := summedAt s j g c
    let d := (groupTotal s j (foldOrder g.parts) (bit g.opcodeBits 64) c).1
    writeTotal s j g c who [] = (writeLines a c (a.cell c).seq.gran g.off (toLines (d.take (d.length / 64 * 64))) (some who)).2 := by
  intro a d
  unfold writeTotal
  extract_lets ps regs lines
  rw [sumsFail_nil]
  rfl

/-- RD_SUM_TOTAL_WRITTEN with no physical fault, at a plumb that carries data. -/
theorem rdSumTotalWritten_law {c off tag : Nat} {s : State} {g : RedGroup} {j : Job}
    (ready : (netStep s).reds.find? (fun g => g.off == off && g.tag == tag && g.summed && sameOrder (netStep s) g &&
      ((netStep s).job? g.job).any fun j => physOf j g.dest == some c) = some g)
    (job : (netStep s).job? g.job = some j) (carries : plumbOpen (netStep s) c = true) :
    exec (.rdSumTotalWritten c off tag []) s = .next (netStep (dropGroup (writeTotal (netStep s) j g c
      (sumIssuer j.id ((foldOrder g.parts).headD ⟨c, [], 0, 0, 0, [], 0⟩)) []) g)) := by
  show execRdSumTotalWritten c off tag [] s = _
  unfold execRdSumTotalWritten
  have none_ : injectAll s [] = s := rfl
  dsimp only
  rw [none_, ready]
  dsimp only
  rw [job]
  dsimp only
  have struck (who : Issuer) : plumbFaults (netStep s) [c] (some who) [] = netStep s := rfl
  rw [struck, ite_self, carries]
  rfl

/-- Settles O20: a skipped RD.SUM and one that goes through, the groups' progress, and the writing of a total. When a unit has all the
lines it combines, and which record names a differing member, is the model's choice (log entry 46). -/
theorem reductionsGatherTheirMembers : Obligations.ReductionsGatherTheirMembers := by
  unfold Obligations.ReductionsGatherTheirMembers
  intro c ph s x h d v w i lines u off tag mine part opened
  refine ⟨fun ready skipped => rdSum_skipped ready skipped, ?_, fun alike => ?_, ?_⟩
  · intro ready going header good data clean way
    have run := rdSum_law ready going header good data clean way
    refine ⟨fun new => ?_, fun g old => ?_⟩
    · have first : w.reds.find? (joins x h) = none := new
      rw [gathered, first] at run
      exact run
    · have there : w.reds.find? (joins x h) = some g := old
      rw [gathered, there] at run
      exact run
  · intro still
    obtain ⟨reds, step, moved⟩ := netStep_law s alike
    rw [step]
    exact ⟨rfl, moved.still, fun b most => moved.xbar b (most b), fun r most => moved.router r (most r)⟩
  · intro off tag g j t ready job carries ps int sums total first
    have clamped := clamped_summedAt t j g c
    refine ⟨summedAt t j g c, clamped.rest, clamped.region, ?_⟩
    have here : g.off = off := by
      have found := List.find?_some ready
      simp only [Bool.and_eq_true, beq_iff_eq] at found
      exact found.1.1.1.1
    rw [rdSumTotalWritten_law ready job carries, writeTotal_nil, here]
    rfl

end Sys2Proof.Machine
end

section
/-! ### The matrix core's buffers and accumulator (R217, R218, R227, R228, R232) -/

namespace Sys2Proof.Machine

open Sys2Proof

/-! MM.LDW and MM.LDA (R227, R228, R635). -/

/-- Where every block of the operand verifies, a load writes the bytes read to its buffer. -/
theorem loadBuf_law {s u : State} {x : Ctx} {d : Bytes} (some_ : d ≠ [])
    (read : readMove s x x.oa (stashLen x.i x.o x.oa) (bound s x.c x.oa) = (d, true, u)) (ab : Bool) (off : Nat) :
    loadBuf s x ab off = writeBuf u x.c ab off d := by
  unfold loadBuf
  dsimp only
  rw [read]
  exact if_neg (by simpa using some_)

/-- A write gives back its bytes, and leaves every byte outside its range. -/
theorem Ram.write_law (m : Ram) (off : Nat) (d : Bytes) :
    Ram.read (Ram.write m off d) off d.length = d ∧
    ∀ a, (a < off ∨ off + d.length ≤ a) → (Ram.write m off d).get a = m.get a := by
  refine ⟨Ram.read_write_same m off d, fun a outside => ?_⟩
  rw [Ram.get_write, if_neg (by omega)]

/-- A write of a buffer leaves every other cell, and all else in the state. -/
theorem writeBuf_rest (s : State) (c : Nat) (ab : Bool) (off : Nat) (d : Bytes) :
    (∀ e, e ≠ c → (writeBuf s c ab off d).cell e = s.cell e) ∧ { writeBuf s c ab off d with cells := s.cells } = s :=
  ⟨fun _ other => (State.cell_updMm ..).trans (if_neg other.symm), rfl⟩

theorem writeBuf_weights (s : State) (c off : Nat) (d : Bytes) : let t := writeBuf s c false off d
    Ram.read (t.cell c).mm.wb off d.length = d ∧
    (∀ a, (a < off ∨ off + d.length ≤ a) → (t.cell c).mm.wb.get a = (s.cell c).mm.wb.get a) ∧
    { t.cell c with mm := { (t.cell c).mm with wb := (s.cell c).mm.wb, wbBad := (s.cell c).mm.wbBad } } = s.cell c := by
  intro t
  have written : (t.cell c).mm.wb = Ram.write (s.cell c).mm.wb off d := by simp [t, writeBuf]
  obtain ⟨back, elsewhere⟩ := Ram.write_law (s.cell c).mm.wb off d
  rw [written]
  exact ⟨back, elsewhere, by simp [t, writeBuf]⟩

theorem writeBuf_activations (s : State) (c off : Nat) (d : Bytes) : let t := writeBuf s c true off d
    Ram.read (t.cell c).mm.ab off d.length = d ∧
    (∀ a, (a < off ∨ off + d.length ≤ a) → (t.cell c).mm.ab.get a = (s.cell c).mm.ab.get a) ∧
    { t.cell c with mm := { (t.cell c).mm with ab := (s.cell c).mm.ab, abBad := (s.cell c).mm.abBad } } = s.cell c := by
  intro t
  have written : (t.cell c).mm.ab = Ram.write (s.cell c).mm.ab off d := by simp [t, writeBuf]
  obtain ⟨back, elsewhere⟩ := Ram.write_law (s.cell c).mm.ab off d
  rw [written]
  exact ⟨back, elsewhere, by simp [t, writeBuf]⟩

/-- Settles O9: the load is one write of its buffer, in the state that the verified read leaves. -/
theorem bufferLoadsFillTheBuffer : Obligations.BufferLoadsFillTheBuffer := by
  unfold Obligations.BufferLoadsFillTheBuffer
  intro c ph s u x d some_ read
  constructor
  · intro ready
    obtain ⟨-, -, -, rfl, -⟩ := readyCtx_some rfl ready
    have run : execMmLdw x.c ph s = .next _ := issue_ready _ ready
    rw [loadBuf_law some_ read] at run
    obtain ⟨back, elsewhere, core⟩ := writeBuf_weights u x.c (x.od.half * 16384 + x.od.start) d
    exact ⟨_, run, back, elsewhere, core, writeBuf_rest ..⟩
  · intro ready
    obtain ⟨-, -, -, rfl, -⟩ := readyCtx_some rfl ready
    have run : execMmLda x.c ph s = .next _ := issue_ready _ ready
    rw [loadBuf_law some_ read] at run
    obtain ⟨back, elsewhere, core⟩ := writeBuf_activations u x.c x.od.start d
    exact ⟨_, run, back, elsewhere, core, writeBuf_rest ..⟩

/-! MM.CLR (R232). -/

theorem cell_writeAcc (s : State) (c key v d : Nat) : (writeAcc s c key v).cell d = if c = d then
    { s.cell c with mm := { (s.cell c).mm with
      acc := sset (0 : Word) (s.cell c).mm.acc key (BitVec.ofNat 32 v)
      accBad := sdel (s.cell c).mm.accBad key } }
    else s.cell d := State.cell_updMm ..

/-- `t` is `s` but for the accumulator elements `keys` of cell `c`, which are 0. -/
structure AccZeroed (s t : State) (c : Nat) (keys : List Nat) : Prop where
  zero : ∀ n ∈ keys, sget (0 : Word) (t.cell c).mm.acc n = 0
  keeps : ∀ n ∉ keys, sget (0 : Word) (t.cell c).mm.acc n = sget (0 : Word) (s.cell c).mm.acc n ∧
    sget 0 (t.cell c).mm.accBad n = sget 0 (s.cell c).mm.accBad n
  core : { t.cell c with mm := { (t.cell c).mm with acc := (s.cell c).mm.acc, accBad := (s.cell c).mm.accBad } } = s.cell c
  cell : ∀ d, d ≠ c → t.cell d = s.cell d
  rest : { t with cells := s.cells } = s

theorem AccZeroed.refl (s : State) (c : Nat) : AccZeroed s s c [] :=
  ⟨fun _ mem => absurd mem List.not_mem_nil, fun _ _ => ⟨rfl, rfl⟩, rfl, fun _ _ => rfl, rfl⟩

theorem AccZeroed.trans {s t u : State} {c : Nat} {keys more : List Nat} (h : AccZeroed s t c keys) (k : AccZeroed t u c more) :
    AccZeroed s u c (keys ++ more) where
  zero n mem := by
    by_cases again : n ∈ more
    · exact k.zero n again
    · rw [(k.keeps n again).1]
      exact h.zero n ((List.mem_append.mp mem).resolve_right again)
  keeps n out := by
    obtain ⟨acc, accBad⟩ := h.keeps n fun mem => out (List.mem_append_left _ mem)
    obtain ⟨acc', accBad'⟩ := k.keeps n fun mem => out (List.mem_append_right _ mem)
    exact ⟨acc'.trans acc, accBad'.trans accBad⟩
  core := (congrArg (fun y : CellSt => { y with mm := { y.mm with
    acc := (s.cell c).mm.acc, accBad := (s.cell c).mm.accBad } }) k.core).trans h.core
  cell d other := (k.cell d other).trans (h.cell d other)
  rest := (congrArg (fun y : State => { y with cells := s.cells }) k.rest).trans h.rest

theorem accZeroed_writeAcc (s : State) (c key : Nat) : AccZeroed s (writeAcc s c key 0) c [key] where
  zero n mem := by simp [cell_writeAcc, (List.mem_singleton.mp mem).symm]
  keeps n out := by
    have other : key ≠ n := fun here => out (List.mem_singleton.mpr here.symm)
    simp [cell_writeAcc, sget_sdel, other]
  core := by simp [cell_writeAcc]
  cell d other := (cell_writeAcc ..).trans (if_neg other.symm)
  rest := rfl

theorem accZeroed_foldl (c : Nat) (keys : List Nat) (s : State) :
    AccZeroed s (keys.foldl (fun s key => writeAcc s c key 0) s) c keys := by
  induction keys generalizing s with
  | nil => exact .refl s c
  | cons key keys ih => exact (accZeroed_writeAcc s c key).trans (ih _)

/-- The elements of the first `n` rows of a run from tile `first` on. -/
def rowKeys (run : List Nat) (first n : Nat) : List Nat :=
  (List.range n).flatMap fun k => (List.range 16).map fun e => accKey run (first + k / 16) (k % 16 * 16 + e)

theorem mem_rowKeys {run : List Nat} {first n key : Nat} :
    key ∈ rowKeys run first n ↔ ∃ k e, k < n ∧ e < 16 ∧ accKey run (first + k / 16) (k % 16 * 16 + e) = key := by
  simp [rowKeys]

theorem accZeroed_clearRows (s : State) (c : Nat) (run : List Nat) (first n : Nat) :
    AccZeroed s (clearRows s c run first n) c (rowKeys run first n) := by
  have flat : clearRows s c run first n = (rowKeys run first n).foldl (fun s key => writeAcc s c key 0) s := by
    simp only [clearRows, rowKeys, List.foldl_flatMap, List.foldl_map]
  rw [flat]
  exact accZeroed_foldl ..

/-! The issue of an instruction leaves matrix cores, banks and the bounds of operands. -/

theorem mm_issued (s : State) (x : Ctx) (c : Nat) : ((issued s x []).cell c).mm = (s.cell c).mm := by
  rw [(traced_issued s x).cell, cell_movedOn]
  split_ifs with here
  · rw [here]
  · rfl

theorem runBanks_issued (s : State) (x : Ctx) (c : Nat) : runBanks (issued s x []) c = runBanks s c := by
  have plan : (issued s x []).plan = s.plan := (congrArg State.plan (traced_issued s x).rest :)
  have banks : ((issued s x []).cell c).seq.banks = (s.cell c).seq.banks := by
    rw [(traced_issued s x).cell, cell_movedOn]
    split_ifs with here
    · rw [here]
    · rfl
  unfold runBanks
  rw [cellPlan_of_plan plan, banks]

theorem bound_issued (s : State) (x : Ctx) (c : Nat) (o : Opnd) : bound (issued s x []) c o = bound s c o := by
  unfold bound
  rw [extOf_issued]

/-- Settles O10: the rows are cleared one element at a time, in the state after issue. -/
theorem clearZeroesTheRowsInPlay : Obligations.ClearZeroesTheRowsInPlay := by
  unfold Obligations.ClearZeroesTheRowsInPlay
  intro c s x ready run rows key
  have ran : execMmClr c s = .next _ := issue_ready_nil _ ready
  rw [runBanks_issued, bound_issued] at ran
  obtain ⟨zero, keeps, core, cell, rest⟩ := accZeroed_clearRows (issued s x []) c run x.od.first rows
  rw [mm_issued] at keeps core
  obtain ⟨-, -, -, rfl, -⟩ := readyCtx_some rfl ready
  refine ⟨_, ran, fun k e row col => zero _ (mem_rowKeys.mpr ⟨k, e, row, col, rfl⟩), fun n out => keeps n fun mem => ?_, core,
    fun d other => ?_, rest⟩
  · obtain ⟨k, e, row, col, here⟩ := mem_rowKeys.mp mem
    exact out k e row col here.symm
  · rw [cell d other, (traced_issued s x).cell, cell_movedOn, if_neg other]

/-! Accumulation (R217, R218, R279, R280). -/

/-- A clamp of an integer is counted. -/
def countClamp (s : State) (c : Nat) (clamped : Bool) : State :=
  if clamped then s.updMisc c fun m => { m with intSat := sat16 m.intSat 1 } else s

theorem cell_countClamp (s : State) (c : Nat) (clamped : Bool) (d : Nat) : (countClamp s c clamped).cell d = if c = d then
    { s.cell c with misc := { (s.cell c).misc with
      intSat := if clamped then sat16 (s.cell c).misc.intSat 1 else (s.cell c).misc.intSat } }
    else s.cell d := by
  by_cases here : c = d
  · subst here
    cases clamped <;> simp [countClamp]
  · cases clamped <;> simp [countClamp, here]

theorem countClamp_rest (s : State) (c : Nat) (clamped : Bool) : { countClamp s c clamped with cells := s.cells } = s := by
  cases clamped <;> rfl

theorem readAcc_intact {s : State} {x : Ctx} {key : Nat} (intact : sget 0 (s.cell x.c).mm.accBad key = 0) :
    readAcc s x key = (some (sget (0 : Word) (s.cell x.c).mm.acc key).toNat, s) :=
  if_pos (by simpa using intact)

/-- An intact element takes its sum or its replacement, and a clamp of an integer is counted. -/
theorem accumulate_intact {s : State} {x : Ctx} {key : Nat} (intact : sget 0 (s.cell x.c).mm.accBad key = 0)
    (int ovw : Bool) (out : Nat) (iout : Int) :
    let old := (sget (0 : Word) (s.cell x.c).mm.acc key).toNat
    let r := clamp32 ((if ovw then 0 else signed 32 old) + iout)
    accumulate s x key int ovw out iout =
      (true, countClamp (writeAcc s x.c key (if int then r.1 else if ovw then out else addF32 old out)) x.c (int && r.2)) := by
  cases ovw with
  | true => cases int <;> rfl
  | false =>
    unfold accumulate
    rw [readAcc_intact intact]
    cases int <;> rfl

/-- Settles O12: an intact element is read as it stands, so the sum or replacement is the one write, beside the count of a clamp. -/
theorem accumulatingAddsOrReplaces : Obligations.AccumulatingAddsOrReplaces := by
  unfold Obligations.AccumulatingAddsOrReplaces
  intro s x key out iout int ovw intact old r t
  have law := accumulate_intact intact int ovw out iout
  set v := if int then r.1 else if ovw then out else addF32 old out
  have written : t = countClamp (writeAcc s x.c key v) x.c (int && r.2) := congrArg Prod.snd law
  have here := (cell_countClamp (writeAcc s x.c key v) x.c (int && r.2) x.c).trans (if_pos rfl)
  rw [cell_writeAcc, if_pos rfl] at here
  rw [written, here]
  refine ⟨congrArg Prod.fst law, (sget_sset ..).trans (if_pos rfl), fun n other => (sget_sset ..).trans (if_neg other.symm), rfl, rfl, rfl,
    fun d other => ?_, ?_⟩
  · rw [cell_countClamp, if_neg other.symm, cell_writeAcc, if_neg other.symm]
  · exact congrArg (fun u : State => { u with cells := s.cells }) (countClamp_rest (writeAcc s x.c key v) x.c (int && r.2))

end Sys2Proof.Machine
end

section
/-! ### The element-wise vector instructions (R285, R302, R304 to R306) -/

namespace Sys2Proof.Machine

open Sys2Proof

/-- What the vector rows have in common: with no live element the state `v` stands, else the first `n` elements of `w` bits at OPA are
read, and what `k` does with them follows where the read succeeds. -/
def overElems (v : State) (x : Ctx) (w n : Nat) (k : List Nat → State → State) : State :=
  if n == 0 then v
  else match readElems v x x.oa w n with
    | (none, t) => t
    | (some as, t) => k as t

theorem overElems_zero {n : Nat} (none_ : n = 0) (v : State) (x : Ctx) (w : Nat) (k : List Nat → State → State) :
    overElems v x w n k = v :=
  if_pos (by simpa using none_)

theorem overElems_some {v t : State} {x : Ctx} {w n : Nat} {as : List Nat} (live : n ≠ 0)
    (read : readElems v x x.oa w n = (some as, t)) (k : List Nat → State → State) : overElems v x w n k = k as t := by
  unfold overElems
  rw [if_neg (by simpa using live), read]

/-- A row that goes over its elements counts the tiles it skips where none is live, and works on them where they are read. -/
theorem exec_overElems {row : Instr} {s v : State} {x : Ctx} {w n : Nat} {k : List Nat → State → State}
    (run : exec row s = .next (overElems v x w n k)) :
    (n = 0 → exec row s = .next v) ∧
    (n ≠ 0 → ∀ as t, readElems v x x.oa w n = (some as, t) → exec row s = .next (k as t)) :=
  ⟨fun none_ => run.trans (congrArg _ (overElems_zero none_ ..)),
    fun live _ _ read => run.trans (congrArg _ (overElems_some live read k))⟩

/-- The rest of an element-wise instruction of two operands, once the elements `as` of A are read. -/
def withSecond (x : Ctx) (f : Val → Val → Val) (n : Nat) (as : List Nat) (s : State) : State :=
  let (bs, s) := if x.ob.space == litSpace then (some (List.replicate n x.ob.v), s) else readElems s x x.ob (fmtWidth x.i.a) n
  match bs with
  | none => s
  | some bs => writeVals s x x.i.d (List.zipWith (fun a b => f (decodeElem x.i.a a) (decodeElem x.i.a b)) as bs)

theorem elementwise_eq (u : State) (x : Ctx) (f : Val → Val → Val) : let wa := fmtWidth x.i.a
    let n := liveCount u x wa wa (fmtWidth x.i.d)
    elementwise u x f = overElems (skipTiles u x wa n) x wa n (withSecond x f n) := rfl

/-- B is the literal, or read from the stash (R299). -/
theorem withSecond_law {x : Ctx} {n : Nat} {bs : List Nat} {s t : State}
    (second : x.ob.space = litSpace ∧ bs = List.replicate n x.ob.v ∧ t = s ∨
      x.ob.space ≠ litSpace ∧ readElems s x x.ob (fmtWidth x.i.a) n = (some bs, t)) (f : Val → Val → Val) (as : List Nat) :
    withSecond x f n as s =
      writeVals t x x.i.d (List.zipWith (fun a b => f (decodeElem x.i.a a) (decodeElem x.i.a b)) as bs) := by
  unfold withSecond
  rcases second with ⟨literal, rfl, rfl⟩ | ⟨stash, read⟩
  · rw [if_pos (by simpa using literal)]
  · rw [if_neg (by simpa using stash), read]

section
variable {c : Nat} {ph : List Phys} {s : State} {x : Ctx}

/-- A row that issues an element-wise instruction of two operands. -/
theorem exec_elementwise {row : Instr} {op : Nat} {f : Val → Val → Val} (ready : readyCtx op c ph s = some x)
    (arm : exec row s = issue op c ph s fun x s => elementwise s x f) : let u := issued (injectAll s ph) x ph
    let i := x.i
    let wa := fmtWidth i.a
    let n := liveCount u x wa wa (fmtWidth i.d)
    let v := skipTiles u x wa n
    (n = 0 → exec row s = .next v) ∧
    (n ≠ 0 → ∀ as bs v1 v2, readElems v x x.oa wa n = (some as, v1) →
      (x.ob.space = litSpace ∧ bs = List.replicate n x.ob.v ∧ v2 = v1 ∨
        x.ob.space ≠ litSpace ∧ readElems v1 x x.ob wa n = (some bs, v2)) →
      exec row s = .next (writeVals v2 x i.d (List.zipWith (fun a b => f (decodeElem i.a a) (decodeElem i.a b)) as bs))) := by
  intro u i wa n v
  have run : exec row s = .next (elementwise u x f) := arm.trans (issue_ready _ ready)
  obtain ⟨skipped, works⟩ := exec_overElems (elementwise_eq u x f ▸ run)
  exact ⟨skipped, fun live as _ v1 _ first second =>
    (works live as v1 first).trans (congrArg _ (withSecond_law second f as))⟩

/-- VX.FMA (R304): A, B and D are read one after the other. -/
theorem vxFma_law (ready : readyCtx 0x32 c ph s = some x) : let u := issued (injectAll s ph) x ph
    let i := x.i
    let wa := fmtWidth i.a
    let n := liveCount u x wa wa (fmtWidth i.d)
    let v := skipTiles u x wa n
    (n = 0 → exec (.vxFma c ph) s = .next v) ∧
    (n ≠ 0 → ∀ as bs ds v1 v2 v3, readElems v x x.oa wa n = (some as, v1) → readElems v1 x x.ob wa n = (some bs, v2) →
      readElems v2 x x.od (fmtWidth i.d) n = (some ds, v3) →
      exec (.vxFma c ph) s = .next (writeVals v3 x i.d (List.zipWith (fun p d => p.add (decodeElem i.d d))
        (List.zipWith (fun a b => (decodeElem i.a a).mul (decodeElem i.a b)) as bs) ds))) := by
  intro u i wa n v
  have run : execVxFma c ph s = .next (overElems v x wa n _) := issue_ready _ ready
  obtain ⟨skipped, works⟩ := exec_overElems (row := .vxFma c ph) run
  refine ⟨skipped, fun live as bs ds v1 v2 v3 first second third => (works live as v1 first).trans (congrArg _ ?_)⟩
  dsimp only
  rw [second]
  dsimp only
  rw [third]

/-- VX.CVT (R285). -/
theorem vxCvt_run (ready : readyCtx 0x39 c ph s = some x) : let u := issued (injectAll s ph) x ph
    let wa := fmtWidth x.i.a
    let n := liveCount u x wa wa (fmtWidth x.i.d)
    exec (.vxCvt c ph) s = .next (overElems (skipTiles u x wa n) x wa n fun as t =>
      writeVals t x (cvtFmt x.i.x x.i.d) (as.map (decodeElem (cvtFmt x.i.x x.i.a)))) := by
  have run : execVxCvt c ph s = .next _ := issue_ready _ ready
  exact run

/-- VX.SFU (R306). -/
theorem vxSfu_run (ready : readyCtx 0x34 c ph s = some x) : let u := issued (injectAll s ph) x ph
    let wa := fmtWidth x.i.a
    let n := liveCount u x wa wa (fmtWidth x.i.d)
    exec (.vxSfu c ph) s = .next (overElems (skipTiles u x wa n) x wa n fun as t =>
      writeVals t x x.i.d (as.map fun a => ofF32 (sfuFn x.i.fn (toF32 (decodeElem x.i.a a))))) := by
  have run : execVxSfu c ph s = .next _ := issue_ready _ ready
  exact run

end

/-- Settles O13: VX.ADD, VX.MUL and VX.MAX are one operation with three functions of two values, VX.CVT and VX.SFU go over the elements
of A alone, and VX.FMA reads D as a third operand. Clauses that are the model's choice: which value within the error bound VX.SFU gives (log
entry 3), and how many 6-bit elements there are where the operand holds no whole number of them (log entry 68). -/
theorem elementwiseInstructionsCompute : Obligations.ElementwiseInstructionsCompute := by
  unfold Obligations.ElementwiseInstructionsCompute
  intro c ph s x
  exact ⟨fun ready => exec_elementwise (row := .vxAdd c ph) ready rfl,
    fun ready => exec_elementwise (row := .vxMul c ph) ready rfl,
    fun ready => exec_elementwise (row := .vxMax c ph) ready rfl,
    fun ready => exec_overElems (vxCvt_run ready), fun ready => exec_overElems (vxSfu_run ready), vxFma_law⟩

end Sys2Proof.Machine
end

section
/-! ### The larger of two values, and the order of pairs (R304, R311, R312) -/

namespace Sys2Proof.Machine

open Sys2Proof

/-! The larger of two values (R304). -/

theorem Val.lt_irrefl (a : Val) : a.lt a = false := by
  cases a with
  | nan => rfl
  | inf neg => cases neg <;> rfl
  | fin neg m e => simp [Val.lt]

theorem Val.lt_asymm {a b : Val} (less : a.lt b = true) : b.lt a = false := by
  cases a with
  | nan => cases less
  | inf neg => cases b <;> simp_all [Val.lt]
  | fin neg m e =>
    cases b with
    | nan => rfl
    | inf neg' => simp_all [Val.lt]
    | fin neg' n f =>
      simp only [Val.lt, decide_eq_true_eq, decide_eq_false_iff_not, min_comm f e] at less ⊢
      omega

/-- Of two numbers the maximum is the second where the first is less, the first where the second is; of equals it is either. -/
theorem Val.max_eq {a b : Val} (ha : a ≠ .nan) (hb : b ≠ .nan) :
    (Val.max a b = a ∧ a.lt b = false) ∨ (Val.max a b = b ∧ b.lt a = false) := by
  unfold Val.max
  split
  case h_1 => exact absurd rfl ha
  case h_2 => exact absurd rfl hb
  case h_3 =>
    split_ifs with less more
    · exact .inr ⟨rfl, Val.lt_asymm less⟩
    · exact .inl ⟨rfl, by simpa using less⟩
    · split
      · exact .inr ⟨rfl, by simpa using more⟩
      · exact .inl ⟨rfl, by simpa using less⟩

theorem Val.max_nan {a b : Val} (lost : a = .nan ∨ b = .nan) : Val.max a b = .nan := by
  rcases lost with rfl | rfl
  · rfl
  · cases a <;> rfl

/-- Settles O14: the maximum is one of its arguments, and no argument is less than itself. -/
theorem largerOfTwoValues : Obligations.LargerOfTwoValues := by
  unfold Obligations.LargerOfTwoValues
  intro a b
  refine ⟨⟨Val.max_nan, fun lost => ?_⟩, fun ha hb => ?_, fun e f => ?_⟩
  · by_contra! numbers
    obtain ⟨ha, hb⟩ := numbers
    rcases Val.max_eq ha hb with ⟨first, -⟩ | ⟨second, -⟩
    · exact ha (first.symm.trans lost)
    · exact hb (second.symm.trans lost)
  · rcases Val.max_eq ha hb with ⟨first, order⟩ | ⟨second, order⟩
    · rw [first]
      exact ⟨.inl rfl, Val.lt_irrefl a, order⟩
    · rw [second]
      exact ⟨.inr rfl, order, Val.lt_irrefl b⟩
  · simp [Val.max, Val.lt, scaled]

/-! The order of pairs (R311, R312). -/

theorem pairFirst_iff {f : Nat} {down : Bool} {a b : Pair} : pairFirst f down a b = true ↔
    (if down then keyRank f b.1 < keyRank f a.1 else keyRank f a.1 < keyRank f b.1) ∨
    (keyRank f a.1 = keyRank f b.1 ∧ a.2 ≤ b.2) := by
  unfold pairFirst
  by_cases same : keyRank f a.1 = keyRank f b.1
  · simp [same]
  · cases down <;> simp [same]

theorem pairFirst_total (f : Nat) (down : Bool) : Std.Total (fun a b : Pair => pairFirst f down a b = true) :=
  ⟨fun a b => by
    simp only [pairFirst_iff]
    cases down <;> simp only [Bool.false_eq_true, if_false, if_true] <;> omega⟩

theorem pairFirst_trans (f : Nat) (down : Bool) : IsTrans Pair (fun a b => pairFirst f down a b = true) :=
  ⟨fun a b c => by
    simp only [pairFirst_iff]
    cases down <;> simp only [Bool.false_eq_true, if_false, if_true] <;> omega⟩

theorem insertPair_eq (f : Nat) (down : Bool) (p : Pair) (ps : List Pair) :
    insertPair f down p ps = ps.orderedInsert (fun a b => pairFirst f down a b = true) p := by
  induction ps with
  | nil => rfl
  | cons q qs ih => simp only [insertPair, List.orderedInsert_cons, ih]

/-- The model's order of pairs is the library's insertion sort. -/
theorem sortPairs_eq (f : Nat) (down : Bool) (ps : List Pair) :
    sortPairs f down ps = ps.insertionSort (fun a b => pairFirst f down a b = true) := by
  induction ps with
  | nil => rfl
  | cons p ps ih => exact (insertPair_eq f down p _).trans (congrArg _ ih)

/-- An insertion sort keeps the input order of elements any two of which may stand in either order. -/
theorem filter_insertionSort {α : Type} {r : α → α → Prop} [DecidableRel r] [Std.Total r] [IsTrans α r] {p : α → Bool}
    (equal : ∀ a b, p a = true → p b = true → r a b) (l : List α) : (l.insertionSort r).filter p = l.filter p := by
  have ordered : (l.filter p).Pairwise r :=
    List.pairwise_of_forall_mem_list fun a ha b hb => equal a b (List.of_mem_filter ha) (List.of_mem_filter hb)
  have kept : (l.filter p).Sublist ((l.insertionSort r).filter p) := by
    simpa using (List.sublist_insertionSort ordered List.filter_sublist).filter p
  exact (kept.eq_of_length ((List.perm_insertionSort r l).filter p).length_eq.symm).symm

/-- Settles O15: the sort is an insertion sort by a total and transitive order, in which pairs of equal key and payload stand either way. -/
theorem sortingOrdersThePairs : Obligations.SortingOrdersThePairs := by
  unfold Obligations.SortingOrdersThePairs
  intro f down ps
  have := pairFirst_total f down
  have := pairFirst_trans f down
  rw [sortPairs_eq]
  refine ⟨List.perm_insertionSort .., (List.pairwise_insertionSort _ ps).imp pairFirst_iff.mp, fun k p => ?_⟩
  refine filter_insertionSort (fun a b ha hb => pairFirst_iff.mpr (.inr ?_)) ps
  simp only [Bool.and_eq_true, beq_iff_eq] at ha hb
  exact ⟨ha.1.trans hb.1.symm, (ha.2.trans hb.2.symm).le⟩

end Sys2Proof.Machine
end

section
/-! ### The vector instructions on pairs, bitmaps and reductions (R308 to R318) -/

namespace Sys2Proof.Machine

open Sys2Proof

section
variable {c : Nat} {ph : List Phys} {s : State} {x : Ctx}

/-- VX.SORT (R313). -/
theorem vxSort_run (ready : readyCtx 0x35 c ph s = some x) : let u := issued (injectAll s ph) x ph
    let n := liveCount u x 64 64 64
    exec (.vxSort c ph) s = .next (overElems (skipTiles u x 64 n) x 64 n fun as t =>
      writeResults t x (pairBytes (sortPairs x.i.a x.i.x (as.map toPair)))) := by
  have run : execVxSort c ph s = .next _ := issue_ready _ ready
  exact run

/-- VX.HASH (R317). -/
theorem vxHash_run (ready : readyCtx 0x37 c ph s = some x) : let u := issued (injectAll s ph) x ph
    let wa := fmtWidth x.i.a
    let n := liveCount u x wa wa 32
    exec (.vxHash c ph) s = .next (overElems (skipTiles u x wa n) x wa n fun as t =>
      writeResults t x (as.flatMap fun a => leBytes 4 (if x.i.x then mixer a else crc32c (leBytes (wa / 8) a)))) := by
  have run : execVxHash c ph s = .next _ := issue_ready _ ready
  exact run

/-! VX.RED (R308): its function code gives the width of a result and the reduction. -/

/-- Bits of a result at OPD for each element read, by function code. -/
def redWidth (i : Ins) (fn : Nat) : Nat :=
  match fn with | 1 => fmtWidth i.d | 2 => fmtWidth i.d | 5 => 512 | 6 => 64 | _ => 32

/-- The reduction of a function code, on elements that were read. -/
def reduce (fn : Nat) (x : Ctx) (as : List Nat) (t : State) : State :=
  let i := x.i
  match fn with
  | 0 => writeVals t x 0 [Val.sum (as.map (decodeElem i.a))]
  | 1 => writeVals t x i.d [(as.drop 1).foldl (fun m a => m.max (decodeElem i.a a)) (decodeElem i.a (as.headD 0))]
  | 2 => writeVals t x i.d [(as.drop 1).foldl (fun m a => m.min (decodeElem i.a a)) (decodeElem i.a (as.headD 0))]
  | 3 => writeResults t x (leBytes 4 (as.foldl (· + ·) 0))
  | 4 => writeResults t x
    ((histogram (if x.od.lenKib = 0 then 16 else 256 * x.od.lenKib) (as.map toPair)).flatMap (leBytes 4))
  | 5 => writeResults t x
    ((histogram (if x.od.lenKib = 0 then 16 else 16 * x.od.lenKib) (as.map toPair)).flatMap (leBytes 64))
  | 6 => writeResults t x (pairBytes (rankPairs (as.map toPair)))
  | _ => writeResults t x (as.flatMap fun b => leBytes 4 (if b = 1 then 0 else 0x7F800000))

/-- A VX.RED of function code `fn` goes over its elements and reduces them. -/
theorem vxRed_law {fn : Nat} (code : x.i.fn = fn) (ready : readyCtx 0x3A c ph s = some x) :
    let u := issued (injectAll s ph) x ph
    let wa := vWidth x.i
    let n := liveCount u x wa wa (redWidth x.i fn)
    (n = 0 → exec (.vxRed c ph) s = .next (skipTiles u x wa n)) ∧
    (n ≠ 0 → ∀ as t, readElems (skipTiles u x wa n) x x.oa wa n = (some as, t) →
      exec (.vxRed c ph) s = .next (reduce fn x as t)) := by
  subst code
  have run : execVxRed c ph s = .next _ := issue_ready _ ready
  simp only [beq_iff_eq (b := 0) (a := x.od.lenKib), beq_iff_eq (b := 1)] at run
  exact exec_overElems run

theorem redWidth_of_seven_le {i : Ins} {fn : Nat} (high : 7 ≤ fn) : redWidth i fn = 32 := by
  obtain ⟨k, rfl⟩ := Nat.exists_eq_add_of_le' high
  rfl

theorem reduce_of_seven_le {fn : Nat} (high : 7 ≤ fn) (x : Ctx) (as : List Nat) (t : State) : reduce fn x as t =
    writeResults t x (as.flatMap fun b => leBytes 4 (if b = 1 then 0 else 0x7F800000)) := by
  obtain ⟨k, rfl⟩ := Nat.exists_eq_add_of_le' high
  rfl

/-- MASKINF, the code above RANK. -/
theorem vxRed_maskinf (high : 7 ≤ x.i.fn) (ready : readyCtx 0x3A c ph s = some x) : let u := issued (injectAll s ph) x ph
    let wa := vWidth x.i
    let n := liveCount u x wa wa 32
    (n = 0 → exec (.vxRed c ph) s = .next (skipTiles u x wa n)) ∧
    (n ≠ 0 → ∀ as t, readElems (skipTiles u x wa n) x x.oa wa n = (some as, t) →
      exec (.vxRed c ph) s = .next
        (writeResults t x (as.flatMap fun b => leBytes 4 (if b = 1 then 0 else 0x7F800000)))) := by
  have law := vxRed_law rfl ready
  simpa only [redWidth_of_seven_le high, reduce_of_seven_le high] using law

/-! VX.BMAP (R318): comparisons below function code 4, INSET at 4, logic of two bitmaps above. -/

theorem vxBmap_compares (low : x.i.fn < 4) (ready : readyCtx 0x38 c ph s = some x) : let u := issued (injectAll s ph) x ph
    let i := x.i
    let wa := vWidth i
    let n := liveCount u x wa 1 1
    (n = 0 → exec (.vxBmap c ph) s = .next (skipTiles u x wa n)) ∧
    (n ≠ 0 → ∀ as t, readElems (skipTiles u x wa n) x x.oa wa n = (some as, t) →
      exec (.vxBmap c ph) s = .next (writeResults t x
        (packElems 1 (as.map fun a => b2n (compareVal i.fn (decodeElem i.a a) (decodeElem i.a i.opb)))))) := by
  have run : execVxBmap c ph s = .next _ := issue_ready _ ready
  simp only [if_pos low] at run
  exact exec_overElems run

theorem vxBmap_combines (high : 4 ≤ x.i.fn) (ready : readyCtx 0x38 c ph s = some x) : let u := issued (injectAll s ph) x ph
    let i := x.i
    let wa := vWidth i
    let n := liveCount u x wa 1 1
    let two (f : Nat → Nat → Nat) (as bs : List Nat) : Bytes := packElems 1 (List.zipWith f as bs)
    (n = 0 → exec (.vxBmap c ph) s = .next (skipTiles u x wa n)) ∧
    (n ≠ 0 → ∀ as bs v w, readElems (skipTiles u x wa n) x x.oa wa n = (some as, v) →
      (i.fn = 4 ∧ readSet v x = (some bs, w) ∨ i.fn ≠ 4 ∧ readElems v x x.ob 1 n = (some bs, w)) →
      exec (.vxBmap c ph) s = .next (writeResults w x (
        if i.fn = 4 then packElems 1 (as.map fun a => bs.getD a 0) else if i.fn = 5 then two (· * ·) as bs
        else if i.fn = 6 then two max as bs else two (fun a b => a * (1 - b)) as bs))) := by
  intro u i wa n two
  have run : execVxBmap c ph s = .next (overElems (skipTiles u x wa n) x wa n _) := issue_ready _ ready
  obtain ⟨skipped, works⟩ := exec_overElems (row := .vxBmap c ph) run
  refine ⟨skipped, fun live as bs v w first second => (works live as v first).trans (congrArg _ ?_)⟩
  dsimp only
  rw [if_neg (Nat.not_lt.mpr high)]
  rcases second with ⟨set, read⟩ | ⟨logic, read⟩
  · simp only [show x.i.fn = 4 from set, beq_self_eq_true, if_true, read, i]
  · have other : (x.i.fn == 4) = false := by simpa using logic
    rw [other, if_neg Bool.false_ne_true, read, if_neg logic]
    by_cases five : x.i.fn = 5
    · simp [i, two, five]
    · by_cases six : x.i.fn = 6 <;> simp [i, two, five, six]

/-! VX.TOPK (R314 to R316). -/

theorem vxTopk_law (ready : readyCtx 0x36 c ph s = some x) : let u := issued (injectAll s ph) x ph
    let i := x.i
    let w := if bit i.opb 10 then 32 else 64
    let n := liveCount u x w w 64
    (n = 0 → exec (.vxTopk c ph) s = .next (skipTiles u x w n)) ∧
    (n ≠ 0 → ∀ as old v z, readElems (skipTiles u x w n) x x.oa w n = (some as, v) →
      (i.x = false ∧ old = [] ∧ z = v ∨ i.x = true ∧ readTopList v x = (some old, z)) →
      let base := if bit i.opb 11 then 0 else bits i.opb 31 16 * 1024
      let new := if bit i.opb 10 then as.zipIdx.map (fun e => (e.1, (base + e.2) % 2 ^ 32)) else as.map toPair
      let best := (sortPairs i.a (!bit i.opb 9) (old ++ new)).take (bits i.opb 8 0)
      let fill := skipPairs z ((8 - best.length % 8) % 8)
      exec (.vxTopk c ph) s = .next (
        if bit i.opb 11 then writeResults fill.2 x (pairBytes (best.map (fun p => (p.2 % 65536, bits i.opb 31 16)) ++ fill.1))
        else writeResults z x (leBytes 64 best.length ++ pairBytes best))) := by
  intro u i w n
  have run : execVxTopk c ph s = .next (overElems (skipTiles u x w n) x w n _) := issue_ready _ ready
  obtain ⟨skipped, works⟩ := exec_overElems (row := .vxTopk c ph) run
  refine ⟨skipped, fun live as old v z first list => (works live as v first).trans (congrArg _ ?_)⟩
  have listed : (if x.i.x = true then readTopList v x else (some [], v)) = (some old, z) := by
    rcases list with ⟨fresh, rfl, rfl⟩ | ⟨merges, read⟩
    · exact if_neg (by simpa using fresh)
    · exact (if_pos merges).trans read
  dsimp only
  rw [listed]

end

/-- Settles O16: each instruction goes over its elements, so with none live it counts the tiles it skips and else works on what it read.
Clauses that are the model's choice: the extents of HIST and HISTL at 32 and 512 bits a pair (log entry 68, DESIGN CHOICE), and BASE 0 and
the free ROW of the skip pairs of a routing VX.TOPK (log entry 45, DEDUCED). -/
theorem pairInstructionsCompute : Obligations.PairInstructionsCompute := by
  unfold Obligations.PairInstructionsCompute
  intro c ph s x
  exact ⟨fun ready => exec_overElems (vxSort_run ready), fun ready => exec_overElems (vxHash_run ready),
    vxRed_law, vxRed_law, vxRed_law, vxRed_law, vxRed_law, vxRed_law, vxRed_law, vxRed_maskinf,
    vxBmap_compares, vxBmap_combines, vxTopk_law⟩

end Sys2Proof.Machine
end

section
/-! ### Proof tiles, gather and scatter (R325 to R327, R330 to R336) -/

namespace Sys2Proof.Machine

open Sys2Proof

/-! Proof tiles (R330 to R336). -/

theorem cell_proofPassed (s : State) (c n d : Nat) : (proofPassed s c n).cell d = if c = d then
    { s.cell c with misc := { (s.cell c).misc with
      prfLast := n, prfPass := true, prfBase := (s.region (regionOf c)).pw.liveTicks,
      prfCount := sat32 (s.cell c).misc.prfCount 1 } }
    else s.cell d := State.cell_updMisc ..

theorem cell_nextProof (s : State) (c d : Nat) : (nextProof s c).2.cell d = if c = d then
    { s.cell c with misc := { (s.cell c).misc with prfNext := ((s.cell c).misc.prfNext + 1) % proofCount c } }
    else s.cell d := State.cell_updMisc ..

theorem proofPassed_rest (s : State) (c n : Nat) : { proofPassed s c n with cells := s.cells } = s := rfl

theorem nextProof_rest (s : State) (c : Nat) : { (nextProof s c).2 with cells := s.cells } = s := rfl

/-- `t` is `u` with proof `n` of cell `c` noted as passed, and the rotation moved on where `next`. -/
structure ProofNoted (u t : State) (c n : Nat) (next : Bool) : Prop where
  here : t.cell c = { u.cell c with misc := { (u.cell c).misc with
    prfLast := n, prfPass := true, prfBase := (u.region (regionOf c)).pw.liveTicks,
    prfCount := sat32 (u.cell c).misc.prfCount 1,
    prfNext := if next then ((u.cell c).misc.prfNext + 1) % proofCount c else (u.cell c).misc.prfNext } }
  other : ∀ d, d ≠ c → t.cell d = u.cell d
  rest : { t with cells := u.cells } = u

theorem proofNoted_named (u : State) (c n : Nat) : ProofNoted u (proofPassed u c n) c n false where
  here := (cell_proofPassed ..).trans (if_pos rfl)
  other _ apart := (cell_proofPassed ..).trans (if_neg apart.symm)
  rest := proofPassed_rest u c n

theorem proofNoted_next (u : State) (c n : Nat) : ProofNoted u (proofPassed (nextProof u c).2 c n) c n true where
  here := by simp [cell_proofPassed, nextProof]
  other d apart := by simp [cell_proofPassed, cell_nextProof, apart.symm]
  rest := (congrArg (fun y : State => { y with cells := u.cells }) (proofPassed_rest (nextProof u c).2 c n)).trans (nextProof_rest u c)

theorem prfNext_issued (s : State) (x : Ctx) (c : Nat) :
    ((issued s x []).cell c).misc.prfNext = (s.cell c).misc.prfNext := by
  rw [(traced_issued s x).cell, cell_movedOn]
  split_ifs with here
  · rw [here]
  · rfl

/-- VX.PROOF runs the proof of its NUMBER, or the next in rotation (R330). -/
theorem vxProof_law {c : Nat} {s : State} {x : Ctx} (ready : readyCtx 0x3B c [] s = some x) :
    ∃ t, exec (.vxProof c []) s = .next t ∧ ProofNoted (issued s x []) t c
      (if bit x.i.opb 4 then (s.cell c).misc.prfNext else x.i.opb % 16) (bit x.i.opb 4) := by
  have run : execVxProof c [] s = .next _ := issue_ready_nil _ ready
  rw [← prfNext_issued s x c]
  cases next : bit x.i.opb 4 with
  | false =>
    rw [next] at run
    exact ⟨_, run, proofNoted_named ..⟩
  | true =>
    rw [next] at run
    exact ⟨_, run, proofNoted_next ..⟩

/-- The automatic proof that is due is the next in rotation (R332). -/
theorem proofAuto_law {c : Nat} {s : State} (good : s.goodCell c = true) (due : proofDue s c = true)
    (awake : (s.region (regionOf c)).pw.gated = false) (runs : s.err.fatal = false) (cool : s.thm.stopped = false) :
    ∃ t, exec (.proofAuto c []) s = .next t ∧ ProofNoted s t c (s.cell c).misc.prfNext true := by
  have run : execProofAuto c [] s = .next (proofPassed (nextProof s c).2 c (s.cell c).misc.prfNext) :=
    if_neg (by simp [show injectAll s [] = s from rfl, good, due, awake, runs, cool])
  exact ⟨_, run, proofNoted_next ..⟩

/-- Settles O17: without a fault a proof is one note of its number, after the rotation has moved on where it took the next. -/
theorem proofTilesThatPassAreNoted : Obligations.ProofTilesThatPassAreNoted := by
  unfold Obligations.ProofTilesThatPassAreNoted
  intro c s x passed
  refine ⟨fun ready => ?_, fun good due awake runs cool => ?_⟩
  · obtain ⟨t, run, here, other, rest⟩ := vxProof_law ready
    exact ⟨t, run, here, other, rest⟩
  · obtain ⟨t, run, here, other, rest⟩ := proofAuto_law good due awake runs cool
    exact ⟨t, run, here, other, rest⟩

/-! Gather and scatter (R325 to R327). -/

/-- The live pairs of a list at OPB, for rows at `data` (R302). -/
theorem routeCount_eq (s : State) (c rb : Nat) (data list : Opnd) : routeCount s c rb data list =
    clipTo (minBound (boundElems (bound s c list) 64) (if rb = 0 then none else boundElems (bound s c data) (8 * rb)))
      (vCount list.lenKib 64) := by
  simp only [routeCount, beq_iff_eq]

section
variable {s v : State} {x : Ctx} {t data : Opnd} {put : Bool} {act : State → Bytes → List Pair → State}

/-- With no live pair no row moves. -/
theorem routed_none (nothing : routeCount s x.c (num ((tableImage s x.j.id t.tkind t.tid).getD []) 8 4) data x.ob = 0) :
    routed s x t data put act = s :=
  if_pos (by simpa using nothing)

/-- Where the pairs are read and pass their checks, `act` moves the rows of those that are not skip pairs. -/
theorem routed_some {img d : Bytes} {n : Nat} (image : (tableImage s x.j.id t.tkind t.tid).getD [] = img)
    (count : routeCount s x.c (num img 8 4) data x.ob = n) (live : n ≠ 0)
    (read : readOpnd s x x.ob (8 * n) none true = (some d, v))
    (pass : routeFault x.j img put (stashLen x.i x.o data) ((List.range n).map fun k => toPair (num d (8 * k) 8)) = none) :
    routed s x t data put act =
      act v img (((List.range n).map fun k => toPair (num d (8 * k) 8)).filter fun p => !isSkip p) := by
  unfold routed
  dsimp only
  rw [image, count, if_neg (by simpa using live), read]
  dsimp only
  rw [pass]

end

/-- Settles O19: both rows read and check their pairs in the same way, and differ in how they move one pair's row. -/
theorem gatherAndScatterMoveTheRows : Obligations.GatherAndScatterMoveTheRows := by
  unfold Obligations.GatherAndScatterMoveTheRows
  intro c ph s x u img rb count pairs
  have counted (t data : Opnd) : routeCount u c (rb t) data x.ob = count t data := routeCount_eq ..
  refine ⟨fun ready none_ => ?_, fun ready none_ => ?_, fun ready live d v read pass => ?_, fun ready live d v read pass => ?_⟩
  all_goals
    obtain ⟨-, -, -, rfl, -⟩ := readyCtx_some rfl ready
  · have run : execMvGather x.c ph s = .next (routed u x x.oa x.od false _) := issue_ready _ ready
    exact run.trans (congrArg _ (routed_none ((counted ..).trans none_)))
  · have run : execMvScatter x.c ph s = .next (routed u x x.od x.oa true _) := issue_ready _ ready
    exact run.trans (congrArg _ (routed_none ((counted ..).trans none_)))
  · have run : execMvGather x.c ph s = .next (routed u x x.oa x.od false _) := issue_ready _ ready
    exact run.trans (congrArg _ (routed_some rfl (counted ..) live read pass))
  · have run : execMvScatter x.c ph s = .next (routed u x x.od x.oa true _) := issue_ready _ ready
    exact run.trans (congrArg _ (routed_some rfl (counted ..) live read pass))

end Sys2Proof.Machine
end

section
/-! ### A plot unit whose UPDATE writes another unit's block (R429, R431, R437, R445, R449) -/

namespace Sys2Proof.Machine

open Sys2Proof

/-- A sequence of one UPDATE of the bytes at device address 0, for units 0 and 1 of stack 8 (R431, R432, R437). -/
def updateSeq : PlotSeq where
  serial := 1
  job := 1
  src := .cell 0 none 0 0
  lines := List.replicate 64 0 ++ leBytes 4 6
  nCmd := 1
  unitBase := 0
  unitCount := 2
  rCode := 1
  rowBase := 0
  tag := 0
  result := 0
  started := true

/-- Unit 0 is still to write byte 0 of block 1, which is a block of unit 1. -/
def strayCtx : UnitCtx := { unit := 0, mask := [], writes := [(4096, [1])] }

/-- Unit 1 has read the first word of that block. -/
def readingCtx : UnitCtx := { unit := 1, mask := [], word := 1 }

/-- Stack 8 with that sequence at the head of its bulk queue and those contexts; unit 1 has been fenced. -/
def updatingAstray : State :=
  { State.reset with
    plan := { stk := [(8, { badUnits := [1] })] }
    stk := [(8, { trained := true, bulkQ := [updateSeq], bulkCtx := [strayCtx, readingCtx] })] }

/-- Memory and buffers are all zeros, and no word is written yet. -/
theorem bufAgrees_updatingAstray : ∀ y ∈ classCtx (updatingAstray.stack 8) false, bufAgrees updatingAstray 8 updateSeq y := by
  intro y mem c p _ _ b i _
  obtain rfl | rfl : y = strayCtx ∨ y = readingCtx := by simpa using (show y ∈ [strayCtx, readingCtx] from mem)
  · have unwritten : (b * 4096 + i) / 32 ∉ (writtenWords strayCtx.writes).take strayCtx.word := List.not_mem_nil
    exact (if_neg (List.cons_ne_nil _ _)).mpr (if_neg unwritten).symm
  · exact fun _ => rfl

/-- The state after the stroke. -/
def updatedAstray : State := ran (exec (.plotStrokeEnd 8 []) updatingAstray) updatingAstray

/-- The stroke changes the byte that unit 1 has read, and leaves the fenced unit as it was. -/
theorem stack_updatedAstray : (updatedAstray.stack 8).data.get 4096 = 1 ∧ readingCtx ∈ classCtx (updatedAstray.stack 8) false ∧
    columnBase updatedAstray 0 = 0 := by decide +kernel

theorem not_bufAgrees_updatedAstray : ¬ bufAgrees updatedAstray 8 updateSeq readingCtx := by
  intro h
  obtain ⟨written, -, base⟩ := stack_updatedAstray
  have agree := h (plotCmd updateSeq.lines 0) ⟨0, 1, true, 0⟩ (by decide) (by decide) 0 (by decide)
  have kept : readingCtx.buf.get 0 = (updatedAstray.stack 8).data.get 4096 := by
    simpa [base, unitByte, readingCtx] using agree
  rw [written] at kept
  exact absurd kept (by decide)

/-- Refutes O31: at the end of a work stroke the buffer of every unit is said to agree with its block, if those of all units agreed
before; but that agreement does not keep the bytes that an UPDATE is still to write within the unit's own blocks, as the model's own
UPDATEs do. A unit with bytes of another unit's block to write changes what the other one, fenced and so at rest, has read. -/
theorem not_plotSequencesRunStrokeByStroke : ¬ Obligations.PlotSequencesRunStrokeByStroke := by
  unfold Obligations.PlotSequencesRunStrokeByStroke
  intro h
  obtain ⟨-, hstroke, -⟩ := h 8 updatingAstray updateSeq (by decide +kernel) (by decide +kernel)
  obtain ⟨hwork, -⟩ := hstroke false (by decide +kernel) (by decide +kernel)
  have placed : seqPlaced updatingAstray updateSeq := by
    unfold seqPlaced
    decide +kernel
  obtain ⟨t, words, run, -, -, -, -, agree, -⟩ :=
    hwork (by decide +kernel) (by decide +kernel) (by decide +kernel) placed (by decide +kernel) bufAgrees_updatingAstray
  obtain rfl : updatedAstray = t := by rw [updatedAstray, run, ran]
  obtain ⟨-, rests, -⟩ := stack_updatedAstray
  exact not_bufAgrees_updatedAstray (agree _ rests)

end Sys2Proof.Machine
end

section
/-! ### Memory stacks: refresh, patrol, loss of training (R403, R420 to R425) -/

namespace Sys2Proof.Machine

open Sys2Proof

/-- An update of a stack changes that stack alone. -/
theorem updStack_only {s t : State} (same : t.stk = s.stk) (n : Nat) (f : StackSt → StackSt) :
    (t.updStack n f).stack n = f (s.stack n) ∧ ∀ m, m ≠ n → (t.updStack n f).stack m = s.stack m := by
  have stack (m : Nat) : t.stack m = s.stack m := by rw [State.stack, same, State.stack]
  exact ⟨by rw [State.stack_updStack, if_pos rfl, stack], fun m other => by rw [State.stack_updStack, if_neg other.symm, stack]⟩

/-! Refreshes (R420, R421). -/

/-- The refreshes that a bank has put off go out, and none is put off any longer (R421). -/
theorem catchUp_eq (s : State) (n bank : Nat) : catchUp s n bank =
    ({ s with out := s.out ++ List.replicate (sget 0 (s.stack n).postponed bank) (Out.stack n (.refPb bank)) }).updStack n
      fun x => { x with postponed := sdel x.postponed bank } := by
  unfold catchUp
  extract_lets k t
  have sent : t = _ := foldl_emit (fun _ => Out.stack n (.refPb bank)) (List.range k) s
  rw [sent, List.map_const', List.length_range]

theorem catchUp_law (s : State) (n bank : Nat) : let t := catchUp s n bank
    t.out = s.out ++ List.replicate (sget 0 (s.stack n).postponed bank) (Out.stack n (.refPb bank)) ∧
      t.stack n = { s.stack n with postponed := sdel (s.stack n).postponed bank } ∧ (∀ m, m ≠ n → t.stack m = s.stack m) ∧
      { t with stk := s.stk, out := s.out } = s := by
  rw [catchUp_eq]
  obtain ⟨here, others⟩ := updStack_only
    (s := s) (t := { s with out := s.out ++ List.replicate (sget 0 (s.stack n).postponed bank) (Out.stack n (.refPb bank)) }) rfl n
    fun x => { x with postponed := sdel x.postponed bank }
  exact ⟨rfl, here, others, rfl⟩

theorem refreshFirst_few {s : State} {n bank : Nat} (few : sget 0 (s.stack n).postponed bank < 8) : refreshFirst s n bank = s :=
  if_pos few

/-- Before an access nothing of a stack changes but the refreshes that it has put off. -/
theorem stack_refreshFirst (s : State) (n bank : Nat) : ∃ postponed, (refreshFirst s n bank).stack n = { s.stack n with postponed } := by
  unfold refreshFirst
  split
  · exact ⟨_, rfl⟩
  · obtain ⟨-, here, -⟩ := catchUp_law s n bank
    exact ⟨_, here⟩

/-! Errors and marked pairs (R422, R423). -/

theorem Raises.stack {s t : State} (h : Raises s t) (n : Nat) : t.stack n = s.stack n := by
  have stk : t.stk = s.stk := (congrArg State.stk h.rest :)
  rw [State.stack, stk, State.stack]

theorem Raises.stackPlan {s t : State} (h : Raises s t) (n : Nat) : t.stackPlan n = s.stackPlan n := by
  rw [State.stackPlan, h.plan, State.stackPlan]

/-- A pair that is marked is listed; of the stack at most its count changes (R423). -/
theorem markPair_law (s : State) (n pair cause : Nat) :
    (∃ markedCount, (markPair s n pair cause).stack n = { s.stack n with markedCount }) ∧
      pair ∈ ((markPair s n pair cause).stackPlan n).marked := by
  unfold markPair
  split
  next marked => exact ⟨⟨_, rfl⟩, List.contains_iff_mem.mp marked⟩
  next =>
    rw [(raises_raiseChip ..).stack, (raises_raiseChip ..).stackPlan]
    simp

/-- A corrected word loses its wrong bits and is counted (R423). -/
theorem stack_correctMem (s : State) (n w : Nat) : ∃ pairWords markedCount, (correctMem s n w).stack n =
    { s.stack n with bad := sdel (s.stack n).bad w, corrected := sat16 (s.stack n).corrected 1, pairWords, markedCount } := by
  unfold correctMem
  extract_lets p t
  have here : t.stack n = _ := (State.stack_updStack ..).trans (if_pos rfl)
  split
  · obtain ⟨⟨markedCount, marked⟩, -⟩ := markPair_law t n p 1
    rw [marked, here]
    exact ⟨_, _, rfl⟩
  · rw [here]
    exact ⟨_, _, rfl⟩

/-- An uncorrectable word is counted and its pair marked; what is stored stands (R423). -/
theorem uncorrMem_law (s : State) (n w : Nat) :
    (∃ markedCount, (uncorrMem s n w).stack n =
      { s.stack n with uncorr := true, uncorrected := sat16 (s.stack n).uncorrected 1, markedCount }) ∧
      pairOf (blockOfWord w) ∈ ((uncorrMem s n w).stackPlan n).marked := by
  obtain ⟨⟨markedCount, marked⟩, listed⟩ := markPair_law
    (s.updStack n fun x => { x with uncorr := true, uncorrected := sat16 x.uncorrected 1 }) n (pairOf (blockOfWord w)) 0
  rw [State.stack_updStack, if_pos rfl] at marked
  exact ⟨⟨markedCount, marked⟩, listed⟩

/-! The patrol (R422, R423). -/

/-- What the patrol does with the word that it has read. -/
def patrolDecoded (n w : Nat) (s : State) : State :=
  let m := sget 0 (s.stack n).bad w
  if m = 0 then s
  else if popcount 36 m = 1 then
    (correctMem s n w).updStack n fun x => { x with lapWords := if x.lapWords.contains w then x.lapWords else x.lapWords ++ [w] }
  else uncorrMem (raiseChip s 0x4004 0 1 n 0 (n :: item64 (unresolve s n (addrOfWord w)))) n w

/-- The place of the patrol moves on, and a lap ends after the last word. -/
def patrolMoved (n : Nat) (s : State) : State :=
  let t := s.updStack n fun x => { x with patrolPos := x.patrolPos + 1 }
  if lapLength n ≤ (t.stack n).patrolPos then t.updStack n patrolWrap else t

theorem patrolRead_live {n : Nat} {s : State} (live : stackLive s n = true) :
    let w := patrolWord n (s.stack n).patrolPos
    exec (.patrolRead n []) s = .next (patrolMoved n (patrolDecoded n w (refreshFirst s n (pairOf (blockOfWord w))))) := by
  intro w
  show execPatrolRead n [] s = _
  unfold execPatrolRead patrolDecoded
  simp only [show injectAll s [] = s from rfl, live, beq_iff_eq]
  rfl

/-- A stack whose patrol has moved on. -/
def StackSt.patrolled (n : Nat) (x : StackSt) : StackSt :=
  let y := { x with patrolPos := x.patrolPos + 1 }
  if lapLength n ≤ y.patrolPos then patrolWrap y else y

theorem stack_patrolMoved (n m : Nat) (s : State) :
    (patrolMoved n s).stack m = if n = m then (s.stack n).patrolled n else s.stack m := by
  unfold patrolMoved StackSt.patrolled
  simp only [State.stack_updStack, if_true]
  split_ifs with ends own own
  all_goals simp [own]

theorem patrolMoved_rest (n : Nat) (s : State) : { patrolMoved n s with stk := s.stk } = s := by
  unfold patrolMoved
  dsimp only
  split <;> rfl

/-- Neither the place of a patrol nor its laps say what is stored, or how many words were wrong. -/
theorem StackSt.patrolled_law (n : Nat) (x : StackSt) : let y := x.patrolled n
    y.bad = x.bad ∧ y.data = x.data ∧ y.corrected = x.corrected ∧ y.uncorr = x.uncorr ∧ y.uncorrected = x.uncorrected := by
  unfold StackSt.patrolled
  dsimp only
  split <;> exact ⟨rfl, rfl, rfl, rfl, rfl⟩

/-- A word without a wrong byte moves the patrol on, and does nothing else. -/
theorem patrolRead_clean {n : Nat} {s : State} (live : stackLive s n = true) : let w := patrolWord n (s.stack n).patrolPos
    sget 0 (s.stack n).bad w = 0 → sget 0 (s.stack n).postponed (pairOf (blockOfWord w)) < 8 →
    exec (.patrolRead n []) s = .next (patrolMoved n s) := by
  intro w clean few
  rw [patrolRead_live live, refreshFirst_few few, patrolDecoded, if_pos clean]

/-- Words with wrong bytes are not clean ones, whatever their width. -/
theorem ne_zero_of_popcount_pos {width m : Nat} (h : 0 < popcount width m) : m ≠ 0 := by
  rintro rfl
  have none : popcount width 0 = 0 := by
    induction width with
    | zero => rfl
    | succ width ih => simp_all [popcount, bit, b2n]
  omega

/-- One wrong byte of a word is corrected and counted. -/
theorem patrolRead_corrects {n : Nat} {s : State} (live : stackLive s n = true) : let x := s.stack n
    let w := patrolWord n x.patrolPos
    popcount 36 (sget 0 x.bad w) = 1 → ∃ t, exec (.patrolRead n []) s = .next t ∧ (t.stack n).bad = sdel x.bad w ∧
      (t.stack n).data = x.data ∧ (t.stack n).corrected = sat16 x.corrected 1 := by
  intro x w one
  obtain ⟨postponed, same⟩ := stack_refreshFirst s n (pairOf (blockOfWord w))
  refine ⟨_, patrolRead_live live, ?_⟩
  generalize refreshFirst s n (pairOf (blockOfWord w)) = v at same ⊢
  have wrong : sget 0 (v.stack n).bad w = sget 0 x.bad w := by rw [same]
  obtain ⟨pairWords, markedCount, corrected⟩ := stack_correctMem v n w
  obtain ⟨bad, data, count, -, -⟩ := StackSt.patrolled_law n ((patrolDecoded n w v).stack n)
  rw [stack_patrolMoved, if_pos rfl, bad, data, count, patrolDecoded, wrong,
    if_neg (ne_zero_of_popcount_pos (width := 36) (by omega)), if_pos one, State.stack_updStack, if_pos rfl, corrected, same]
  exact ⟨rfl, rfl, rfl⟩

/-- More wrong bytes are uncorrectable: UNCORR, and the pair is marked. -/
theorem patrolRead_uncorrectable {n : Nat} {s : State} (live : stackLive s n = true) : let x := s.stack n
    let w := patrolWord n x.patrolPos
    2 ≤ popcount 36 (sget 0 x.bad w) → ∃ t, exec (.patrolRead n []) s = .next t ∧ (t.stack n).uncorr = true ∧
      (t.stack n).uncorrected = sat16 x.uncorrected 1 ∧ pairOf (blockOfWord w) ∈ (t.stackPlan n).marked ∧
      (t.stack n).bad = x.bad ∧ (t.stack n).data = x.data := by
  intro x w many
  obtain ⟨postponed, same⟩ := stack_refreshFirst s n (pairOf (blockOfWord w))
  refine ⟨_, patrolRead_live live, ?_⟩
  generalize refreshFirst s n (pairOf (blockOfWord w)) = v at same ⊢
  have wrong : sget 0 (v.stack n).bad w = sget 0 x.bad w := by rw [same]
  have decoded : patrolDecoded n w v = uncorrMem (raiseChip v 0x4004 0 1 n 0 (n :: item64 (unresolve v n (addrOfWord w)))) n w := by
    rw [patrolDecoded, wrong, if_neg (ne_zero_of_popcount_pos (width := 36) (by omega)), if_neg (by omega)]
  have plan : (patrolMoved n (patrolDecoded n w v)).plan = (patrolDecoded n w v).plan :=
    (congrArg State.plan (patrolMoved_rest n (patrolDecoded n w v)) :)
  obtain ⟨⟨markedCount, counted⟩, marked⟩ :=
    uncorrMem_law (raiseChip v 0x4004 0 1 n 0 (n :: item64 (unresolve v n (addrOfWord w)))) n w
  rw [← decoded] at counted marked
  obtain ⟨bad, data, -, uncorr, uncorrected⟩ := StackSt.patrolled_law n ((patrolDecoded n w v).stack n)
  rw [stack_patrolMoved, if_pos rfl, bad, data, uncorr, uncorrected, counted, (raises_raiseChip ..).stack, same, State.stackPlan, plan]
  exact ⟨rfl, rfl, marked, rfl, rfl⟩

/-! Lost training (R425). -/

/-- Ten milliseconds in ps, as one number. -/
theorem tenMs : 10 ^ 10 = 10000000000 := by norm_num

theorem stack_surveyChange (s : State) (n : Nat) : (surveyChange s).stack n = s.stack n := by
  unfold surveyChange
  split
  · rfl
  · split_ifs <;> rfl

/-- A stack is fenced at `due`: the loss is forgotten, STACK_FENCED raised, and the plan written. -/
def stackFencedAt (s : State) (n due : Nat) : State :=
  (raiseChip ((s.untilPs due).updStack n fun x => { x with lost := none }) 0x4009 1 1 n 0
    [n, nextGeneration (s.untilPs due)] true).updStackPlan n fun p => { p with fenced := true }

theorem execStackFenced_lost {n since : Nat} {s : State} (lost : (s.stack n).lost = some since) :
    exec (.stackFenced n) s = .next (surveyChange (stackFencedAt s n (since + 10000000000))) := by
  show execStackFenced n s = _
  simp only [execStackFenced, lost, stackFencedAt, tenMs]

/-- The fenced stack keeps what it stores, and no other stack is fenced. -/
theorem stackFencedAt_law (s : State) (n due : Nat) : let t := surveyChange (stackFencedAt s n due)
    t.stack n = { s.stack n with lost := none } ∧ (t.stackPlan n).fenced = true ∧
      (∀ m, m ≠ n → t.stackPlan m = s.stackPlan m) ∧ t.clk.ps = max s.clk.ps due := by
  have raised := raises_raiseChip ((s.untilPs due).updStack n fun x => { x with lost := none }) 0x4009 1 1 n 0
    [n, nextGeneration (s.untilPs due)] true false
  have kept := republishes_surveyChange (stackFencedAt s n due)
  have plan (m : Nat) : (surveyChange (stackFencedAt s n due)).stackPlan m = (stackFencedAt s n due).stackPlan m := by
    rw [State.stackPlan, kept.plan, State.stackPlan]
  refine ⟨?_, ?_, fun m other => ?_, ?_⟩
  · rw [stack_surveyChange]
    exact (raised.stack n).trans ((State.stack_updStack ..).trans (if_pos rfl))
  · rw [plan, stackFencedAt, State.stackPlan_updStackPlan, if_pos rfl]
  · rw [plan, stackFencedAt, State.stackPlan_updStackPlan, if_neg other.symm, raised.stackPlan]
    rfl
  · rw [kept.clk]
    exact (congrArg Clock.ps raised.clk).trans (untilPs_ps s due)

/-! The stack's other events (R403, R420, R421, R425). -/

section
variable {n : Nat} {s : State}

theorem refresh_d3hot (hot : s.hif.d3hot = true) (bank : Nat) (busy : Bool) : exec (.refresh n bank busy) s = .next s :=
  if_pos (by simp [hot])

/-- A stack that has put off `k` refreshes of a bank. -/
def putOff (bank k : Nat) (x : StackSt) : StackSt := { x with postponed := sset 0 x.postponed bank k }

theorem refresh_live {bank : Nat} (live : stackLive s n = true) (awake : s.hif.d3hot = false) (inStack : bank < 4128) (busy : Bool) :
    let k := sget 0 (s.stack n).postponed bank
    exec (.refresh n bank busy) s = .next (if busy && k < 8 then
      s.updStack n fun x => { x with postponed := sset 0 x.postponed bank (k + 1), postponeMax := max x.postponeMax (k + 1) }
      else catchUp (s.updStack n (putOff bank (k + 1))) n bank) := by
  intro k
  show execRefresh n bank busy s = _
  rw [execRefresh, if_neg (by simp [live, awake, inStack])]
  exact (apply_ite Host.Outcome.next ..).symm

/-- The refresh of a busy bank is postponed, up to eight of them. -/
theorem refresh_postponed {bank : Nat} (live : stackLive s n = true) (awake : s.hif.d3hot = false) (inStack : bank < 4128)
    (few : sget 0 (s.stack n).postponed bank < 8) : let k := sget 0 (s.stack n).postponed bank
    exec (.refresh n bank true) s = .next (s.updStack n fun x =>
      { x with postponed := sset 0 x.postponed bank (k + 1), postponeMax := max x.postponeMax (k + 1) }) := by
  intro k
  rw [refresh_live live awake inStack, if_pos (by simpa using few)]

/-- Any other goes out, with those that were postponed. -/
theorem refresh_sent {bank : Nat} {busy : Bool} (live : stackLive s n = true) (awake : s.hif.d3hot = false) (inStack : bank < 4128) :
    let x := s.stack n
    let k := sget 0 x.postponed bank
    busy = false ∨ 8 ≤ k → ∃ t, exec (.refresh n bank busy) s = .next t ∧
      t.out = s.out ++ List.replicate (k + 1) (Out.stack n (.refPb bank)) ∧
      t.stack n = { x with postponed := sdel (sset 0 x.postponed bank (k + 1)) bank } ∧ (∀ m, m ≠ n → t.stack m = s.stack m) ∧
      { t with stk := s.stk, out := s.out } = s := by
  intro x k due
  have run : exec (.refresh n bank busy) s = .next (catchUp (s.updStack n (putOff bank (k + 1))) n bank) := by
    rw [refresh_live live awake inStack, if_neg]
    simp only [Bool.and_eq_true, decide_eq_true_eq]
    rintro ⟨held, few⟩
    exact due.elim (by simp [held]) (Nat.not_le_of_lt few)
  obtain ⟨here, others⟩ := updStack_only (s := s) rfl n (putOff bank (k + 1))
  obtain ⟨out, caught, apart, rest⟩ := catchUp_law (s.updStack n (putOff bank (k + 1))) n bank
  have count : sget 0 ((s.updStack n (putOff bank (k + 1))).stack n).postponed bank = k + 1 := by
    simp [here, putOff]
  refine ⟨_, run, by rw [out, count]; rfl, by rw [caught, here]; rfl, fun m other => by rw [apart m other, others m other], ?_⟩
  exact congrArg (fun t : State => { t with stk := s.stk }) rest

/-- A periodic event that sends something and changes a stack. -/
theorem periodic_law (s : State) (key period : Nat) (o : Out) (n : Nat) (f : StackSt → StackSt) :
    let t := ((s.periodic key period).emit o).updStack n f
    t.out = s.out ++ [o] ∧ (t.stack n = f (s.stack n) ∧ ∀ m, m ≠ n → t.stack m = s.stack m) ∧
      t.clk.ps = max s.clk.ps (sget 0 s.timers key + period) :=
  ⟨rfl, updStack_only rfl .., untilPs_ps ..⟩

theorem stackTempReadout_live (live : stackLive s n = true) (temp : Int) : exec (.stackTempReadout n temp) s =
    .next (((s.periodic (20 + n) 32000000).emit (.stack n .readTemp)).updStack n fun x => { x with temp, doubled := decide (85 < temp) }) :=
  if_neg (by simp [live])

theorem stackTrainingLost_live (live : stackLive s n = true) (trained : (s.stack n).lost = none) :
    exec (.stackTrainingLost n) s = .next (s.updStack n fun x => { x with lost := some s.clk.ps }) :=
  if_neg (by simp [live, trained])

theorem stackRetrainDone_inTime {since : Nat} (lost : (s.stack n).lost = some since) (inTime : s.clk.ps ≤ since + 10000000000) :
    exec (.stackRetrainDone n) s = .next (s.updStack n fun x => { x with lost := none }) := by
  show execStackRetrainDone n s = _
  simp only [execStackRetrainDone, lost, tenMs]
  exact if_neg (by omega)

end

/-- Settles O47, event by event. Log entry 49 (DEDUCED) makes a due refresh go out with every postponed one of its bank, and log
entry 23 (DEDUCED) takes two and more wrong symbols of a word as uncorrectable. -/
theorem stacksRefreshPatrolAndRetrain : Obligations.StacksRefreshPatrolAndRetrain := by
  unfold Obligations.StacksRefreshPatrolAndRetrain
  intro n s isStack trained unfenced x only word pair
  have live : stackLive s n = true := by simp [stackLive, isStack, trained, unfenced]
  refine ⟨refresh_d3hot, fun awake bank inStack => ⟨fun few => ?_, fun busy due => ?_⟩, fun temp => ?_, fun clean few more => ?_,
    fun clean few last => ?_, fun one => ?_, patrolRead_uncorrectable live, fun trains => ?_, fun since lost => ⟨fun inTime => ?_, ?_⟩⟩
  · exact ⟨_, refresh_postponed live awake inStack few, rfl, updStack_only rfl ..⟩
  · obtain ⟨t, run, out, here, others, rest⟩ := refresh_sent live awake inStack due
    exact ⟨t, run, out, by rw [here]; exact (sget_sdel ..).trans (if_pos rfl), ⟨here, others⟩, rest⟩
  · exact ⟨_, stackTempReadout_live live temp, periodic_law ..⟩
  · refine ⟨_, patrolRead_clean live clean few, ⟨?_, fun m other => ?_⟩, patrolMoved_rest n s⟩
    · rw [stack_patrolMoved, if_pos rfl]
      exact if_neg (by simpa using more)
    · rw [stack_patrolMoved, if_neg other.symm]
  · have wrapped : (patrolMoved n s).stack n = patrolWrap { x with patrolPos := x.patrolPos + 1 } := by
      rw [stack_patrolMoved, if_pos rfl]
      exact if_pos last.ge
    refine ⟨_, patrolRead_clean live clean few, patrolMoved_rest n s, ?_⟩
    rw [wrapped]
    exact ⟨rfl, rfl, rfl, by simp [patrolWrap]⟩
  · obtain ⟨t, run, bad, data, corrected⟩ := patrolRead_corrects live one
    refine ⟨t, run, by rw [bad, sget_sdel, if_pos rfl], data, corrected, fun w other => ?_⟩
    rw [bad, sget_sdel, if_neg other.symm]
  · exact ⟨_, stackTrainingLost_live live trains, updStack_only rfl .., rfl⟩
  · exact ⟨_, stackRetrainDone_inTime lost inTime, updStack_only rfl .., rfl⟩
  · obtain ⟨stack, fenced, others, time⟩ := stackFencedAt_law s n (since + 10000000000)
    exact ⟨_, execStackFenced_lost lost, fenced, by rw [stack], by rw [stack], others, time⟩

end Sys2Proof.Machine
end

section
/-! ### The merge of two partial states (R261, R279, R304, R474) -/

namespace Sys2Proof.Machine

open Sys2Proof

/-- The exact sum does not depend on the order (R279). -/
theorem Val.add_comm (a b : Val) : a.add b = b.add a := by
  cases a with
  | nan => cases b <;> rfl
  | inf s =>
    cases b with
    | nan => rfl
    | inf s' => cases s <;> cases s' <;> rfl
    | fin s' n f => rfl
  | fin s m e =>
    cases b with
    | nan => rfl
    | inf s' => rfl
    | fin s' n f => simp only [Val.add, min_comm f e, Int.add_comm (scaled s' n f _), Bool.and_comm s']

/-- A value in the form in which FP32 holds it, one for each number: a significand of at most 24 bits, whose top bit is set above the
least exponent (R260, R261). -/
def Val.single : Val → Prop
  | .fin _ m e => m < 2 ^ 24 ∧ -149 ≤ e ∧ (e = -149 ∨ 2 ^ 23 ≤ m)
  | _ => True

/-- The value of an FP32 word, by cases (R260, R261). -/
theorem ofF32_eq (v : Nat) : ofF32 v =
    if 0x7F7FFFFF < v % 2 ^ 31 then (if v % 2 ^ 31 % 2 ^ 23 == 0 then .inf (bit v 31) else .nan)
    else if v % 2 ^ 31 / 2 ^ 23 == 0 then .fin (bit v 31) (v % 2 ^ 31 % 2 ^ 23) (-149)
    else .fin (bit v 31) (2 ^ 23 + v % 2 ^ 31 % 2 ^ 23) ((v % 2 ^ 31 / 2 ^ 23 : Nat) - 127 - 23) := rfl

theorem single_ofF32 (v : Nat) : (ofF32 v).single := by
  rw [ofF32_eq]
  split_ifs with _ _ least
  · trivial
  · trivial
  · exact ⟨by omega, by omega, .inl rfl⟩
  · have exponent : v % 2 ^ 31 / 2 ^ 23 ≠ 0 := by simpa using least
    exact ⟨by omega, by omega, .inr (by omega)⟩

theorem natAbs_scaled (s : Bool) (m : Nat) (e lo : Int) : (scaled s m e lo).natAbs = m * 2 ^ (e - lo).toNat := by
  rw [scaled]
  cases s
  · exact Int.natAbs_natCast _
  · exact (Int.natAbs_neg _).trans (Int.natAbs_natCast _)

theorem scaled_self (s : Bool) (m : Nat) (e : Int) : scaled s m e e = if s then -(m : Int) else m := by
  simp [scaled]

/-- In this form the larger exponent has the larger magnitude. -/
theorem Val.single_lt {s s' : Bool} {m n : Nat} {e f : Int} (a : (Val.fin s m e).single) (b : (Val.fin s' n f).single) (less : e < f) :
    m < n * 2 ^ (f - e).toNat := by
  obtain ⟨small, least, -⟩ := a
  obtain ⟨-, -, form⟩ := b
  have full : 2 ^ 23 ≤ n := form.resolve_left (by omega)
  have shift : 2 ^ 1 ≤ 2 ^ (f - e).toNat := Nat.pow_le_pow_right (by decide) (by omega)
  exact small.trans_le (Nat.mul_le_mul full shift)

/-- Numbers in this form are equal only where they are the same, zeros of two signs aside. -/
theorem Val.single_eq {s s' : Bool} {m n : Nat} {e f : Int} (a : (Val.fin s m e).single) (b : (Val.fin s' n f).single)
    (equal : scaled s m e (e ⊓ f) = scaled s' n f (e ⊓ f)) : m = n ∧ e = f ∧ (m = 0 ∨ s = s') := by
  have size : m * 2 ^ (e - e ⊓ f).toNat = n * 2 ^ (f - e ⊓ f).toNat := by
    rw [← natAbs_scaled s, equal, natAbs_scaled]
  rcases lt_trichotomy e f with less | rfl | more
  · rw [inf_of_le_left less.le] at size
    exact absurd (by simpa using size) (Val.single_lt a b less).ne
  · rw [inf_idem, Int.sub_self] at size
    have same : m = n := by simpa using size
    subst same
    rw [inf_idem, scaled_self, scaled_self] at equal
    refine ⟨rfl, rfl, ?_⟩
    split_ifs at equal with neg neg' neg'
    · exact .inr (neg.trans neg'.symm)
    · exact .inl (by omega)
    · exact .inl (by omega)
    · exact .inr ((Bool.eq_false_of_not_eq_true neg).trans (Bool.eq_false_of_not_eq_true neg').symm)
  · rw [inf_of_le_right more.le] at size
    exact absurd (by simpa using size) (Val.single_lt b a more).ne'

/-- FP32's larger of two does not depend on the order (R304). -/
theorem Val.max_comm {a b : Val} (ha : a.single) (hb : b.single) : a.max b = b.max a := by
  cases a with
  | nan => cases b <;> rfl
  | inf s =>
    cases b with
    | nan => rfl
    | inf s' => cases s <;> cases s' <;> rfl
    | fin s' n f => cases s <;> rfl
  | fin s m e =>
    cases b with
    | nan => rfl
    | inf s' => cases s' <;> rfl
    | fin s' n f =>
      simp only [Val.max, Val.lt, decide_eq_true_eq, min_comm f e]
      rcases lt_trichotomy (scaled s m e (e ⊓ f)) (scaled s' n f (e ⊓ f)) with less | equal | more
      · simp [less, less.not_gt]
      · obtain ⟨rfl, rfl, sign⟩ := Val.single_eq ha hb equal
        simp only [equal, Int.lt_irrefl, if_false]
        rcases sign with rfl | rfl
        · cases s <;> cases s' <;> rfl
        · cases s <;> rfl
      · simp [more, more.not_gt]

/-- The merge of two rows, in either order (R474). -/
theorem mergeRow_comm {p q : PartRow} (hp : p.m.single) (hq : q.m.single) (dims : p.o.length = q.o.length) :
    mergeRow p q = mergeRow q p := by
  unfold mergeRow
  rw [Val.max_comm hq hp]
  dsimp only
  split_ifs
  · simp [List.map_const', dims]
  · rw [Val.add_comm (p.l.mul _), List.zipWith_comm]
    simp only [Val.add_comm]

/-- Settles O23: the larger maximum and both sums are those of either order. -/
theorem mergingStatesIsCommutative : Obligations.MergingStatesIsCommutative := by
  unfold Obligations.MergingStatesIsCommutative
  exact fun a b g dim r => mergeRow_comm (single_ofF32 _) (single_ofF32 _) (by simp [partRow])

end Sys2Proof.Machine
end

section
/-! ### The tree mask (R477, R478) -/

namespace Sys2Proof.Machine

open Sys2Proof

/-- A word of a table of little-endian words. -/
theorem num_flatMap_leBytes (w n : Nat) (f : Nat → Nat) {k : Nat} (inside : k < n) :
    num ((List.range n).flatMap fun i => leBytes w (f i)) (w * k) w = f k % 256 ^ w := by
  have len (n : Nat) : ((List.range n).flatMap fun i => leBytes w (f i)).length = w * n := by
    simp [List.length_flatMap, leBytes_length, mul_comm]
  induction n with
  | zero => omega
  | succ n ih =>
    rw [List.range_succ, List.flatMap_append, List.flatMap_singleton]
    rcases Nat.lt_succ_iff_lt_or_eq.mp inside with before | rfl
    · have fits : w * k + w ≤ w * n := by rw [← Nat.mul_succ]; exact Nat.mul_le_mul_left w before
      rw [num_append_left (fits.trans (len n).ge), ih before]
    · rw [num_append_right (len k).le, len, Nat.sub_self, num_leBytes]

/-- The rules of a tree record that has no fault: 1 to 32 nodes, and each node but the root after its parent (R477). -/
theorem treeFault_none {b : Bytes} (sound : treeFault b = none) : let n := num b 0 1 % 64
    (0 < n ∧ n ≤ 32) ∧ ∀ k, 0 < k → k < n → parentOf b k < k := by
  intro n
  rw [treeFault] at sound
  dsimp only at sound
  split_ifs at sound with count
  simp only [Bool.or_eq_true, beq_iff_eq, decide_eq_true_eq, not_or] at count
  rw [Option.map_eq_none_iff, List.find?_range_eq_none] at sound
  refine ⟨by omega, fun k pos inside => ?_⟩
  have rule := sound k inside
  simp only [beq_iff_eq, Nat.ne_of_gt pos, if_false] at rule
  split_ifs at rule with fixed
  · have : parentOf b k = k - 1 := by simpa using rule
    omega
  · simpa using rule

/-- The sum of the bits of a node and its ancestors, within a fuel. -/
def ancestorBits (b : Bytes) (fuel i : Nat) : Nat := ((ancestors b fuel i).map (2 ^ ·)).foldl (· + ·) 0

theorem ancestorBits_root (b : Bytes) (f : Nat) : ancestorBits b (f + 1) 0 = 1 := rfl

theorem ancestorBits_succ (b : Bytes) (f : Nat) {i : Nat} (pos : 0 < i) :
    ancestorBits b (f + 1) i = ancestorBits b f (parentOf b i) + 2 ^ i := by
  have up : ancestors b (f + 1) i = i :: ancestors b f (parentOf b i) := if_neg (by simpa using Nat.ne_of_gt pos)
  rw [ancestorBits, ancestorBits, ← List.sum_eq_foldl_nat, ← List.sum_eq_foldl_nat, up, List.map_cons, List.sum_cons, Nat.add_comm]

section
variable {b : Bytes} {n : Nat}

/-- The fuel does not matter where it exceeds the node, since each step goes to an earlier one. -/
theorem ancestorBits_fuel (tree : ∀ k, 0 < k → k < n → parentOf b k < k) {i f g : Nat} (node : i < n) (hf : i < f) (hg : i < g) :
    ancestorBits b f i = ancestorBits b g i := by
  induction f generalizing i g with
  | zero => omega
  | succ f ih =>
    obtain ⟨g, rfl⟩ := Nat.exists_eq_add_one_of_ne_zero (Nat.ne_zero_of_lt hg)
    rcases Nat.eq_zero_or_pos i with rfl | pos
    · rfl
    · have up := tree i pos node
      rw [ancestorBits_succ b f pos, ancestorBits_succ b g pos, ih (up.trans node) (g := g) (by omega) (by omega)]

/-- No bit stands above the node's own. -/
theorem ancestorBits_lt (tree : ∀ k, 0 < k → k < n → parentOf b k < k) (f : Nat) {i : Nat} (node : i < n) :
    ancestorBits b f i < 2 ^ (i + 1) := by
  induction f generalizing i with
  | zero => exact Nat.two_pow_pos _
  | succ f ih =>
    rcases Nat.eq_zero_or_pos i with rfl | pos
    · rw [ancestorBits_root]
      decide
    · have up := tree i pos node
      have above := (ih (up.trans node)).trans_le (Nat.pow_le_pow_right (by decide) up)
      rw [ancestorBits_succ b f pos, Nat.pow_succ]
      omega

end

theorem treeMask_length (b : Bytes) : (treeMask b).length = 128 := by
  simp [treeMask, List.length_flatMap, leBytes_length]

/-- Each word of the mask: the bits of the node and its ancestors, or zero beyond the nodes (R478). -/
theorem treeMask_word {b : Bytes} (sound : treeFault b = none) {k : Nat} (inside : k < 32) :
    num (treeMask b) (4 * k) 4 = if k < num b 0 1 % 64 then ancestorBits b 32 k else 0 := by
  obtain ⟨-, tree⟩ := treeFault_none sound
  rw [treeMask, num_flatMap_leBytes 4 32 _ inside]
  split_ifs with node
  · have small := (ancestorBits_lt tree 32 node).trans_le (Nat.pow_le_pow_right (by decide) inside)
    exact Nat.mod_eq_of_lt small
  · rfl

/-- The words of the mask of a sound record: the root's, a further node's from its parent's, none beyond the nodes (R478). -/
theorem treeMask_law {b : Bytes} (sound : treeFault b = none) : let n := num b 0 1 % 64
    let word (k : Nat) : Nat := num (treeMask b) (4 * k) 4
    word 0 = 1 ∧ (∀ k, 0 < k → k < n → parentOf b k < k ∧ word k = word (parentOf b k) + 2 ^ k) ∧
    (∀ k j, k < n → k < j → bit (word k) j = false) ∧ (∀ k, n ≤ k → k < 32 → word k = 0) := by
  intro n word
  obtain ⟨⟨some_, most⟩, tree⟩ := treeFault_none sound
  have node {k : Nat} (inside : k < n) : word k = ancestorBits b 32 k :=
    (treeMask_word sound (inside.trans_le most)).trans (if_pos inside)
  refine ⟨node some_, fun k pos inside => ⟨tree k pos inside, ?_⟩, fun k j inside above => ?_, fun k beyond small => ?_⟩
  · have up := tree k pos inside
    rw [node inside, node (up.trans inside), ancestorBits_succ b 31 pos,
      ancestorBits_fuel tree (up.trans inside) (g := 32) (by omega) (by omega)]
  · rw [node inside, bit_eq_testBit]
    exact Nat.testBit_lt_two_pow ((ancestorBits_lt tree 32 inside).trans_le (Nat.pow_le_pow_right (by decide) above))
  · exact (treeMask_word sound small).trans (if_neg beyond.not_gt)

section
variable {c : Nat} {ph : List Phys} {s v : State} {x : Ctx} {b : Bytes}

/-- AT.TREE on a record without a fault (R478, R479). -/
theorem atTree_law (ready : readyCtx 0x74 c ph s = some x) : let u := issued (injectAll s ph) x ph
    linesIn u x ≠ some 0 → readOpnd u x x.oa 384 (linesIn u x) false = (some b, v) → treeFault b = none →
    exec (.atTree c ph) s = .next (writeOpnd v x x.od (if x.i.x then acceptance b else treeMask b) (linesIn u x)) := by
  intro u going read sound
  have run : execAtTree c ph s = .next _ := issue_ready _ ready
  refine run.trans (congrArg _ ((if_neg (by simpa using going)).trans ?_))
  rw [read]
  dsimp only
  rw [sound]

end

/-- Settles O24: a word's bits are its parent's and its own. That several extents count as the smallest line count is the model's choice
(log entry 22). -/
theorem treeMaskHoldsTheAncestors : Obligations.TreeMaskHoldsTheAncestors := by
  unfold Obligations.TreeMaskHoldsTheAncestors
  intro c ph s v x b u word ready mask going read sound
  refine ⟨(atTree_law ready going read sound).trans ?_, treeMask_length b, treeMask_law sound⟩
  rw [mask]
  rfl

end Sys2Proof.Machine
end

section
/-! ### The roll-back of a sequence (R461, R464, R480) -/

namespace Sys2Proof.Machine

open Sys2Proof

section
variable {c : Nat} {ph : List Phys} {s : State} {x : Ctx}

theorem atRollback_skipped (ready : readyCtx 0x75 c ph s = some x)
    (skipped : bound (issued (injectAll s ph) x ph) c x.oa = some 0) :
    exec (.atRollback c ph) s = .next ((issued (injectAll s ph) x ph).countCell 0x004 c 1) := by
  have run : execAtRollback c ph s = .next _ := issue_ready _ ready
  exact run.trans (congrArg _ (if_pos (by simpa using skipped)))

theorem atRollback_law (ready : readyCtx 0x75 c ph s = some x) : let u := issued (injectAll s ph) x ph
    ∀ b v, bound u c x.oa ≠ some 0 → readOpnd u x x.oa 64 none false = (some b, v) →
    exec (.atRollback c ph) s = .next (rollback v x b) := by
  intro u b v going read
  have run : execAtRollback c ph s = .next _ := issue_ready _ ready
  refine run.trans (congrArg _ ((if_neg (by simpa using going)).trans ?_))
  rw [read]

end

/-- The KV table that an operand of a job names. -/
def kvNamed (job tid : Nat) (t : TableSt) : Bool := t.job == job && t.kind == 1 && t.id == tid

/-- A table with one sequence's length set. -/
def TableSt.withLen (t : TableSt) (n len : Nat) : TableSt := { t with lens := sset 0 t.lens n len }

theorem kvLen_withLen (t : TableSt) (n len m : Nat) : kvLen (t.withLen n len) m = if n = m then len else kvLen t m := sget_sset ..

/-- The tables after a roll-back. -/
def rolledBack (job tid n len : Nat) (ts : List TableSt) : List TableSt :=
  ts.map fun z => if kvNamed job tid z then z.withLen n len else z

theorem find?_rolledBack {job tid n len : Nat} {ts : List TableSt} {y : TableSt} (found : ts.find? (kvNamed job tid) = some y) :
    (rolledBack job tid n len ts).find? (kvNamed job tid) = some (y.withLen n len) := by
  have same : (kvNamed job tid ∘ fun z => if kvNamed job tid z then z.withLen n len else z) = kvNamed job tid := by
    funext z
    rw [Function.comp_apply]
    split_ifs
    · rfl
    · rfl
  rw [rolledBack, List.find?_map, same, found, Option.map_some, if_pos (List.find?_some found)]

theorem rollbackLen_eq (valued : Bool) (b : Bytes) (len : Nat) : rollbackLen valued b len =
    if valued then (if bit (num b 0 4) 31 then num b 4 4 else len + num b 4 4) else len + num b 5 1 % 64 := by
  cases valued <;> rfl

/-- The length below which a waiting version does not let a sequence roll back; 0 where it sets LEN or none waits (R464). -/
def waitingFreeze (t : TableSt) (n : Nat) : Nat :=
  match t.shadow with
  | some (i, _, _) => if n < (kvHead i).nSeq && !(kvSeq i n).setLen then (kvSeq i n).freeze else 0
  | none => 0

theorem waitingFreeze_le {t : TableSt} {n len : Nat} (freeze : ∀ i r k, t.shadow = some (i, r, k) → n < (kvHead i).nSeq →
    (kvSeq i n).setLen = false → (kvSeq i n).freeze ≤ len) : waitingFreeze t n ≤ len := by
  unfold waitingFreeze
  split
  · next i r k waits =>
    split_ifs with holds
    · simp only [Bool.and_eq_true, decide_eq_true_eq, Bool.not_eq_true'] at holds
      obtain ⟨entry, keeps⟩ := holds
      exact freeze i r k waits entry keeps
    · exact Nat.zero_le _
  · exact Nat.zero_le _

/-- What a roll-back without a fault does (R464, R480). -/
theorem rollback_law {v : State} {x : Ctx} {b : Bytes} {y : TableSt} {new : Nat} : let n := num b 0 2 % 4096
    rollbackLen x.i.x b (kvLen y n) = new → v.tables.find? (kvNamed x.j.id x.od.tid) = some y →
    ¬(x.i.x = true ∧ bit (num b 0 4) 31 = true ∧ kvLen y n < new) → new ≤ classLimit x.j.interactive →
    (∀ i, y.image = some i → new ≤ kvCover i n) → (y.image = none → new = 0) →
    (∀ i r k, y.shadow = some (i, r, k) → n < (kvHead i).nSeq → (kvSeq i n).setLen = false → (kvSeq i n).freeze ≤ new) →
    rollback v x b = { v with tables := rolledBack x.j.id x.od.tid n new v.tables } := by
  intro n asked found lowers limit cover none_ freeze
  have named := List.find?_some found
  simp only [kvNamed, Bool.and_eq_true, beq_iff_eq] at named
  obtain ⟨⟨job, -⟩, id⟩ := named
  have covered : ¬ (y.image.map fun i => kvCover i n).getD 0 < new := by
    cases image : y.image with
    | none => simp [none_ image]
    | some i => simpa using cover i image
  have frozen : ¬ new < waitingFreeze y n := (waitingFreeze_le freeze).not_gt
  have tables : (v.tables.find? fun t => t.job == x.j.id && t.kind == 1 && t.id == x.od.tid) = some y := found
  rw [rollback]
  dsimp only
  rw [tables, Option.getD_some, asked, if_neg (by simpa [and_assoc] using lowers), if_neg limit.not_gt, if_neg covered]
  refine (if_neg frozen).trans ?_
  rw [job, id]
  rfl

/-- Settles O26: each premise passes one check of the roll-back, and one entry of one table takes the new length. -/
theorem rollbackMovesTheLength : Obligations.RollbackMovesTheLength := by
  unfold Obligations.RollbackMovesTheLength
  intro c ph s v x b y u n mine len new ready
  refine ⟨atRollback_skipped ready, fun going read found lowers limit cover none_ freeze => ?_⟩
  have done := rollback_law (rollbackLen_eq x.i.x b (kvLen y n)) found lowers limit cover none_ freeze
  exact ⟨_, (atRollback_law ready b v going read).trans (congrArg _ done), rfl, rfl, y.withLen n new, find?_rolledBack found,
    (kvLen_withLen ..).trans (if_pos rfl), fun m other => (kvLen_withLen ..).trans (if_neg other.symm), rfl⟩

end Sys2Proof.Machine
end

section
/-! ### Signals on their way to the copies (R490, R493, R496, R497, R501) -/

namespace Sys2Proof.Machine

open Sys2Proof

/-- The SYN block with a job's signal on its way to every copy, and with a group signal queued for the other members. -/
def Syn.signalled (y : Syn) (j : Job) (n amount src : Nat) (group : Bool) : Syn :=
  { y with
    inFlight := y.inFlight ++ (List.range 33).map (fun k => (n, k, amount, src))
    groupQ := y.groupQ ++ if group then [(j.id, n - j.params.cairnBase, amount)] else [] }

theorem sendAddition_fits {s : State} {n amount src : Nat} (fits : cairnVal s n 32 + onItsWay s n + amount ≤ 0xFFFFFFFF) :
    sendAddition s n amount src =
      { s with syn := { s.syn with inFlight := s.syn.inFlight ++ (List.range 33).map fun k => (n, k, amount, src) } } :=
  if_neg fits.not_gt

/-- A signal of a job that may send it, and that carries no copy past its end. -/
theorem traced_sendSignal {s : State} {who : Issuer} {j : Job} {n amount : Nat} {group : Bool}
    (member : group = true → j.params.group = true) (fits : cairnVal s n 32 + onItsWay s n + amount ≤ 0xFFFFFFFF) :
    Traced { s with syn := s.syn.signalled j n amount (srcCell who.cell) group } (sendSignal s who j n amount group) := by
  set u : State := { s with syn := { s.syn with
    groupQ := s.syn.groupQ ++ if group then [(j.id, n - j.params.cairnBase, amount)] else [] } }
  have queues : (if group = true then { s with syn := { s.syn with
      groupQ := s.syn.groupQ ++ [(j.id, n - j.params.cairnBase, amount)] } } else s) = u := by
    cases group with
    | false => simp [u]
    | true => rfl
  have may : ¬ (group && !j.params.group) = true := by simpa using member
  have room : cairnVal u n 32 + onItsWay u n + amount ≤ 0xFFFFFFFF := fits
  have sent := traced_traceRec (sendAddition u n amount (srcCell who.cell)) (regionOf who.cell) 2 who.cell [n, amount]
  unfold sendSignal
  dsimp only
  rw [if_neg may, queues]
  rwa [sendAddition_fits room] at sent ⊢

/-- CA_SIGNAL_SEND of a signal that goes through (R490, R493, R501). -/
theorem caSignalSend_law {c n a index : Nat} {g : Bool} {rest : List Flight} {s : State} {j : Job}
    (oldest : (s.cell c).seq.flight = .signal n a g index :: rest) (known : s.job? (s.cell c).seq.job = some j)
    (member : g = true → j.params.group = true ∧ s.syn.groupQ.length < 64)
    (fits : cairnVal s n 32 + onItsWay s n + a ≤ 0xFFFFFFFF) :
    ∃ u, Traced { s.updSeq c (fun q => { q with flight := rest }) with syn := s.syn.signalled j n a (srcCell c) g } u ∧
      exec (.caSignalSend c) s = .next (settle u c) := by
  have room : groupFull s j g = false := by
    cases g with
    | false => rfl
    | true => simp [groupFull, (member rfl).2]
  refine ⟨_, traced_sendSignal (s := s.updSeq c fun q => { q with flight := rest })
    (who := ⟨c, vcellOf (s.updSeq c fun q => { q with flight := rest }) j c, 0x60, j.sheet, index, j.id⟩)
    (fun h => (member h).1) fits, ?_⟩
  have run : exec (.caSignalSend c) s = execCaSignalSend c s := rfl
  rw [run]
  unfold execCaSignalSend
  dsimp only
  rw [oldest, known]
  dsimp only
  rw [if_neg (by simp [room])]

/-! Waking the sleepers of a wire (R497). -/

/-- A cell of the map that sleeps in the region on the wire of a cairn. -/
def sleeper (r n : Nat) (e : Nat × CellSt) : Option Wait :=
  if regionOf e.1 == r then e.2.seq.wait.filter fun w => w.cairn % 16 == n % 16 else none

theorem sleeper_eq_some {r n c : Nat} {x : CellSt} {w : Wait} :
    sleeper r n (c, x) = some w ↔ regionOf c = r ∧ x.seq.wait = some w ∧ w.cairn % 16 = n % 16 := by
  simp [sleeper, Option.filter_eq_some_iff]

/-- The copy that a sleeper's wait names is read. -/
def readSleeper (r n : Nat) (t : State) (e : Nat × CellSt) : State :=
  match sleeper r n e with
  | some w => fixCopy t w.cairn r
  | none => t

/-- A sleeper tests its condition. -/
def testSleeper (r n : Nat) (t : State) (e : Nat × CellSt) : State :=
  match sleeper r n e with
  | some w => if waitHolds t r w then wakeCell t e.1 w else t.countCell 0x00C e.1 1
  | none => t

theorem fireWire_eq (s : State) (r n : Nat) :
    fireWire s r n = (s.cells.foldl (readSleeper r n) s).cells.foldl (testSleeper r n) (s.cells.foldl (readSleeper r n) s) := rfl

theorem fixCopy_clean {s : State} {n r : Nat} (clean : sget 0 s.syn.bad (cairnKey n r) = 0) : fixCopy s n r = s :=
  if_pos (by simpa using clean)

/-- A wire whose sleepers' copies are clean. -/
theorem fireWire_clean {s : State} {r n : Nat}
    (clean : ∀ e ∈ s.cells, ∀ w, sleeper r n e = some w → sget 0 s.syn.bad (cairnKey w.cairn r) = 0) :
    fireWire s r n = s.cells.foldl (testSleeper r n) s := by
  have same : s.cells.foldl (readSleeper r n) s = s := by
    refine List.foldlRecOn (motive := fun t => t = s) s.cells _ rfl fun t eq e mem => ?_
    subst eq
    unfold readSleeper
    split
    · next w asleep => exact fixCopy_clean (clean e mem w asleep)
    · rfl
  rw [fireWire_eq, same]

/-- A cell as it is woken from a wait. -/
def CellSt.roused (x : CellSt) (now : Nat) (w : Wait) : CellSt :=
  { x with seq := { x.seq with wait := none, slept := x.seq.slept + (now - w.since) } }

theorem cell_wakeCell (s : State) (c : Nat) (w : Wait) (d : Nat) :
    (wakeCell s c w).cell d = if c = d then (s.cell c).roused s.clk.cycles w else s.cell d :=
  ((traced_wakeCell s c w).cell d).trans (State.cell_updSeq ..)

theorem wakeCell_rest (s : State) (c : Nat) (w : Wait) :
    { wakeCell s c w with cells := s.cells, regions := s.regions, mon := s.mon, err := s.err } = s :=
  (congrArg (fun t : State => { t with cells := s.cells }) (traced_wakeCell s c w).rest :)

theorem waitHolds_congr {s t : State} (h : t.syn = s.syn) (r : Nat) (w : Wait) : waitHolds t r w = waitHolds s r w := by
  unfold waitHolds cairnSound cairnVal
  rw [h]

section
variable {r n : Nat} {s t : State} {e : Nat × CellSt}

/-- A sleeper wakes where its condition holds; else at most its wake is counted. -/
theorem testSleeper_cases : (∃ w, sleeper r n e = some w ∧ waitHolds t r w = true ∧ testSleeper r n t e = wakeCell t e.1 w) ∨
    (∀ w, sleeper r n e = some w → waitHolds t r w = false) ∧ Traced t (testSleeper r n t e) := by
  unfold testSleeper
  split
  · next w asleep =>
    split_ifs with holds
    · exact .inl ⟨w, asleep, holds, rfl⟩
    · refine .inr ⟨fun v same => ?_, traced_count ..⟩
      obtain rfl := Option.some.inj (asleep.symm.trans same)
      exact Bool.eq_false_iff.mpr holds
  · next awake => exact .inr ⟨fun w asleep => (Option.some_ne_none w (asleep.symm.trans awake)).elim, .refl t⟩

theorem testSleeper_rest : { testSleeper r n t e with cells := t.cells, regions := t.regions, mon := t.mon, err := t.err } = t := by
  obtain ⟨w, -, -, wakes⟩ | ⟨-, traced⟩ := testSleeper_cases (r := r) (n := n) (t := t) (e := e)
  · rw [wakes, wakeCell_rest]
  · exact (congrArg (fun u : State => { u with cells := t.cells }) traced.rest :)

theorem testSleeper_syn : (testSleeper r n t e).syn = t.syn := (congrArg State.syn (testSleeper_rest (r := r) (n := n) (e := e)) :)

/-- A cell that is not asleep is not put to sleep. -/
theorem testSleeper_awake {d : Nat} (awake : (t.cell d).seq.wait = none) : ((testSleeper r n t e).cell d).seq.wait = none := by
  obtain ⟨w, -, -, wakes⟩ | ⟨-, traced⟩ := testSleeper_cases (r := r) (n := n) (t := t) (e := e)
  · rw [wakes, cell_wakeCell]
    split_ifs
    · rfl
    · exact awake
  · rw [traced.cell, awake]

theorem testSleeper_wakes {w : Wait} (asleep : sleeper r n e = some w) (holds : waitHolds t r w = true) :
    ((testSleeper r n t e).cell e.1).seq.wait = none := by
  obtain ⟨v, -, -, wakes⟩ | ⟨stays, -⟩ := testSleeper_cases (r := r) (n := n) (t := t) (e := e)
  · rw [wakes, cell_wakeCell, if_pos rfl]
    rfl
  · rw [stays w asleep] at holds
    cases holds

theorem testSleeper_stays {d : Nat} (stays : e.1 = d → ∀ w, sleeper r n e = some w → waitHolds t r w = false) :
    (testSleeper r n t e).cell d = t.cell d := by
  obtain ⟨w, asleep, holds, wakes⟩ | ⟨-, traced⟩ := testSleeper_cases (r := r) (n := n) (t := t) (e := e)
  · have other : e.1 ≠ d := fun own => by
      rw [stays own w asleep] at holds
      cases holds
    rw [wakes, cell_wakeCell, if_neg other]
  · exact traced.cell d

end

section
variable {r n : Nat} {s : State} {l : List (Nat × CellSt)}

theorem testSleepers_syn : (l.foldl (testSleeper r n) s).syn = s.syn := foldl_keeps State.syn (fun _ _ => testSleeper_syn) l s

theorem testSleepers_rest :
    { l.foldl (testSleeper r n) s with cells := s.cells, regions := s.regions, mon := s.mon, err := s.err } = s := by
  refine foldl_keeps (fun t : State => { t with cells := s.cells, regions := s.regions, mon := s.mon, err := s.err }) (fun t e => ?_) l s
  exact congrArg (fun u : State => { u with cells := s.cells, regions := s.regions, mon := s.mon, err := s.err })
    (testSleeper_rest (r := r) (n := n) (t := t) (e := e))

theorem testSleepers_wake {e : Nat × CellSt} {w : Wait} (mem : e ∈ l) (asleep : sleeper r n e = some w)
    (holds : waitHolds s r w = true) : ((l.foldl (testSleeper r n) s).cell e.1).seq.wait = none := by
  obtain ⟨before, after, rfl⟩ := List.append_of_mem mem
  rw [List.foldl_append, List.foldl_cons]
  refine List.foldlRecOn (motive := fun t : State => (t.cell e.1).seq.wait = none) after _ (testSleeper_wakes asleep ?_)
    fun t awake _ _ => testSleeper_awake awake
  rwa [waitHolds_congr testSleepers_syn]

theorem testSleepers_stay {d : Nat} (stays : ∀ e ∈ l, e.1 = d → ∀ w, sleeper r n e = some w → waitHolds s r w = false) :
    (l.foldl (testSleeper r n) s).cell d = s.cell d := by
  refine (List.foldlRecOn (motive := fun t : State => t.syn = s.syn ∧ t.cell d = s.cell d) l _ ⟨rfl, rfl⟩ ?_).2
  rintro t ⟨syn, cell⟩ e mem
  refine ⟨testSleeper_syn.trans syn, (testSleeper_stays fun own w asleep => ?_).trans cell⟩
  rw [waitHolds_congr syn, stays e mem own w asleep]

end

/-! The cells of a canonical map. -/

/-- What stands in a canonical map is read there. -/
theorem sget_of_mem {α : Type} [DecidableEq α] {d : α} {m : Sparse α} {lo k : Nat} {v : α} (wf : swfFrom d lo m = true)
    (mem : (k, v) ∈ m) : lo ≤ k ∧ sget d m k = v := by
  induction m generalizing lo with
  | nil => cases mem
  | cons e m ih =>
    obtain ⟨i, x⟩ := e
    simp only [swfFrom, Bool.and_eq_true, decide_eq_true_eq] at wf
    obtain ⟨⟨low, -⟩, tail⟩ := wf
    cases mem with
    | head => exact ⟨low, by simp [sget]⟩
    | tail _ mem =>
      obtain ⟨above, read⟩ := ih tail mem
      exact ⟨by omega, by simpa [sget, show k ≠ i by omega] using read⟩

/-- A sleeping cell stands in the map. -/
theorem mem_cells_of_wait {s : State} {c : Nat} {w : Wait} (asleep : (s.cell c).seq.wait = some w) : (c, s.cell c) ∈ s.cells := by
  refine mem_of_sget fun fresh => ?_
  rw [State.cell, fresh] at asleep
  cases asleep

/-- A wire of clean copies fires: the cells asleep on it whose condition holds wake, and nothing else changes but counts and
trace records. -/
theorem fireWire_law {s : State} {r n : Nat} (wf : swf {} s.cells = true)
    (clean : ∀ c w, regionOf c = r → (s.cell c).seq.wait = some w → sget 0 s.syn.bad (cairnKey w.cairn r) = 0) :
    let wakes (c : Nat) (w : Wait) : Prop := regionOf c = r ∧ (s.cell c).seq.wait = some w ∧ w.cairn % 16 = n % 16 ∧
      w.value ≤ cairnVal s w.cairn r
    (∀ c w, wakes c w → ((fireWire s r n).cell c).seq.wait = none) ∧
    (∀ c, (∀ w, ¬wakes c w) → (fireWire s r n).cell c = s.cell c) ∧
    { fireWire s r n with cells := s.cells, regions := s.regions, mon := s.mon, err := s.err } = s := by
  intro wakes
  have listed {e : Nat × CellSt} (mem : e ∈ s.cells) : e = (e.1, s.cell e.1) := Prod.ext rfl (sget_of_mem wf mem).2.symm
  have sleeps {e : Nat × CellSt} (mem : e ∈ s.cells) {w : Wait} (asleep : sleeper r n e = some w) :
      regionOf e.1 = r ∧ (s.cell e.1).seq.wait = some w ∧ w.cairn % 16 = n % 16 := by
    rw [listed mem] at asleep
    exact sleeper_eq_some.mp asleep
  have holds {c : Nat} {w : Wait} (here : regionOf c = r) (asleep : (s.cell c).seq.wait = some w) :
      waitHolds s r w = decide (w.value ≤ cairnVal s w.cairn r) := waitHolds_clean (clean c w here asleep)
  rw [fireWire_clean fun e mem w asleep => clean e.1 w (sleeps mem asleep).1 (sleeps mem asleep).2.1]
  refine ⟨fun c w => ?_, fun c none_ => testSleepers_stay fun e mem own w asleep => ?_, testSleepers_rest⟩
  · rintro ⟨here, asleep, wire, met⟩
    exact testSleepers_wake (mem_cells_of_wait asleep) (sleeper_eq_some.mpr ⟨here, asleep, wire⟩)
      ((holds here asleep).trans (decide_eq_true met))
  · subst own
    obtain ⟨here, waits, wire⟩ := sleeps mem asleep
    rw [holds here waits]
    exact decide_eq_false fun met => none_ w ⟨here, waits, wire, met⟩

/-! An addition arrives. -/

theorem cairnVal_setCairn_same (s : State) (n copy v m : Nat) :
    cairnVal (setCairn s n copy v) m copy = if m = n then v else cairnVal s m copy := by
  have key : cairnKey n copy = cairnKey m copy ↔ m = n := by
    unfold cairnKey
    omega
  unfold cairnVal setCairn
  simp only [sget_sset, key]

theorem clean_setCairn {s : State} {k : Nat} (clean : sget 0 s.syn.bad k = 0) (n copy v : Nat) :
    sget 0 (setCairn s n copy v).syn.bad k = 0 :=
  (sget_sdel ..).trans (by rw [clean, ite_self])

/-- CAIRN_SIGNAL_ARRIVAL at a clean copy (R490, R496). -/
theorem cairnSignalArrival_law {n copy a : Nat} {ph : List Phys} {rest : List (Nat × Nat × Nat × Nat)} {s : State} :
    let u := injectAll s ph
    takeFlight n copy u.syn.inFlight = some (a, rest) → sget 0 u.syn.bad (cairnKey n copy) = 0 →
    exec (.cairnSignalArrival n copy ph) s =
      .next (changeCairn { u with syn := { u.syn with inFlight := rest } } n copy (min 0xFFFFFFFF (cairnVal u n copy + a))) := by
  intro u oldest clean
  set y : State := { u with syn := { u.syn with inFlight := rest } }
  have at_copy : sget 0 y.syn.bad (cairnKey n copy) = 0 := clean
  have run : exec (.cairnSignalArrival n copy ph) s = execCairnSignalArrival n copy ph s := rfl
  rw [run]
  unfold execCairnSignalArrival
  dsimp only
  rw [oldest]
  dsimp only
  rw [scanCairn_clean at_copy]
  exact congrArg _ (if_pos (cairnSound_clean at_copy))

/-- A change of a copy: with the wire of a region copy that changed, the waiters that it satisfies wake. -/
theorem changeCairn_law {s : State} {n copy v : Nat} (wf : swf {} s.cells = true)
    (clean : ∀ c w, regionOf c = copy → (s.cell c).seq.wait = some w → sget 0 s.syn.bad (cairnKey w.cairn copy) = 0) :
    let t := changeCairn s n copy v
    let woken (c : Nat) (w : Wait) : Prop := copy ≠ 32 ∧ v ≠ cairnVal s n copy ∧ regionOf c = copy ∧
      (s.cell c).seq.wait = some w ∧ w.cairn % 16 = n % 16 ∧ w.value ≤ if w.cairn = n then v else cairnVal s w.cairn copy
    (∀ c w, woken c w → (t.cell c).seq.wait = none) ∧ (∀ c, (∀ w, ¬woken c w) → t.cell c = s.cell c) ∧
    { t with cells := s.cells, regions := s.regions, mon := s.mon, err := s.err } = setCairn s n copy v := by
  intro t woken
  by_cases quiet : copy = 32 ∨ v = cairnVal s n copy
  · have same : t = setCairn s n copy v := if_pos (by simpa using quiet)
    rw [same]
    refine ⟨fun c w => ?_, fun c _ => rfl, rfl⟩
    rintro ⟨region, changed, -⟩
    exact (quiet.elim region changed).elim
  · have fires : t = fireWire (setCairn s n copy v) copy n := if_neg (by simpa using quiet)
    obtain ⟨region, changed⟩ := not_or.mp quiet
    have wires := fireWire_law (s := setCairn s n copy v) (r := copy) (n := n) wf
      fun c w here asleep => clean_setCairn (clean c w here asleep) ..
    simp only [cairnVal_setCairn_same] at wires
    obtain ⟨wake, stay, rest⟩ := wires
    rw [fires]
    exact ⟨fun c w ⟨_, _, wakes⟩ => wake c w wakes, fun c none_ => stay c fun w wakes => none_ w ⟨region, changed, wakes⟩, rest⟩

/-- Settles O28: a signal sent is one addition for each copy, and one that arrives sets a copy and fires its wire. -/
theorem signalsReachEveryCopy : Obligations.SignalsReachEveryCopy := by
  unfold Obligations.SignalsReachEveryCopy
  refine ⟨fun c n a index g rest s j oldest known member fits => ?_, ?_⟩
  · obtain ⟨u, traced, run⟩ := caSignalSend_law oldest known member fits
    obtain ⟨cells, sht, settles⟩ := settle_shape u c
    have cell (d : Nat) : u.cell d = if c = d then { s.cell c with seq := { (s.cell c).seq with flight := rest } } else s.cell d :=
      (traced.cell d).trans (State.cell_updSeq s c d fun q => { q with flight := rest })
    refine ⟨_, run, ?_, ?_, fun d other => ?_, ?_⟩
    · rw [settles]
      exact (congrArg State.syn traced.rest :)
    · rw [cell_settle, if_pos rfl, settled_flight, cell, if_pos rfl]
    · rw [cell_settle, if_neg other.symm, cell, if_neg other.symm]
    · rw [settles]
      exact (congrArg (fun t : State => { t with cells := s.cells, syn := s.syn, sht := s.sht }) traced.rest :)
  · intro n copy a ph rest s u v woken oldest clean _ _ waits wf
    obtain ⟨wake, stay, kept⟩ :=
      changeCairn_law (s := { u with syn := { u.syn with inFlight := rest } }) (n := n) (copy := copy) (v := v) wf waits
    exact ⟨_, cairnSignalArrival_law oldest clean, (congrArg State.syn kept :), wake, stay,
      (congrArg (fun t : State => { t with syn := u.syn }) kept :)⟩

end Sys2Proof.Machine
end

section
/-! ### Timeouts of waits and the deadlock detector (R498, R505 to R510) -/

namespace Sys2Proof.Machine

open Sys2Proof

section
variable {c : Nat} {s : State} {w : Wait} {j : Job}

theorem cairnTimeout_off (waits : (s.cell c).seq.wait = some w) (known : s.job? (s.cell c).seq.job = some j)
    (off : j.params.deadlockMode = 1) : exec (.cairnTimeout c) s = .next s := by
  have run : exec (.cairnTimeout c) s = execCairnTimeout c s := rfl
  rw [run]
  unfold execCairnTimeout
  dsimp only
  rw [waits, known]
  exact if_pos (by simpa using off)

/-- CAIRN_TIMEOUT with the timeout on, at a clean copy (R498, R506). -/
theorem cairnTimeout_on (waits : (s.cell c).seq.wait = some w) (known : s.job? (s.cell c).seq.job = some j)
    (on : j.params.deadlockMode ≠ 1) (clean : sget 0 s.syn.bad (cairnKey w.cairn (regionOf c)) = 0) :
    let u := s.untilCycle (w.since + waitTimeout j)
    exec (.cairnTimeout c) s = .next (if w.value ≤ cairnVal s w.cairn (regionOf c) then wakeCell u c w
      else raiseCell { u with syn := { s.syn with timeout := true } } 0x3201 2 c
        (some ⟨c, vcellOf s j c, 0x61, j.sheet, (s.cell c).seq.index - 1, j.id⟩)
        [c, w.cairn, w.cairn - j.params.cairnBase, w.value, cairnVal s w.cairn (regionOf c)]) := by
  intro u
  obtain ⟨k, clock, -, -⟩ := untilCycle_eq s (w.since + waitTimeout j)
  have later : u = { s with clk := k } := clock
  have still : sget 0 u.syn.bad (cairnKey w.cairn (regionOf c)) = 0 := by rwa [later]
  have asleep : ¬ (u.cell c).seq.wait.isNone = true := by
    have same : (u.cell c).seq.wait = some w := by rw [later]; exact waits
    rw [same, Option.isNone_some]
    decide
  have run : exec (.cairnTimeout c) s = execCairnTimeout c s := rfl
  rw [run]
  unfold execCairnTimeout
  dsimp only
  rw [waits, known]
  dsimp only
  rw [if_neg (by simpa using on), scanCairn_clean still, if_neg asleep, waitHolds_clean still]
  rw [later]
  simp only [decide_eq_true_eq, apply_ite Host.Outcome.next]
  rfl

end

/-! A sample (R507 to R511). -/

theorem jobs_untilCycle (s : State) (n : Nat) : (s.untilCycle n).jobs = s.jobs := by
  obtain ⟨k, clock, -, -⟩ := untilCycle_eq s n
  rw [clock]

theorem deadlockSample_law (s : State) : let u := s.untilCycle ((s.clk.cycles / 4096 + 1) * 4096)
    exec .deadlockSample s = .next (s.jobs.foldl (sampleJob u) u) := by
  intro u
  rw [← jobs_untilCycle s ((s.clk.cycles / 4096 + 1) * 4096)]
  rfl

theorem waitBit_iff (s : State) :
    waitBit s = true ↔ ∀ j ∈ s.jobs, j.params.group = true → j.phase = .running → stuckNow s j = true := by
  rw [waitBit, List.all_eq_true]
  refine forall₂_congr fun j _ => ?_
  by_cases group : j.params.group = true
  · by_cases runs : j.phase = .running
    · simp [group, runs]
    · simp [runs]
  · simp [group]

/-- A job counts as stuck at a sample: a group job only with every member's level at 15 (R507, R509). -/
def stuckAt (at0 : State) (j : Job) : Bool := stuckNow at0 j && (!j.params.group || ownBusy at0 == 15)

theorem stuckAt_iff (at0 : State) (j : Job) :
    stuckAt at0 j = true ↔ stuckNow at0 j = true ∧ (j.params.group = true → ownBusy at0 = 15) := by
  rw [stuckAt, Bool.and_eq_true, Bool.or_eq_true, Bool.not_eq_true', beq_iff_eq, ← Bool.not_eq_true, ← imp_iff_not_or]

/-- The detector is on for a job, and no wait of it times out in this core cycle (R505, R511). -/
def detects (at0 : State) (j : Job) : Prop := j.params.deadlockMode = 1 ∨ j.params.deadlockMode = 2 ∧ timesOut at0 j = false

theorem detects_iff (at0 : State) (j : Job) :
    detects at0 j ↔ ((j.params.deadlockMode == 1 || j.params.deadlockMode == 2) && !timesOut at0 j) = true := by
  by_cases one : j.params.deadlockMode = 1
  · simp [detects, one, timesOut]
  · simp [detects, one]

section
variable {at0 s : State} {j : Job}

theorem sampleJob_deadlock (stuck : stuckAt at0 j = true) (before : j.stuck = true) (on : detects at0 j) :
    sampleJob at0 s j = deadlock (s.updJob j.id fun k => { k with stuck := true }) j := by
  have dead : (stuckAt at0 j && j.stuck && (j.params.deadlockMode == 1 || j.params.deadlockMode == 2) && !timesOut at0 j) = true := by
    rw [stuck, before, Bool.true_and, Bool.true_and]
    exact (detects_iff at0 j).mp on
  rw [← stuck]
  exact if_pos dead

theorem sampleJob_marks (going : ¬(stuckAt at0 j = true ∧ j.stuck = true ∧ detects at0 j)) :
    sampleJob at0 s j = s.updJob j.id fun k => { k with stuck := stuckAt at0 j } := by
  refine if_neg fun dead => going ?_
  rw [Bool.and_assoc, Bool.and_eq_true, Bool.and_eq_true] at dead
  obtain ⟨⟨stuck, before⟩, on⟩ := dead
  exact ⟨stuck, before, (detects_iff at0 j).mpr on⟩

/-- A deadlock latches its waiters while the latch is free, and raises one record against the job (R508, R510). -/
theorem deadlock_law (s : State) (j : Job) : ∃ u : State, u.syn.latched = true ∧ (s.syn.latched = true → u.syn = s.syn) ∧
    (s.syn.latched = false → u.syn.dlJob = j.id ∧ u.syn.dlWaiter.length ≤ 16) ∧
    ∃ det, deadlock s j = raiseChip u 0x3202 2 9 0 j.id det false true ∧ det.length = 6 ∧ det.headD 0 = j.id := by
  unfold deadlock
  extract_lets cs ws _ u
  have words : ([j.id, cs.length] ++ ((ws.take 4) ++ List.replicate 4 0).take 4).length = 6 := by simp
  cases free : s.syn.latched with
  | true =>
    have same : u = s := if_pos free
    exact ⟨u, by rw [same, free], fun _ => by rw [same], nofun, _, rfl, words, rfl⟩
  | false =>
    have latches : u = _ := if_neg (by rw [free]; decide)
    refine ⟨u, by rw [latches], nofun, fun _ => ?_, _, rfl, words, rfl⟩
    rw [latches]
    exact ⟨rfl, List.length_take_le ..⟩

end

/-- Settles O29. Clauses that are the model's choice (log entry 52): the wait bit set where no group job runs, every job of a sample
judged by the one state `at0`, and CAIRN_TIMEOUT raised at the cell alone. -/
theorem waitsTimeOutAndJobsDeadlock : Obligations.WaitsTimeOutAndJobsDeadlock := by
  unfold Obligations.WaitsTimeOutAndJobsDeadlock
  refine ⟨?_, deadlockSample_law, waitBit_iff, ?_⟩
  · intro c s w j v waits known serves u copy
    refine ⟨cairnTimeout_off waits known, fun on clean => ?_⟩
    have limit : waitTimeout j = if j.params.waitTimeout = 0 then 1048576 else j.params.waitTimeout := by simp [waitTimeout]
    have vcell : vcellOf s j c = v.vcell := by rw [vcellOf, serves]; rfl
    have law := cairnTimeout_on waits known on clean
    rw [limit, vcell] at law
    refine ⟨fun below => law.trans (congrArg _ (if_neg below.not_ge)), fun met => ⟨_, law.trans (congrArg _ (if_pos met)), ?_⟩⟩
    obtain ⟨k, clock, -, -⟩ := untilCycle_eq s (w.since + if j.params.waitTimeout = 0 then 1048576 else j.params.waitTimeout)
    rw [clock]
    refine ⟨?_, fun d other => ?_, ?_⟩
    · rw [cell_wakeCell, if_pos rfl]
      rfl
    · rw [cell_wakeCell, if_neg other.symm]
      rfl
    · exact (congrArg (fun t : State => { t with clk := s.clk }) (wakeCell_rest ..) :)
  · intro at0 s j now
    have stuck : stuckAt at0 j = true ↔ now := stuckAt_iff at0 j
    refine ⟨fun here before on => ?_, fun here first => ?_, fun moving => ?_⟩
    · rw [sampleJob_deadlock (stuck.mpr here) before on]
      exact deadlock_law (s.updJob j.id fun k => { k with stuck := true }) j
    · rw [sampleJob_marks, stuck.mpr here]
      rintro ⟨-, before, on⟩
      rcases first with fresh | ⟨notOne, notTwo⟩
      · exact Bool.false_ne_true (fresh.symm.trans before)
      · obtain one | ⟨two, quiet⟩ := on
        · exact notOne one
        · exact notTwo.elim (fun other => other two) fun timed => Bool.false_ne_true (quiet.symm.trans timed)
    · rw [sampleJob_marks fun dead => moving (stuck.mp dead.1), Bool.eq_false_iff.mpr fun h => moving (stuck.mp h)]

end Sys2Proof.Machine
end

section
/-! ### Flits received on a port in service (R516, R518 to R524, R526, R527, R529, R540, R545) -/

namespace Sys2Proof.Machine

open Sys2Proof

/-- What every accepted numbered flit does before its own effect: state fields, number, event field. -/
def heard (s : State) (p sync : Nat) : State := takeEvent (acceptFlit (takeState s p sync) p) p sync

/-- The transfer that a head opens on a port (R524). -/
def openedRing (s : State) (p : Nat) (body : Bytes) : RingIn where
  role := (s.port p).role
  ports := rolePorts s (s.port p).role
  job := num body 0 2
  op := num body 2 1
  number := num body 4 2
  dstOff := num body 8 8 % 2 ^ 40
  dstSeg := num body 8 8 / 2 ^ 40 % 256
  len := num body 16 8
  signal := if bit (num body 24 2) 15 then some (num body 24 2 % 4096, num body 28 4) else none

/-- The sent transfer that a RING_DONE of this number names on a port (R545). -/
def endsRing (s : State) (p number : Nat) (r : RingOut) : Bool := r.number == number && r.dir == (s.port p).role - 1

/-- A sent transfer is over: it is dropped from those under way, and from the flight of its cell. -/
def ringEnded (s : State) (p number cell : Nat) : State :=
  { s with grp := { s.grp with rings := s.grp.rings.filter fun y => !endsRing s p number y } }.updSeq cell fun q =>
    { q with flight := q.flight.filter fun f => decide (f ≠ Flight.ring number) }

/-! The rows of numbered flits whose CRC and number are right. -/

section
variable {p sync : Nat} {body : Bytes} {ph : List Phys} {s : State}

theorem receive_served (served : (s.port p).up = true) (act : State → State) : receive s p sync act = agree (act (heard s p sync)) := by
  simp [receive, portUp, served, heard]

theorem idleFlit_law (served : (s.port p).up = true) : exec (.idleFlit p sync) s = .next (takeState s p sync) :=
  congrArg _ (if_pos served)

theorem controlNop_law (served : (s.port p).up = true) : exec (.controlNop p sync) s = .next (agree (heard s p sync)) :=
  congrArg _ (receive_served served id)

theorem eq_law (served : (s.port p).up = true) : exec (.eq p sync body) s =
    .next (agree ((heard s p sync).updPort p fun x => { x with
      taps := supd 0 x.taps (num body 4 1 * 4 + num body 5 1 % 4) fun v =>
        if num body 6 1 = 1 then v + 1 else if num body 6 1 = 255 then v - 1 else v })) := by
  refine (congrArg _ (receive_served served _)).trans ?_
  simp only [beq_iff_eq]

theorem twinCheck_law (served : (s.port p).up = true) : exec (.twinCheck p sync body) s =
    .next (agree (twinCompare ((heard s p sync).updJob (num body 4 2) fun j =>
      if j.params.twin then { j with twinTheirs := (j.twinTheirs.filter fun e => e.1 != num body 7 1 % 4) ++
        [(num body 7 1 % 4, num body 8 8)] } else j) (num body 4 2))) :=
  congrArg _ (receive_served served _)

theorem headFlit_law (served : (s.port p).up = true) : let u := heard s p sync
    exec (.headFlit p sync body) s = .next (agree ((rolePorts u (u.port p).role).foldl ringPump
      { u with grp := { u.grp with ringsIn := u.grp.ringsIn ++ [openedRing u p body] } })) :=
  congrArg _ (receive_served served _)

theorem dataFlit_law (served : portUp (injectAll s ph) p = true) : exec (.dataFlit p sync body ph) s =
    .next (agree (ringPump ((heard (injectAll s ph) p sync).updPort p fun x =>
      { x with blockBuf := x.blockBuf ++ slice body 0 240 }) p)) :=
  congrArg _ (receive_served served _)

theorem ringDone_unknown (served : (s.port p).up = true)
    (unknown : (heard s p sync).grp.rings.find? (endsRing (heard s p sync) p (num body 6 2)) = none) :
    exec (.ringDone p sync body) s = .next (agree (heard s p sync)) := by
  refine (congrArg _ (receive_served served _)).trans (congrArg (Host.Outcome.next ∘ agree) ?_)
  unfold endsRing at unknown
  simp only [unknown]

theorem ringDone_known {r : RingOut} (served : (s.port p).up = true)
    (known : (heard s p sync).grp.rings.find? (endsRing (heard s p sync) p (num body 6 2)) = some r) :
    let w := ringEnded (heard s p sync) p (num body 6 2) r.cell
    exec (.ringDone p sync body) s =
      .next (agree (settle (if num body 8 1 = 0 then w else setAbort w (2 ^ (r.job % 4))) r.cell)) := by
  refine (congrArg _ (receive_served served _)).trans (congrArg (Host.Outcome.next ∘ agree) ?_)
  unfold endsRing at known
  simp only [known, beq_iff_eq]
  rfl

theorem ack_law (served : (s.port p).up = true) (seq credits : Nat) : exec (.ack p ⟨sync, seq⟩ credits) s =
    .next (agree (pump ((heard s p sync).updPort p fun x =>
      { x with credits := x.credits + credits, replays := 0, replaySeq := seq }) p)) := by
  show execAck p ⟨sync, seq⟩ credits s = _
  rw [execAck, receive_served served]

theorem nak_law (served : (s.port p).up = true) (seq : Nat) :
    exec (.nak p ⟨sync, seq⟩) s = .next (agree (replayFrom (heard s p sync) p seq)) :=
  congrArg _ (receive_served served _)

end

/-! Flits that arrive wrong (R516, R519 to R521). -/

/-- The CRC of a flit holds (R519). -/
def flitIntact (f : RawFlit) : Bool := f.crc == flitCrc f.seq f.sync f.body

/-- The uncorrectable code words of a flit are counted (R516). -/
def wrongCounted (s : State) (f : RawFlit) : State := s.updPort f.port fun x => { x with fecUncorr := sat16 x.fecUncorr f.words }

/-- A wrong flit is counted, and its state fields are taken where its CRC holds (R521). -/
def wrongHeard (s : State) (f : RawFlit) : State := if flitIntact f then takeState (wrongCounted s f) f.port f.sync else wrongCounted s f

/-- A NAK is out for a discarded flit, and it is not the awaited flit failing again (R520; log entry 53). -/
def nakOut (s : State) (f : RawFlit) : Bool := (s.port f.port).nakked && (flitIntact f || f.seq != (s.port f.port).rxSeq)

/-- The NAK of a discarded flit (R520). -/
def sendNak (s : State) (p : Nat) : State := sendControl (s.updPort p fun x => { x with nakked := true }) p 2 0 (leBytes 2 (s.port p).rxSeq)

section
variable {s : State} {f : RawFlit}

theorem flitIntact_iff : flitIntact f = true ↔ f.crc = flitCrc f.seq f.sync f.body := beq_iff_eq

theorem nakOut_iff {w : State} : nakOut w f = true ↔
    (w.port f.port).nakked = true ∧ (f.crc = flitCrc f.seq f.sync f.body ∨ f.seq ≠ (w.port f.port).rxSeq) := by
  simp [nakOut, flitIntact]

variable (served : (s.port f.port).up = true)
include served

theorem execFlitDiscard_eq : exec (.flitDiscard f) s =
    .next (if flitIntact f && f.seq == (s.port f.port).rxSeq then wrongCounted s f
      else if nakOut (wrongHeard s f) f || !portUp (wrongHeard s f) f.port then wrongHeard s f
      else sendNak (wrongHeard s f) f.port) := by
  have awaits : ((wrongCounted s f).port f.port).rxSeq = (s.port f.port).rxSeq := by simp [wrongCounted]
  rw [← awaits]
  simp only [apply_ite Host.Outcome.next]
  exact if_neg (by simp [portUp, served])

theorem flitDiscard_awaited (intact : f.crc = flitCrc f.seq f.sync f.body) (awaited : f.seq = (s.port f.port).rxSeq) :
    exec (.flitDiscard f) s = .next (wrongCounted s f) := by
  rw [execFlitDiscard_eq served, if_pos (by rw [flitIntact_iff.mpr intact, awaited, beq_self_eq_true, Bool.and_self])]

variable (wrong : f.crc ≠ flitCrc f.seq f.sync f.body ∨ f.seq ≠ (s.port f.port).rxSeq)
include wrong

theorem execFlitDiscard_wrong : exec (.flitDiscard f) s =
    .next (if nakOut (wrongHeard s f) f || !portUp (wrongHeard s f) f.port then wrongHeard s f else sendNak (wrongHeard s f) f.port) := by
  rw [execFlitDiscard_eq served, if_neg]
  rw [Bool.and_eq_true, flitIntact_iff, beq_iff_eq]
  exact fun right => wrong.elim (· right.1) (· right.2)

theorem flitDiscard_quiet (out : nakOut (wrongHeard s f) f = true) : exec (.flitDiscard f) s = .next (wrongHeard s f) := by
  rw [execFlitDiscard_wrong served wrong, if_pos (by rw [out, Bool.true_or])]

theorem flitDiscard_nak (due : ¬nakOut (wrongHeard s f) f = true)
    (still : ((wrongHeard s f).port f.port).up = true) : exec (.flitDiscard f) s = .next (sendNak (wrongHeard s f) f.port) := by
  rw [execFlitDiscard_wrong served wrong, if_neg (by rw [Bool.eq_false_iff.mpr due, portUp, still]; decide)]

end

theorem flitDiscard_law (p sync seq raw crc words : Nat) (s : State) (served : (s.port p).up = true) :
    let y := s.updPort p fun x => { x with fecUncorr := sat16 x.fecUncorr words }
    let w := if crc = flitCrc seq sync raw then takeState y p sync else y
    (crc = flitCrc seq sync raw → seq = (s.port p).rxSeq → exec (.flitDiscard ⟨p, seq, sync, raw, crc, words⟩) s = .next y) ∧
    (crc ≠ flitCrc seq sync raw ∨ seq ≠ (s.port p).rxSeq → (w.port p).nakked = true →
      crc = flitCrc seq sync raw ∨ seq ≠ (w.port p).rxSeq → exec (.flitDiscard ⟨p, seq, sync, raw, crc, words⟩) s = .next w) ∧
    (crc ≠ flitCrc seq sync raw ∨ seq ≠ (s.port p).rxSeq → (w.port p).up = true →
      (w.port p).nakked = false ∨ crc ≠ flitCrc seq sync raw ∧ seq = (w.port p).rxSeq →
      exec (.flitDiscard ⟨p, seq, sync, raw, crc, words⟩) s =
        .next (sendControl (w.updPort p fun x => { x with nakked := true }) p 2 0 (leBytes 2 (w.port p).rxSeq))) := by
  intro y w
  have heard : wrongHeard s ⟨p, seq, sync, raw, crc, words⟩ = w := if_congr flitIntact_iff rfl rfl
  refine ⟨fun intact awaited => flitDiscard_awaited (f := ⟨p, seq, sync, raw, crc, words⟩) served intact awaited,
    fun wrong nakked again => ?_, fun wrong still due => ?_⟩
  · rw [flitDiscard_quiet served wrong (nakOut_iff.mpr (by rw [heard]; exact ⟨nakked, again⟩)), heard]
  · have due : ¬nakOut w ⟨p, seq, sync, raw, crc, words⟩ = true := by
      rw [nakOut_iff]
      rintro ⟨nakked, again⟩
      rcases due with first | ⟨fails, awaited⟩
      · exact Bool.false_ne_true (first.symm.trans nakked)
      · exact again.elim fails fun other => other awaited
    rw [flitDiscard_nak served wrong (by rwa [heard]) (by rwa [heard]), heard]
    rfl

/-! The parts of a numbered flit: event field, number, state fields (R521, R522, R527, R529). -/

theorem takeEvent_none {s : State} {p sync : Nat} (none : bits sync 26 25 = 0) : takeEvent s p sync = s := by
  simp [takeEvent, none]

theorem acceptFlit_law (s : State) (p : Nat) :
    let v := s.updPort p fun x => { x with rxSeq := (x.rxSeq + 1) % 4096, nakked := false, rxSinceAck := x.rxSinceAck + 1 }
    acceptFlit s p = if (s.port p).rxSinceAck < 63 then v else sendAck v p := by
  intro v
  have counted : (v.port p).rxSinceAck = (s.port p).rxSinceAck + 1 := by simp [v]
  show (if 64 ≤ (v.port p).rxSinceAck then sendAck v p else v) = _
  rw [counted, ← ite_not]
  exact if_congr (by omega) rfl rfl

section
variable {p sync m : Nat} {s : State}

/-- The state once the most recent state fields of neighbour `m` are kept (R527). -/
def fieldKept (s : State) (m sync : Nat) : State := { s with grp := { s.grp with nbr := sset none s.grp.nbr m (some sync) } }

theorem takeState_stranger (stranger : neighbourOf s.grp.topology s.grp.ringSize s.sht.member (s.port p).role = none) :
    takeState s p sync = s := by
  simp [takeState, stranger]

/-- A reserved LEVEL (R525). -/
def reservedLevel (sync : Nat) : Bool := 10 ≤ bits sync 5 2 && bits sync 5 2 < 14

/-- The fields of the current sheet, ORed or the minimum taken (R529). -/
def fieldsJoined (s : State) (sync : Nat) : State :=
  { s with grp := { s.grp with noYield := s.grp.noYield ||| bits sync 9 6, abort := s.grp.abort ||| bits sync 13 10,
                               pace := min s.grp.pace (bits sync 19 14) } }

/-- The fields of the next sheet, held (R529). -/
def fieldsHeld (s : State) (sync : Nat) : State :=
  { s with grp := { s.grp with heldNoYield := s.grp.heldNoYield ||| bits sync 9 6, heldAbort := s.grp.heldAbort ||| bits sync 13 10,
                               heldPace := min s.grp.heldPace (bits sync 19 14) } }

theorem reservedLevel_eq_false (sane : bits sync 5 2 < 10 ∨ 14 ≤ bits sync 5 2) : reservedLevel sync = false := by
  simp only [reservedLevel, Bool.and_eq_false_iff, decide_eq_false_iff_not]
  omega

variable (neighbour : neighbourOf s.grp.topology s.grp.ringSize s.sht.member (s.port p).role = some m)
    (served : (s.port p).up = true)
include neighbour served

/-- What a neighbour's state fields do (R521, R527, R529). -/
theorem takeState_eq : takeState s p sync =
      let k := fieldKept s m sync
      if !s.sht.groupActive || reservedLevel sync then agree k
      else if sync % 4 == s.sht.tick % 4 then agree (peerAborts (fieldsJoined k sync) (bits sync 13 10))
      else if sync % 4 == (s.sht.tick + 1) % 4 then agree (fieldsHeld k sync) else agree k := by
  simp only [takeState, neighbour, portUp, served]
  rfl

theorem takeState_alone (alone : s.sht.groupActive = false) : takeState s p sync = fieldKept s m sync := by
  rw [takeState_eq neighbour served, if_pos (by rw [alone]; rfl)]
  exact agree_alone alone

theorem takeState_reserved (reserved : reservedLevel sync = true) : takeState s p sync = agree (fieldKept s m sync) := by
  rw [takeState_eq neighbour served, if_pos (by rw [reserved, Bool.or_true])]

theorem takeState_joins (grouped : s.sht.groupActive = true) (sane : bits sync 5 2 < 10 ∨ 14 ≤ bits sync 5 2)
    (now : sync % 4 = s.sht.tick % 4) :
    takeState s p sync = agree (peerAborts (fieldsJoined (fieldKept s m sync) sync) (bits sync 13 10)) := by
  rw [takeState_eq neighbour served, if_neg (by rw [grouped, reservedLevel_eq_false sane]; decide), if_pos (beq_iff_eq.mpr now)]

theorem takeState_holds (grouped : s.sht.groupActive = true) (sane : bits sync 5 2 < 10 ∨ 14 ≤ bits sync 5 2)
    (ahead : sync % 4 = (s.sht.tick + 1) % 4) : takeState s p sync = agree (fieldsHeld (fieldKept s m sync) sync) := by
  have later : ¬(sync % 4 == s.sht.tick % 4) = true := by
    rw [beq_iff_eq]
    omega
  rw [takeState_eq neighbour served, if_neg (by rw [grouped, reservedLevel_eq_false sane]; decide), if_neg later,
    if_pos (beq_iff_eq.mpr ahead)]

end

/-! Flits sent (R518 to R520). -/

theorem out_emitFlit (s : State) (p ftype event seq body : Nat) : (emitFlit s p ftype event seq body).out =
    s.out ++ [.link p ftype [seq, syncField s ftype event, body, flitCrc seq (syncField s ftype event) body]] := by
  unfold emitFlit
  rw [State.emit]
  rfl

theorem sendFlit_law (p ftype event body : Nat) (s : State) : let x := s.port p
    let t := sendFlit s p ftype event body
    let sync := syncField s ftype event
    t.out = s.out ++ [.link p ftype [x.txSeq, sync, body, flitCrc x.txSeq sync body]] ∧
    t.port p = { x with txSeq := (x.txSeq + 1) % 4096,
                        replay := (x.replay ++ [(x.txSeq, [ftype, event, body])]).drop (x.replay.length - 255), lastSync := syncField s 0 0 } ∧
    (∀ k, k ≠ p → t.port k = s.port k) ∧ { t with ports := s.ports, out := s.out, mon := s.mon } = s := by
  intro x t sync
  refine ⟨out_emitFlit .., ?_, fun k other => ?_, ?_⟩
  · refine (State.port_count ..).trans ((State.port_updPort ..).trans ?_)
    rw [if_pos rfl, port_emitFlit, if_pos rfl]
  · refine (State.port_count ..).trans ((State.port_updPort ..).trans ?_)
    rw [if_neg other.symm, port_emitFlit, if_neg other.symm]
  · unfold t sendFlit emitFlit
    dsimp only [State.countChip, State.count, State.updPort, State.emit]

/-! Replays (R520). -/

/-- One flit again, as a port kept it: number; type, event, body. -/
def flitAgain (p : Nat) (s : State) (e : Nat × List Nat) : State := emitFlit s p (e.2.getD 0 0) (e.2.getD 1 0) e.1 (e.2.getD 2 0)

/-- A replayed flit, with the state fields of `s` (R520). -/
def replayed (s : State) (p : Nat) (e : Nat × List Nat) : Out :=
  let sync := syncField s (e.2.getD 0 0) (e.2.getD 1 0)
  .link p (e.2.getD 0 0) [e.1, sync, e.2.getD 2 0, flitCrc e.1 sync (e.2.getD 2 0)]

/-- A state with the present state fields noted as those a port sent last. -/
def syncNoted (s : State) (p : Nat) : State := s.updPort p fun x => { x with lastSync := syncField s 0 0 }

theorem paceTerms_sent (s : State) (p : Nat) (f : Port → Port) (out : List Out) :
    paceTerms { s.updPort p f with out } = paceTerms s := by rfl

/-- The state fields do not depend on the ports, nor on what has left the part. -/
theorem syncField_sent (s : State) (p : Nat) (f : Port → Port) (out : List Out) (ftype event : Nat) :
    syncField { s.updPort p f with out } ftype event = syncField s ftype event := by
  unfold syncField sentPace advertisedNow
  rw [paceTerms_sent]
  rfl

/-- A second change of a port that finds it as it is to be. -/
theorem updPort_updPort_same {s : State} {p : Nat} {f g : Port → Port} (same : g (f (s.port p)) = f (s.port p)) :
    (s.updPort p f).updPort p g = s.updPort p f := by
  have read : sget {} (supd {} s.ports p f) p = f (s.port p) := (State.port_updPort s p p f).trans (if_pos rfl)
  have ports : supd {} (supd {} s.ports p f) p g = supd {} s.ports p f := by
    rw [supd, read, same]
    exact sset_sset ..
  exact congrArg (fun ports => { s with ports }) ports

theorem replayed_noted (s : State) (p q : Nat) (out : List Out) (e : Nat × List Nat) :
    replayed { syncNoted s p with out } q e = replayed s q e := by
  unfold replayed syncNoted
  rw [syncField_sent]

theorem flitAgain_eq (s : State) (p : Nat) (e : Nat × List Nat) :
    flitAgain p s e = { syncNoted s p with out := s.out ++ [replayed s p e] } := by
  unfold flitAgain emitFlit replayed
  rw [State.emit]
  rfl

theorem syncNoted_noted (s : State) (p : Nat) (out : List Out) : syncNoted { syncNoted s p with out } p = { syncNoted s p with out } := by
  have noted : (syncNoted s p).updPort p (fun x => { x with lastSync := syncField s 0 0 }) = syncNoted s p := updPort_updPort_same rfl
  have now : syncField { syncNoted s p with out } 0 0 = syncField s 0 0 := syncField_sent ..
  rw [syncNoted, now]
  exact congrArg (fun t : State => { t with out }) noted

theorem foldl_flitAgain_noted (s : State) (p : Nat) (l : List (Nat × List Nat)) (out : List Out) :
    l.foldl (flitAgain p) { syncNoted s p with out } = { syncNoted s p with out := out ++ l.map (replayed s p) } := by
  induction l generalizing out with
  | nil => rw [List.map_nil, List.append_nil, List.foldl_nil]
  | cons e l ih => rw [List.foldl_cons, flitAgain_eq, syncNoted_noted, replayed_noted, ih, List.append_assoc, List.map_cons, List.singleton_append]

/-- A replay sends its flits in order, each with the state fields of its beginning. -/
theorem foldl_flitAgain {l : List (Nat × List Nat)} (some_ : l ≠ []) (s : State) (p : Nat) :
    l.foldl (flitAgain p) s = { syncNoted s p with out := s.out ++ l.map (replayed s p) } := by
  obtain ⟨e, l, rfl⟩ := List.exists_cons_of_ne_nil some_
  rw [List.foldl_cons, flitAgain_eq, foldl_flitAgain_noted, List.append_assoc, List.map_cons, List.singleton_append]

/-- The flits that a NAK asks for: those kept from its number on. -/
def askedAgain (s : State) (p seq : Nat) : List (Nat × List Nat) := (s.port p).replay.dropWhile fun e => e.1 != seq

/-- The replays from this number so far, in a row. -/
def replaysTried (s : State) (p seq : Nat) : Nat := if (s.port p).replaySeq = seq then (s.port p).replays else 0

theorem replayFrom_eq (s : State) (p seq : Nat) : replayFrom s p seq =
    let again := askedAgain s p seq
    if again = [] then s
    else if 16 ≤ replaysTried s p seq then retrainPort s p
    else again.foldl (fun s e => raiseChip s 0x5001 0 2 p 0 [p, e.1]) ((again.foldl (flitAgain p) s).updPort p (fun x =>
      { x with retries := sat16 x.retries again.length, replays := replaysTried s p seq + 1, replaySeq := seq })
        |>.countChip 0x30A again.length) := by
  simp only [replayFrom, List.isEmpty_iff, beq_iff_eq]
  rfl

/-- A replay begins with the flit of the NAK's number. -/
theorem first_askedAgain (s : State) (p seq : Nat) : ((askedAgain s p seq).headD (seq, [])).1 = seq := by
  have stops := List.head?_dropWhile_not (fun e : Nat × List Nat => e.1 != seq) (s.port p).replay
  rw [List.headD_eq_head?_getD, askedAgain]
  cases first : ((s.port p).replay.dropWhile fun e => e.1 != seq).head? with
  | none => rfl
  | some e => simpa [first] using stops

theorem replayFrom_law (p seq : Nat) (v : State) :
    let again := (v.port p).replay.dropWhile (fun e => e.1 != seq)
    let tried := if (v.port p).replaySeq = seq then (v.port p).replays else 0
    let sent (e : Nat × List Nat) : Out :=
      let sync := syncField v (e.2.getD 0 0) (e.2.getD 1 0)
      .link p (e.2.getD 0 0) [e.1, sync, e.2.getD 2 0, flitCrc e.1 sync (e.2.getD 2 0)]
    let w : State := { v.updPort p fun x => { x with lastSync := syncField v 0 0 } with out := v.out ++ again.map sent }
    (again = [] → replayFrom v p seq = v) ∧
    (again ≠ [] → 16 ≤ tried → replayFrom v p seq = retrainPort v p) ∧
    (again ≠ [] → tried < 16 →
      let z := w.updPort p (fun x => { x with retries := sat16 x.retries again.length, replays := tried + 1, replaySeq := seq })
      replayFrom v p seq = again.foldl (fun s e => raiseChip s 0x5001 0 2 p 0 [p, e.1]) (z.countChip 0x30A again.length)) ∧
    (∀ e ∈ again, e ∈ (v.port p).replay) ∧ (again.headD (seq, [])).1 = seq := by
  intro again tried sent w
  have law : replayFrom v p seq = _ := replayFrom_eq v p seq
  refine ⟨fun none => ?_, fun some_ spent => ?_, fun some_ left => ?_, fun e mem => List.dropWhile_subset _ mem,
    first_askedAgain v p seq⟩
  · exact law.trans (if_pos none)
  · exact law.trans ((if_neg some_).trans (if_pos spent))
  · have sends : again.foldl (flitAgain p) v = w := foldl_flitAgain some_ v p
    refine law.trans ((if_neg some_).trans ((if_neg left.not_ge).trans ?_))
    show again.foldl _ (((again.foldl (flitAgain p) v).updPort p _).countChip _ _) = _
    rw [sends]
    rfl

theorem takeState_law (p sync : Nat) (s : State) : let x := s.port p
    (bits sync 26 25 = 0 → takeEvent s p sync = s) ∧
    (let v := s.updPort p fun x => { x with rxSeq := (x.rxSeq + 1) % 4096, nakked := false, rxSinceAck := x.rxSinceAck + 1 };
      acceptFlit s p = if x.rxSinceAck < 63 then v else sendAck v p) ∧
    (neighbourOf s.grp.topology s.grp.ringSize s.sht.member x.role = none → takeState s p sync = s) ∧
    (∀ m, neighbourOf s.grp.topology s.grp.ringSize s.sht.member x.role = some m → x.up = true →
      let g := { s.grp with nbr := sset none s.grp.nbr m (some sync) }
      (s.sht.groupActive = false → takeState s p sync = { s with grp := g }) ∧
      (s.sht.groupActive = true → bits sync 5 2 < 10 ∨ bits sync 5 2 = 14 ∨ bits sync 5 2 = 15 → sync % 4 = s.sht.tick % 4 →
        let h := { g with noYield := g.noYield ||| bits sync 9 6, pace := min g.pace (bits sync 19 14) }
        let h := { h with abort := g.abort ||| bits sync 13 10 }
        takeState s p sync = agree (peerAborts { s with grp := h } (bits sync 13 10))) ∧
      (s.sht.groupActive = true → 10 ≤ bits sync 5 2 → bits sync 5 2 < 14 → takeState s p sync = agree { s with grp := g }) ∧
      (s.sht.groupActive = true → bits sync 5 2 < 10 ∨ 14 ≤ bits sync 5 2 → sync % 4 = (s.sht.tick + 1) % 4 →
        takeState s p sync = agree { s with grp := { g with
          heldNoYield := g.heldNoYield ||| bits sync 9 6, heldAbort := g.heldAbort ||| bits sync 13 10
          heldPace := min g.heldPace (bits sync 19 14) } })) := by
  intro x
  refine ⟨takeEvent_none, acceptFlit_law s p, takeState_stranger, fun m neighbour served => ⟨takeState_alone neighbour served,
    fun grouped sane => takeState_joins neighbour served grouped (by omega), fun grouped above below => ?_,
    takeState_holds neighbour served⟩⟩
  exact takeState_reserved neighbour served (by simp [reservedLevel, above, below])

/-- Settles O40, one law for each row of a received flit, for the state fields, for a sent flit and for a replay. Clauses that are the
model's choice: the awaited flit failing again sends a second NAK (`nakOut`, log entry 53), and a RING_DONE of nonzero status ends the
flight and asks the abort (`ringDone_known`, log entry 54). -/
theorem flitsAreAcceptedAndReplayed : Obligations.FlitsAreAcceptedAndReplayed := by
  exact ⟨fun p sync body ph s served => ⟨idleFlit_law served, controlNop_law served, eq_law served, twinCheck_law served, headFlit_law served,
    dataFlit_law, ⟨ringDone_unknown served, fun r => ringDone_known served⟩, ack_law served, nak_law served,
    fun seq raw crc words => flitDiscard_law p sync seq raw crc words s served⟩, takeState_law, sendFlit_law, replayFrom_law⟩

end Sys2Proof.Machine
end

section
/-! ### RD.RING (R542 to R546) -/

namespace Sys2Proof.Machine

open Sys2Proof

/-- The head of a transfer, from its record and its number (R524, R543). -/
def ringHead (x : Ctx) (r : Bytes) (number : Nat) : Bytes :=
  leBytes 2 x.j.id ++ leBytes 2 (x.i.opd % 4) ++ leBytes 2 number ++ leBytes 2 0 ++ slice r 8 8 ++ leBytes 8 (num r 0 8) ++
    leBytes 2 (num r 0x10 2 % 4096 + 32768 * b2n (bit x.i.opd 3)) ++ leBytes 2 0 ++ slice r 0x14 4

/-- A head names the job, the number and the length of its transfer. -/
theorem ringHead_law (x : Ctx) (r : Bytes) (number : Nat) : num (ringHead x r number) 0 2 = x.j.id % 65536 ∧
    num (ringHead x r number) 4 2 = number % 65536 ∧ num (ringHead x r number) 16 8 = num r 0 8 := by
  have len : num r 0 8 < 18446744073709551616 := num_lt r 0 8
  simp [ringHead, num_append_left, num_append_right, leBytes_length, len]

/-- A transfer has the next number and is under way: among those of its direction, and in the flight of its cell (R542, R546). -/
def ringBegun (w : State) (x : Ctx) : State :=
  addFlight { w with grp := { w.grp with nextNumber := (w.grp.nextNumber + 1) % 65536,
                                         rings := w.grp.rings ++ [⟨w.grp.nextNumber, x.j.id, x.c, b2n (bit x.i.opd 2)⟩] } }
    x.c (.ring w.grp.nextNumber)

/-- A transfer whose record passes and whose blocks all read is under way, its head and blocks queued on the ports of its direction. -/
theorem beginRing_sends {v w : State} {x : Ctx} {r : Bytes} {bs : List Bytes} (passes : ringFault v x r = none)
    (reads : ringSource v (devAddr x x.oa) (num r 0 8 / 4096) { who := some x.who, job := x.j.id, src := srcCell x.c } = (.ok bs, w)) :
    beginRing v x r =
      queueRing (ringBegun w x) (rolePorts w (b2n (bit x.i.opd 2) + 1)) (ringHead x r w.grp.nextNumber) bs := by
  unfold beginRing
  simp only [passes, reads]
  rfl

section
variable {c : Nat} {ph : List Phys} {s : State}

theorem execRdRing_held (held : ringHeld s c = true) : exec (.rdRing c ph) s = .next (injectAll s ph) := if_pos held

theorem execRdRing_begins {v : State} {x : Ctx} {r : Bytes} (room : ringHeld s c = false) (ready : readyCtx 0x51 c ph s = some x)
    (alone : x.j.interactive = false)
    (record : readStash (issued (injectAll s ph) x ph) c (x.gran (issued (injectAll s ph) x ph)) (stashBytes x.v - 64) 64
      (some x.who) = (some r, v)) : exec (.rdRing c ph) s = .next (beginRing v x r) := by
  show execRdRing c ph s = _
  unfold execRdRing
  rw [if_neg (by rw [room]; decide), issue_ready _ ready, if_neg (by rw [alone]; decide), record]

end

/-- Settles O21. That the source is read and verified whole as the transfer begins, and its head and all its blocks are queued at once, is
the model's choice (log entry 54). -/
theorem ringTransfersBegin : Obligations.RingTransfersBegin := by
  intro c ph s v w x r bs
  refine ⟨execRdRing_held, fun room ready alone record passes reads => ⟨ringHead x r w.grp.nextNumber, ?_, ringHead_law x r _⟩⟩
  rw [execRdRing_begins room ready alone record, beginRing_sends passes reads]
  rfl

end Sys2Proof.Machine
end
